-- ==== Sys2Proof/Word.lean ====
section
/-! DEFINITION. Bytes, and finite tables kept as lists of number and record. -/
namespace Sys2Proof

/-- One byte of a serial line (chapter 11: "every field is a whole number of bytes"). -/
abbrev Byte := BitVec 8

/-- A table from entry numbers (handles, slots, bays, ports, pool indexes, batch tags) to records, as the list of
its filled entries. Its canonical form, numbers strictly rising, is `tblWf` of Machine/Tables.lean. -/
abbrev Tbl (α : Type) := List (Nat × α)

end Sys2Proof
end

