-- ==== Sys2Proof/Syntax.lean ====
section
/-! DEFINITION. The commands of the engine: one constructor for each row of spec/opcode_table.json.

A host request row takes the frame at the head of the host input queue and a report row the frame at the head of the
fleet input queue (R173, R174, R177; log 5), so those rows carry no operand of their own: their operands are the
frame's payload, whose forms (R184, R186) are the structures after `Instr`. -/
namespace Sys2Proof

/-- The rows of spec/opcode_table.json. -/
inductive Instr where
  /-- POWER_ON_RESET (R18): RSTN low. -/
  | powerOnReset
  /-- GWRDY_FALL (R166). -/
  | gwrdyFall
  /-- GWRDY_RISE (R166). -/
  | gwrdyRise
  /-- HOST_FRAME_RECEIVED (R172, R174): these bytes arrive on the host line. -/
  | hostFrameReceived (bytes : List Byte)
  /-- BUSY_MARK_REPLY (R174). -/
  | busyMarkReply
  /-- BAD_KIND (R173). -/
  | badKind
  /-- REPLY_TRANSMIT (R175). -/
  | replyTransmit
  /-- NOTICE_TRANSMIT (R175). -/
  | noticeTransmit
  /-- LAYOUT_OPEN (R6, R12). -/
  | layoutOpen
  /-- LOOP_DEF (R7). -/
  | loopDef
  /-- BAY_DEF (R8). -/
  | bayDef
  /-- PORT_DEF (R9). -/
  | portDef
  /-- LAYOUT_CLOSE (R10). -/
  | layoutClose
  /-- LAYOUT_LOCK (R14). -/
  | layoutLock
  /-- PORT_STATE (R17). -/
  | portState
  /-- BAY_TUNE (R116). -/
  | bayTune
  /-- RESERVE_SET (R134). -/
  | reserveSet
  /-- CLASS_WEIGHTS (R34). -/
  | classWeights
  /-- TIMING_SET (R179). -/
  | timingSet
  /-- INCIDENT_ROUTE (R169). -/
  | incidentRoute
  /-- INTAKE_GATE (R180). -/
  | intakeGate
  /-- ORDER_PLACE (R44, R45). -/
  | orderPlace
  /-- ORDER_HOLD (R58). -/
  | orderHold
  /-- ORDER_RELEASE (R59). -/
  | orderRelease
  /-- ORDER_CANCEL (R60). -/
  | orderCancel
  /-- ORDER_RETARGET (R61, R62). -/
  | orderRetarget
  /-- ORDER_RESOURCE (R164). -/
  | orderResource
  /-- ORDER_QUERY (R48). -/
  | orderQuery
  /-- ORDER_CLEAR (R47). -/
  | orderClear
  /-- DEMAND_ACK (R64). -/
  | demandAck
  /-- DEMAND_DROP (R65). -/
  | demandDrop
  /-- BATCH_QUERY (R67). -/
  | batchQuery
  /-- VEHICLE_STALL (R103). -/
  | vehicleStall
  /-- VEHICLE_UNSTALL (R103). -/
  | vehicleUnstall
  /-- VEHICLE_CLEARFAULT (R106). -/
  | vehicleClearfault
  /-- VEHICLE_AUTORELEASE (R105). -/
  | vehicleAutorelease
  /-- VEHICLE_GROUPS (R109). -/
  | vehicleGroups
  /-- VEHICLE_QUERY (R110). -/
  | vehicleQuery
  /-- VEHICLE_RETIRE (R101). -/
  | vehicleRetire
  /-- SHELF_SET (R142). -/
  | shelfSet
  /-- SHELF_QUERY (R143). -/
  | shelfQuery
  /-- SURVEY_SETUP (R147). -/
  | surveySetup
  /-- SURVEY_START (R148). -/
  | surveyStart
  /-- SURVEY_STOP (R156). -/
  | surveyStop
  /-- STATUS (R178). -/
  | status
  /-- RESTART (R181, steps 1 and 2). -/
  | restart
  /-- RESTART_EFFECT (R181, step 4). -/
  | restartEffect
  /-- CAPTURE_READ (R170). -/
  | captureRead
  /-- CAPTURE_CLEAR (R170). -/
  | captureClear
  /-- FLEET_FRAME_RECEIVED (R172, R177): these bytes arrive on the fleet line. -/
  | fleetFrameReceived (bytes : List Byte)
  /-- FLEET_FRAME_DROP (R177, case 1). -/
  | fleetFrameDrop
  /-- FLEET_COMMAND_TRANSMIT (R177). -/
  | fleetCommandTransmit
  /-- HELLO (R93). -/
  | hello
  /-- POS (R97). -/
  | pos
  /-- TAKEN (R53). -/
  | taken
  /-- PICK_BEGIN (R54). -/
  | pickBegin
  /-- PICK_END (R55). -/
  | pickEnd
  /-- PLACE_BEGIN (R56). -/
  | placeBegin
  /-- PLACE_END (R56). -/
  | placeEnd
  /-- TRIGGER_B_FIRE (R150). -/
  | triggerBFire
  /-- BATCH_DONE (R67) of the batch entry holding this tag. -/
  | batchDone (tag : Nat)
  /-- ABORTED (R57). -/
  | aborted
  /-- ABORT_LATE (R57). -/
  | abortLate
  /-- FAULT (R158). -/
  | fault
  /-- READY (R161). -/
  | ready
  /-- ENTRY_ASK (R119). -/
  | entryAsk
  /-- EXIT (R123). -/
  | exit
  /-- ARRIVED (R112). -/
  | arrived
  /-- BYE (R100). -/
  | bye
  /-- GRANT_STEP (R71). -/
  | grantStep
  /-- RESCAN_TIMER_EXPIRY (R72). -/
  | rescanTimerExpiry
  /-- TAKE_TIMER_EXPIRY (R107) of the vehicle in this slot. -/
  | takeTimerExpiry (slot : Nat)
  /-- NO_TAKE_LIMIT (R107, step 5) of the vehicle in this slot. -/
  | noTakeLimit (slot : Nat)
  /-- SILENCE_TIMER_EXPIRY (R99) of the vehicle in this slot. -/
  | silenceTimerExpiry (slot : Nat)
  /-- PARK_STEP (R102) of the vehicle in this slot. -/
  | parkStep (slot : Nat)
  /-- DORMANT_STEP (R102) of the vehicle in this slot. -/
  | dormantStep (slot : Nat)
  /-- LAPSE_TIMER_EXPIRY (R122) of this bay's entry for the vehicle in this slot. -/
  | lapseTimerExpiry (bay slot : Nat)
  /-- YIELD_TIMER_EXPIRY (R125) of this bay. -/
  | yieldTimerExpiry (bay : Nat)
  /-- STARVATION_TIMER_EXPIRY (R127) of this bay's queue entry for the vehicle in this slot. -/
  | starvationTimerExpiry (bay slot : Nat)
  /-- SURVEY_TIMER_EXPIRY (R149). -/
  | surveyTimerExpiry
  /-- SURVEY_BAY_STEP (R154). -/
  | surveyBayStep
  /-- ORPHAN_TIMER_EXPIRY (R163) of the order in this entry. -/
  | orphanTimerExpiry (handle : Nat)
deriving DecidableEq, Repr

/-! ## The payload fields of requests and reports, as the form of their kind gives them (R184, R186, section 11.3).
Numbers are as carried: the owning rule checks ranges and codes. -/

/-- A carrier tag's characters, one byte each (R184). -/
abbrev CarrierTag := List Byte

/-- An endpoint field (R184): type 0 port, 1 shelf, 2 bay, 0xFF none. -/
structure EndpointField where
  type : Nat
  number : Nat
deriving DecidableEq, Repr

/-- A load as HELLO and READY carry it (section 11.3). -/
inductive Load where
  | empty
  | tagged (tag : CarrierTag)
  | unknown
deriving DecidableEq, Repr

/-- LAYOUT_OPEN (R186). -/
structure LayoutOpenReq where
  bays : Nat
  ports : Nat
deriving DecidableEq, Repr

/-- LOOP_DEF (R186). -/
structure LoopDefReq where
  length : Nat
  speed : Nat
deriving DecidableEq, Repr

/-- BAY_DEF (R186). -/
structure BayDefReq where
  bay : Nat
  length : Nat
  speed : Nat
  exit : Nat
  entryJ : Nat
  exitJ : Nat
  park : Nat
  rackCount : Nat
  rackBase : Nat
  rackFirst : Nat
  rackPitch : Nat
  rackHandoff : Nat
deriving DecidableEq, Repr

/-- PORT_DEF (R186). -/
structure PortDefReq where
  port : Nat
  bay : Nat
  coord : Nat
  handoff : Nat
  kind : Nat
deriving DecidableEq, Repr

/-- PORT_STATE (R186). -/
structure PortStateReq where
  port : Nat
  state : Nat
deriving DecidableEq, Repr

/-- BAY_TUNE (R186), with its four optional values. -/
structure BayTuneReq where
  bay : Nat
  capacity : Option Nat
  soft : Option Nat
  quota : Option Nat
  openFlag : Option Nat
deriving DecidableEq, Repr

/-- RESERVE_SET (R186). -/
structure ReserveSetReq where
  bay : Nat
  hot : Nat
  empty : Nat
  lock : Nat
deriving DecidableEq, Repr

/-- One entry of CLASS_WEIGHTS (R186). -/
structure WeightEntry where
  cls : Nat
  base : Nat
  rate : Nat
deriving DecidableEq, Repr

/-- ORDER_PLACE (section 11.3). -/
structure OrderPlaceReq where
  hostTag : Nat
  kind : Nat
  trigger : Nat
  cls : Nat
  targeting : Nat
  target : Nat
  source : EndpointField
  dest : EndpointField
  carrierTag : Option CarrierTag
  reachLimit : Option Nat
  batchTag : Option Nat
  hold : Bool
deriving DecidableEq, Repr

/-- A request that names an order by handle and host tag (R48). -/
structure OrderRef where
  handle : Nat
  hostTag : Nat
deriving DecidableEq, Repr

/-- A request that names an order and one further number (ORDER_RESOURCE a port, DEMAND_ACK an assert value). -/
structure OrderNumReq where
  order : OrderRef
  value : Nat
deriving DecidableEq, Repr

/-- ORDER_RETARGET (R186). -/
structure OrderRetargetReq where
  order : OrderRef
  dest : EndpointField
deriving DecidableEq, Repr

/-- A fleet id and one further number (VEHICLE_AUTORELEASE a value, VEHICLE_GROUPS a mask). -/
structure VehicleNumReq where
  fleetId : Nat
  value : Nat
deriving DecidableEq, Repr

/-- VEHICLE_QUERY and SHELF_QUERY: a selector and a number (R186). -/
structure SelectReq where
  selector : Nat
  number : Nat
deriving DecidableEq, Repr

/-- SHELF_SET (R186). -/
structure ShelfSetReq where
  index : Nat
  state : Nat
  emptyFlag : Nat
  tag : Option CarrierTag
deriving DecidableEq, Repr

/-- SURVEY_SETUP (R186). -/
structure SurveySetupReq where
  mode : Nat
  first : Nat
  last : Nat
  aEnable : Nat
  period : Nat
  bEnable : Nat
  skipN : Nat
  everyM : Nat
deriving DecidableEq, Repr

/-- HELLO (section 11.3). -/
structure HelloRep where
  zone : Nat
  coord : Nat
  load : Load
deriving DecidableEq, Repr

/-- A reported point: POS (section 11.3). -/
structure PointRep where
  zone : Nat
  coord : Nat
deriving DecidableEq, Repr

/-- TAKEN (section 11.3). -/
structure TakenRep where
  handle : Nat
  layer : Nat
deriving DecidableEq, Repr

/-- PICK_END (section 11.3): an absent read tag is "unread". -/
structure PickEndRep where
  handle : Nat
  tag : Option CarrierTag
deriving DecidableEq, Repr

/-- PLACE_BEGIN and PLACE_END (section 11.3). -/
structure PlaceRep where
  handle : Nat
  dest : EndpointField
deriving DecidableEq, Repr

/-- FAULT (section 11.3). -/
structure FaultRep where
  severity : Nat
  code : Byte
deriving DecidableEq, Repr

end Sys2Proof
end

