-- ==== Sys2Proof/Machine/State.lean ====
section
/-! DEFINITION. Everything the spec gives the engine to hold, block by block (00 section 2), as plain data, and the
state right after a power-on reset. -/
namespace Sys2Proof.Machine

open Sys2Proof

/-! ## Why a step stops -/

/-- No rule of the spec ends an event in a fault of the engine: vehicle faults and incidents are effects on the state
(R158 to R169). The type has no constructor, so no step faults. -/
inductive Fault where
deriving DecidableEq, Repr

/-- Reasons for a refusal. -/
inductive Refusal where
  /-- A row of the table that has no meaning yet. Raised by `exec`'s arms alone; safe. No arm raises it now. -/
  | notModelled (mnemonic : String)
deriving DecidableEq, Repr

/-! ## Time -/

/-- A timer that was started at engine time `start` and expires at engine time `expiry` (R1). -/
structure Timer where
  start : Nat
  expiry : Nat
deriving DecidableEq, Repr

/-! ## Layout table (chapter 1) -/

/-- The engine operating state (section 1.2). -/
inductive OpState where
  | unloaded
  | loading
  | running
deriving DecidableEq, Repr

/-- The expected record of a load (R5). -/
inductive LayoutRecord where
  | layoutOpen
  | loopDef
  | bayDef (bay : Nat)
  | portDef (port : Nat)
  | layoutClose
deriving DecidableEq, Repr

/-- The interbay loop record: L_I and S_I (R7). -/
structure LoopRec where
  length : Nat
  speed : Nat
deriving DecidableEq, Repr

/-- A bay record with its rack (R8): L_b, S_b, X_b, e_b, x_b, park point, N_b, base, first, pitch, handoff. -/
structure BayRec where
  length : Nat
  speed : Nat
  exit : Nat
  entryJ : Nat
  exitJ : Nat
  park : Nat
  rackCount : Nat
  rackBase : Nat
  rackFirst : Nat
  rackPitch : Nat
  rackHandoff : Nat
deriving DecidableEq, Repr

/-- The kind of a port (R9). -/
inductive PortKind where
  | tool
  | stocker
deriving DecidableEq, Repr

/-- A port record with its open flag (R9). -/
structure PortRec where
  bay : Nat
  coord : Nat
  handoff : Nat
  kind : PortKind
  isOpen : Bool
deriving DecidableEq, Repr

/-- The layout table (LYT). -/
structure Layout where
  opState : OpState
  bayCount : Nat
  portCount : Nat
  expected : Option LayoutRecord
  loop : Option LoopRec
  bays : Tbl BayRec
  ports : Tbl PortRec
  lock : Bool
deriving DecidableEq, Repr

/-! ## Order table (chapter 3) -/

/-- The kind of an order (R42). -/
inductive OrderKind where
  | move
  | store
  | retrieve
  | supplyEmpty
  | returnEmpty
deriving DecidableEq, Repr

/-- The trigger of an order (R43). -/
inductive Trigger where
  | once
  | standing
deriving DecidableEq, Repr

/-- The class of an order (R43). -/
inductive OrderClass where
  | bulk
  | normal
  | expedite
  | hot
deriving DecidableEq, Repr

/-- The state of an order (R41). -/
inductive OrderState where
  | queued
  | held
  | assigned
  | toSource
  | picking
  | carrying
  | placing
  | cancelling
  | suspended
  | served
  | done
  | failed
  | cancelled
deriving DecidableEq, Repr

/-- Why a QUEUED order is not being served (R31, R76). -/
inductive WaitReason where
  | noVehicle
  | noShelf
  | noEmpty
  | portClosed
  | bayClosed
  | reachLimit
deriving DecidableEq, Repr

/-- Why an order is SUSPENDED (R41). -/
inductive SuspendReason where
  | fault
  | lost
  | mismatch
deriving DecidableEq, Repr

/-- Why a terminal order ended (R41). -/
inductive EndReason where
  | completed
  | withdrawn
  | cancelledByHost
  | retargetLate
  | orphaned
  | carrierLost
deriving DecidableEq, Repr

/-- The tag a vehicle read at pickup, or "unread" (R41). -/
inductive ReadTag where
  | unread
  | tag (t : CarrierTag)
deriving DecidableEq, Repr

/-- A port or a shelf. -/
inductive Endpoint where
  | port (p : Nat)
  | shelf (k : Nat)
deriving DecidableEq, Repr

/-- How an order names its vehicle (R43). -/
inductive Targeting where
  | direct (fleetId : Nat)
  | nearest (mask : BitVec 8)
deriving DecidableEq, Repr

/-- One of a vehicle's two command layers (R91). -/
inductive LayerId where
  | l0
  | l1
deriving DecidableEq, Repr

/-- An order record (R41). The handle is the number of its entry. `source` and `dest` are the endpoints once set;
`targetBay` is a STORE order's target bay, which stays set throughout (R42). `retargetLate` is the mark of R56,
`orphan` the timer of R163. -/
structure Order where
  seq : Nat
  hostTag : Nat
  kind : OrderKind
  trigger : Trigger
  cls : OrderClass
  carrierTag : Option CarrierTag
  readTag : Option ReadTag
  source : Option Endpoint
  targetBay : Option Nat
  dest : Option Endpoint
  prior : Option Endpoint
  targeting : Targeting
  reachLimit : Option Nat
  batchTag : Option Nat
  state : OrderState
  waitReason : Option WaitReason
  suspendReason : Option SuspendReason
  abortPending : Bool
  endReason : Option EndReason
  loc : Option (Nat × LayerId)
  storedAge : Nat
  queuedSince : Option Nat
  etaPick : Option Nat
  etaDone : Option Nat
  asserted : Bool
  serveCount : Nat
  acceptedAt : Nat
  endedAt : Option Nat
  retargetLate : Bool
  orphan : Option Timer
deriving DecidableEq, Repr

/-- An open batch entry (R66), under its batch tag. -/
structure Batch where
  openCount : Nat
  failed : Nat
  total : Nat
deriving DecidableEq, Repr

/-- Base B and rate K of one class (R34). -/
structure Weight where
  base : Nat
  rate : Nat
deriving DecidableEq, Repr

/-- The class weight table (R34). -/
structure Weights where
  bulk : Weight
  normal : Weight
  expedite : Weight
  hot : Weight
deriving DecidableEq, Repr

/-- The order table (ORT). -/
structure OrderTable where
  orders : Tbl Order
  batches : Tbl Batch
  nextSeq : Nat
  weights : Weights
  gate : Nat
deriving DecidableEq, Repr

/-! ## Assignment arbiter and reach calculator (chapters 2 and 4) -/

/-- The arbiter's state and settings with the reach calculator's settings (R39, R70, R72, R88). -/
structure Arbiter where
  examPending : Bool
  rescan : Option Timer
  tRescan : Nat
  chainDepth : Nat
  wPark : Nat
  wDorm : Nat
  wC : Nat
deriving DecidableEq, Repr

/-! ## Vehicle table (chapter 5) -/

/-- Why a vehicle is OFFLINE (R90). -/
inductive OfflineReason where
  | silent
  | lineDown
  | bye
deriving DecidableEq, Repr

/-- The link state with the offline reason (R90). -/
inductive Link where
  | online
  | offline (reason : OfflineReason)
deriving DecidableEq, Repr

/-- The activity of a vehicle (R91). -/
inductive Activity where
  | idle
  | repositioning
  | working
deriving DecidableEq, Repr

/-- The idle level of a vehicle (R102). -/
inductive IdleLevel where
  | ready
  | parked
  | dormant
deriving DecidableEq, Repr

/-- The class of a fault (R104). -/
inductive FaultClass where
  | recoverable
  | fatal
deriving DecidableEq, Repr

/-- The code of a last fault (R104): a vehicle's own code, or one the engine sets. -/
inductive FaultCode where
  | vehicle (code : Byte)
  | noTake
  | strayLoad
deriving DecidableEq, Repr

/-- A command layer (R91). -/
inductive Layer where
  | empty
  | staged (handle : Nat)
  | active (handle : Nat)
deriving DecidableEq, Repr

/-- A reported position and the time of its report (R90). -/
structure Position where
  zone : Nat
  coord : Nat
  time : Nat
deriving DecidableEq, Repr

/-- A vehicle record (R90). The slot is the number of its entry. -/
structure Vehicle where
  fleetId : Nat
  link : Link
  activity : Activity
  idleLevel : IdleLevel
  idleSince : Nat
  hostStall : Bool
  faultStall : Bool
  lastFault : Option (FaultClass × FaultCode)
  recovered : Bool
  autoRelease : Bool
  groupMask : BitVec 8
  position : Position
  load : Load
  layer0 : Layer
  layer1 : Layer
  lastTaken : Option LayerId
  takeTimer : Option Timer
  noTakes : Nat
  silence : Option Timer
  target : Option Nat
deriving DecidableEq, Repr

/-- The vehicle table (VHT) with its settings (R90, R113). -/
structure VehicleTable where
  vehicles : Tbl Vehicle
  tTake : Nat
  tSilent : Nat
  tPark : Nat
  tDorm : Nat
  parkOn : Bool
  dormOn : Bool
deriving DecidableEq, Repr

/-! ## Bay admission (chapter 6) -/

/-- An entry of an admitted set: INSIDE or else GRANTED, with the lapse timer of a GRANTED one (R115). -/
structure Admitted where
  slot : Nat
  inside : Bool
  entryTime : Nat
  lapse : Option Timer
deriving DecidableEq, Repr

/-- An entry of an entry queue with its starvation timer (R115). -/
structure Waiting where
  slot : Nat
  hot : Bool
  askedAt : Nat
  starved : Bool
  starve : Option Timer
deriving DecidableEq, Repr

/-- What bay admission holds for one bay (R115). The queue's head comes first. -/
structure BayState where
  capacity : Nat
  soft : Nat
  quota : Nat
  isOpen : Bool
  admitted : List Admitted
  queue : List Waiting
  yield : Option Timer
deriving DecidableEq, Repr

/-- The bay admission controller (BAC) with its settings (R115, R129). -/
structure Admission where
  bays : Tbl BayState
  tGrant : Nat
  tYield : Nat
  tEntry : Nat
deriving DecidableEq, Repr

/-! ## Shelf map (chapter 7) -/

/-- The state of a shelf (R131). -/
inductive ShelfState where
  | free
  | inbound
  | held
  | outbound
deriving DecidableEq, Repr

/-- A shelf record (R131). -/
structure Shelf where
  state : ShelfState
  tag : Option CarrierTag
  emptyFlag : Bool
  claim : Option Nat
deriving DecidableEq, Repr

/-- A bay's reserves and reserve lock (R133, R135). -/
structure Reserve where
  hot : Nat
  empty : Nat
  lock : Bool
deriving DecidableEq, Repr

/-- The shelf map (SHM). `shelves` lists the shelves that are not FREE with nothing on them. -/
structure ShelfMap where
  shelves : Tbl Shelf
  reserves : Tbl Reserve
deriving DecidableEq, Repr

/-! ## Idle survey (chapter 8) -/

/-- The survey mode (R146). -/
inductive SurveyMode where
  | singleOnce
  | rangeOnce
  | singleRepeat
  | rangeRepeat
deriving DecidableEq, Repr

/-- The sequencer's state (R146). -/
inductive SurveyState where
  | idle
  | armed
  | surveying
deriving DecidableEq, Repr

/-- The idle survey sequencer (ISS) (R146). `moves` and `short` are the pass tally. -/
structure Survey where
  mode : SurveyMode
  first : Nat
  last : Nat
  aOn : Bool
  aPeriod : Nat
  timer : Option Timer
  bOn : Bool
  skipN : Nat
  everyM : Nat
  skipLeft : Nat
  stepCount : Nat
  state : SurveyState
  current : Nat
  pendingStart : Bool
  moves : Nat
  short : List Nat
deriving DecidableEq, Repr

/-! ## Fault capture and incident router (chapter 9) -/

/-- The incident classes (R167). -/
inductive IncidentClass where
  | noTake
  | vehicleFaultR
  | vehicleFaultF
  | vehicleSilent
  | intrusion
  | phantomExit
  | entryStarved
  | positionClamped
  | carrierMismatch
  | strayLoad
  | orphanExpired
  | lineDown
deriving DecidableEq, Repr

/-- A notice severity (R169). -/
inductive NoticeSeverity where
  | silent
  | note
  | alert
  | alarm
deriving DecidableEq, Repr

/-- The fields of one incident (R167); its severity follows from its class. -/
structure Incident where
  cls : IncidentClass
  time : Nat
  fleetId : Option Nat
  handle : Option Nat
  place : Option Endpoint
  position : Option (Nat × Nat)
  code : Option Nat
deriving DecidableEq, Repr

/-- The fault capture and incident router (FCR) (R163, R168, R169). `capture` is the record, none when EMPTY; `routes`
lists the route of each class in the order of the class codes. -/
structure FaultCapture where
  capture : Option Incident
  furtherRec : Bool
  furtherFatal : Bool
  routes : List NoticeSeverity
  tOrphan : Nat
deriving DecidableEq, Repr

/-! ## Messages out (chapters 10 and 11) -/

/-- The status of a reply (section 11.4). -/
inductive Status where
  | ok
  | badKind
  | badField
  | wrongState
  | locked
  | tableFull
  | duplicate
  | notFound
  | tooLate
  | busy
  | orderSeq
  | layoutInvalid
deriving DecidableEq, Repr

/-- The reason of an ORDER_STATE notice (R49). -/
inductive OrderReason where
  | none
  | ended (r : EndReason)
  | suspend (r : SuspendReason)
  | cancelLate
deriving DecidableEq, Repr

/-- The event of a VEHICLE_STATE notice (R92). -/
inductive VehicleEvent where
  | enrolled
  | lost
  | stalled
  | released
deriving DecidableEq, Repr

/-- A notice (R49, R63, R67, R92, R155, R169). -/
inductive Notice where
  | orderState (handle hostTag : Nat) (previous new : OrderState) (time : Nat) (reason : OrderReason)
      (fleetId : Option Nat)
  | demandServed (handle hostTag serveCount time : Nat) (readTag : Option ReadTag)
  | batchDone (tag total failed : Nat)
  | vehicleState (fleetId slot : Nat) (event : VehicleEvent) (link : Link) (hostStall faultStall : Bool)
      (lastFault : Option (FaultClass × FaultCode))
  | incident (severity : NoticeSeverity) (incident : Incident) (captured : Bool)
  | surveyDone (mode : SurveyMode) (first last time moves : Nat) (short : List Nat)
deriving DecidableEq, Repr

/-- A notice waiting in the notice queue with its GAP flag (R176). -/
structure QueuedNotice where
  gap : Bool
  notice : Notice
deriving DecidableEq, Repr

/-- An endpoint with its point and handoff time, as STAGE, RETARGET and WELCOME carry it (section 11.3). -/
structure Stop where
  endpoint : Endpoint
  zone : Nat
  coord : Nat
  handoff : Nat
deriving DecidableEq, Repr

/-- The status of a WELCOME (section 11.3). -/
inductive WelcomeStatus where
  | ok
  | notReady
  | badPosition
  | full
deriving DecidableEq, Repr

/-- The work to continue a WELCOME lists (R96). -/
structure Work where
  handle : Nat
  layer : LayerId
  dest : Option Stop
  carrierTag : Option CarrierTag
deriving DecidableEq, Repr

/-- The cause of an ENTRY_VOID (section 11.4). -/
inductive VoidCause where
  | badBay
  | lapsed
  | starved
deriving DecidableEq, Repr

/-- The body of a fleet command (section 10.6). -/
inductive CommandBody where
  | welcome (status : WelcomeStatus) (slot : Nat) (work : Option Work)
  | stage (handle : Nat) (layer : LayerId) (source dest : Option Stop) (carrierTag : Option CarrierTag)
  | recall (handle : Nat) (layer : LayerId)
  | abort (handle : Nat)
  | retarget (handle : Nat) (dest : Option Stop)
  | entryGrant (bay : Nat)
  | entryVoid (bay : Nat) (cause : VoidCause)
  | moveTo (bay zone coord : Nat)
  | discard (handle : Nat) (layer : Option Nat)
deriving DecidableEq, Repr

/-- A fleet command to the vehicle with this fleet id. -/
structure Command where
  fleetId : Nat
  body : CommandBody
deriving DecidableEq, Repr

/-- How many shelves of a region are in each state, HELD shelves separately by empty flag (R134). -/
structure RegionCount where
  free : Nat
  inbound : Nat
  heldFull : Nat
  heldEmpty : Nat
  outbound : Nat
deriving DecidableEq, Repr

/-- A region of a rack (R133). -/
inductive Region where
  | general
  | emptyReserve
  | hotReserve
deriving DecidableEq, Repr

/-- A shelf record as a reply gives it: with the claiming order's host tag (R143). -/
structure ShelfView where
  shelf : Shelf
  claimTag : Option Nat
deriving DecidableEq, Repr

/-- What SHELF_QUERY adds to the record of a racked index: bay, local index, region, the point's coordinate and the
handoff time (R143). -/
structure RackPlace where
  bay : Nat
  localIndex : Nat
  region : Region
  coord : Nat
  handoff : Nat
deriving DecidableEq, Repr

/-- The survey sequencer's state as its replies and STATUS give it (R146). -/
structure SurveyView where
  mode : SurveyMode
  first : Nat
  last : Nat
  aOn : Bool
  aPeriod : Nat
  bOn : Bool
  skipN : Nat
  everyM : Nat
  state : SurveyState
  current : Nat
  pendingStart : Bool
  skipLeft : Nat
  stepCount : Nat
  expiry : Option Nat
deriving DecidableEq, Repr

/-- The STATUS reply (R178). -/
structure StatusView where
  time : Nat
  opState : OpState
  lock : Bool
  bayCount : Nat
  portCount : Nat
  expected : Option LayoutRecord
  gwrdy : Bool
  almn : Bool
  capture : Option Incident
  furtherRec : Bool
  furtherFatal : Bool
  live : Nat
  queued : Nat
  free : Nat
  gate : Nat
  batches : Nat
  vehicles : Nat
  online : Nat
  survey : SurveyView
  notices : Nat
  gapMark : Bool
deriving DecidableEq, Repr

/-- The payload of a reply: what the request's rule names. -/
inductive ReplyPayload where
  | none
  | expected (rec : LayoutRecord)
  | invalid (code number : Nat)
  | port (number : Nat) (rec : PortRec)
  | bay (capacity soft quota : Nat) (isOpen : Bool) (admitted : List (Nat × Bool × Nat))
      (queue : List (Nat × Bool × Nat))
  | reserve (bay count hot empty : Nat) (lock : Bool) (hotCount emptyCount generalCount : RegionCount)
  | weights (w : Weights)
  | timing (values : List (Nat × Nat))
  | routes (routes : List NoticeSeverity)
  | gate (g live : Nat) (isOpen : Bool)
  | placed (handle seq : Nat)
  | order (handle : Nat) (order : Order) (age : Nat) (fleetId : Option Nat)
  | batch (openCount failed total : Nat)
  | groups (mask : BitVec 8)
  | vehicleFree (slot : Nat)
  | vehicle (slot : Nat) (vehicle : Vehicle) (order0 order1 : Option OrderState)
  | shelf (view : ShelfView) (place : Option RackPlace)
  | shelfSet (index : Nat) (view : ShelfView)
  | rack (count base hot empty : Nat) (lock : Bool) (shelves : List (ShelfView × Region))
  | survey (view : SurveyView)
  | status (view : StatusView)
  | time (t : Nat)
  | capture (record : Option Incident) (furtherRec furtherFatal : Bool)
deriving DecidableEq, Repr

/-- A reply: its kind byte (R185), the echoed frame tag, the status and the payload. -/
structure Reply where
  kind : Nat
  tag : Nat
  status : Status
  payload : ReplyPayload
deriving DecidableEq, Repr

/-! ## Line interface (chapter 10) -/

/-- What waits in the host input queue: a frame's body, or the frame tag kept as a BUSY mark (R174). -/
inductive HostItem where
  | frame (body : List Byte)
  | mark (tag : Nat)
deriving DecidableEq, Repr

/-- The line interface unit (LIU) (R172 to R177, R181). A receiver holds the bytes of the frame in the making. -/
structure Lines where
  hostRx : List Byte
  hostQueue : List HostItem
  replySlot : Option Reply
  restartPending : Bool
  hostTx : Option (List Byte)
  notices : List QueuedNotice
  gapMark : Bool
  fleetRx : List Byte
  fleetIn : List (List Byte)
  fleetOut : List Command
  fleetTx : Option (List Byte)
deriving DecidableEq, Repr

/-! ## The engine -/

/-- The engine: engine time, the pin GWRDY, its blocks, the queue of waiting commands, and the counter that names the
model's next free choice (log 3). -/
structure State where
  now : Nat
  gwrdy : Bool
  liu : Lines
  lyt : Layout
  ort : OrderTable
  asa : Arbiter
  vht : VehicleTable
  bac : Admission
  shm : ShelfMap
  iss : Survey
  fcr : FaultCapture
  pending : List Instr
  choices : Nat
deriving DecidableEq, Repr

/-- The line interface after a power-on reset (R182). The fleet transmitter idle: DESIGN CHOICE, log 27. -/
def Lines.reset : Lines :=
  { hostRx := [], hostQueue := [], replySlot := none, restartPending := false, hostTx := none, notices := [],
    gapMark := false, fleetRx := [], fleetIn := [], fleetOut := [], fleetTx := none }

/-- The layout table after a power-on reset (R18). -/
def Layout.reset : Layout :=
  { opState := .unloaded, bayCount := 0, portCount := 0, expected := some .layoutOpen, loop := none, bays := [],
    ports := [], lock := false }

/-- The class weight table's defaults (R34). -/
def Weights.default : Weights :=
  { bulk := ⟨0, 2⟩, normal := ⟨1000, 10⟩, expedite := ⟨4000, 20⟩, hot := ⟨12000, 50⟩ }

/-- The order table after a power-on reset (R68). -/
def OrderTable.reset : OrderTable :=
  { orders := [], batches := [], nextSeq := 1, weights := .default, gate := 0 }

/-- The arbiter and the reach calculator after a power-on reset (R39, R40, R88, R89). -/
def Arbiter.reset : Arbiter :=
  { examPending := false, rescan := none, tRescan := 10, chainDepth := 2, wPark := 20, wDorm := 150, wC := 30 }

/-- The vehicle table after a power-on reset (R113, R114). -/
def VehicleTable.reset : VehicleTable :=
  { vehicles := [], tTake := 30, tSilent := 50, tPark := 300, tDorm := 1800, parkOn := true, dormOn := true }

/-- Bay admission after a power-on reset (R129, R130). -/
def Admission.reset : Admission := { bays := [], tGrant := 100, tYield := 150, tEntry := 600 }

/-- The shelf map after a power-on reset (R144). -/
def ShelfMap.reset : ShelfMap := { shelves := [], reserves := [] }

/-- The sequencer after a power-on reset (R157). An empty pass tally: DESIGN CHOICE, log 22. -/
def Survey.reset : Survey :=
  { mode := .singleOnce, first := 0, last := 0, aOn := false, aPeriod := 600, timer := none, bOn := false, skipN := 0,
    everyM := 4, skipLeft := 0, stepCount := 0, state := .idle, current := 0, pendingStart := false, moves := 0,
    short := [] }

/-- The default routes (R169), in the order of the class codes. -/
def defaultRoutes : List NoticeSeverity :=
  [.note, .note, .alarm, .note, .note, .note, .note, .note, .note, .alarm, .alarm, .note]

/-- The fault capture and the routes after a power-on reset (R171). -/
def FaultCapture.reset : FaultCapture :=
  { capture := none, furtherRec := false, furtherFatal := false, routes := defaultRoutes, tOrphan := 3000 }

/-- The engine right after a power-on reset: R18, R40, R68, R89, R114, R130, R144, R157, R171, R182; engine time 0
(00 section 4.2). GWRDY high: DESIGN CHOICE, log 1, unsafe. -/
def State.reset : State :=
  { now := 0, gwrdy := true, liu := .reset, lyt := .reset, ort := .reset, asa := .reset, vht := .reset, bac := .reset,
    shm := .reset, iss := .reset, fcr := .reset, pending := [], choices := 0 }

end Sys2Proof.Machine
end

