-- ==== Sys2Proof/Machine/Tables.lean ====
section
/-! DEFINITION. The arithmetic of 00 section 4.3, and the operations over tables. -/
namespace Sys2Proof.Machine

open Sys2Proof

/-! ## Arithmetic (00 sections 4.2 and 4.3) -/

/-- The largest engine time, where engine time stops (00 section 4.2). -/
def timeMax : Nat := 4294967295

/-- A sum of engine times that stops at the largest engine time. -/
def satTime (n : Nat) : Nat := min timeMax n

/-- ceil(a/b) (00 section 4.3). -/
def ceilDiv (a b : Nat) : Nat := (a + b - 1) / b

/-- (a − b) mod L, in 0 to L − 1 (00 section 4.3). -/
def modSub (a b L : Nat) : Nat := (((a : Int) - (b : Int)) % (L : Int)).toNat

/-- A value clamped to a range: below it the lower end, above it the upper end (R39). -/
def clamp (lo hi v : Nat) : Nat := max lo (min hi v)

/-! ## Tables -/

/-- The record at entry `k`. -/
def tblGet {α : Type} : Tbl α → Nat → Option α
  | [], _ => none
  | (j, v) :: t, k => if j = k then some v else tblGet t k

/-- The table with entry `k` holding `v`, keeping numbers strictly rising. -/
def tblSet {α : Type} : Tbl α → Nat → α → Tbl α
  | [], k, v => [(k, v)]
  | (j, w) :: t, k, v =>
    if k < j then (k, v) :: (j, w) :: t
    else if k = j then (k, v) :: t
    else (j, w) :: tblSet t k v

/-- The table with entry `k` free. -/
def tblErase {α : Type} : Tbl α → Nat → Tbl α
  | [], _ => []
  | (j, w) :: t, k => if j = k then tblErase t k else (j, w) :: tblErase t k

/-- Whether entry `k` is filled. -/
def tblHas {α : Type} (t : Tbl α) (k : Nat) : Bool := (tblGet t k).isSome

/-- The record of every filled entry changed by `f`, which sees the entry's number. -/
def tblMap {α : Type} (f : Nat → α → α) (t : Tbl α) : Tbl α := t.map (fun e => (e.1, f e.1 e.2))

/-- How many filled entries satisfy `p`. -/
def tblCount {α : Type} (p : α → Bool) (t : Tbl α) : Nat := (t.filter (fun e => p e.2)).length

/-- The lowest free entry below `bound`. -/
def tblFree {α : Type} (bound : Nat) (t : Tbl α) : Option Nat :=
  (List.range bound).find? (fun k => !tblHas t k)

/-- The canonical form of a table: numbers strictly rising. -/
def tblWf {α : Type} : Tbl α → Bool
  | [] => true
  | [_] => true
  | (j, _) :: (k, w) :: t => decide (j < k) && tblWf ((k, w) :: t)

/-! ## Choosing and ordering -/

/-- Put `x` into a list ordered by `before`, in front of the first element that does not come before it. -/
def insertBy {α : Type} (before : α → α → Bool) (x : α) : List α → List α
  | [] => [x]
  | y :: ys => if before y x then y :: insertBy before x ys else x :: y :: ys

/-- A list ordered by `before`, ties in the order they stood in. -/
def sortBy {α : Type} (before : α → α → Bool) : List α → List α
  | [] => []
  | x :: xs => insertBy before x (sortBy before xs)

/-- The element that no other comes before; of elements that tie, the first. -/
def bestBy {α : Type} (before : α → α → Bool) : List α → Option α
  | [] => none
  | x :: xs =>
    match bestBy before xs with
    | none => some x
    | some y => if before y x then some y else some x

/-- Whether no number stands twice in a list. -/
def noRepeat : List Nat → Bool
  | [] => true
  | x :: xs => !xs.contains x && noRepeat xs

end Sys2Proof.Machine
end

