-- ==== Sys2Proof/Machine/Operands.lean ====
section
/-! DEFINITION. What the rules read: points on the track and travel times (chapters 1 and 2), ages and priorities
(section 2.5), the places of orders, vehicles, shelves and entries in their tables, and the code tables of section
11.4 that requests and reports use. Nothing here changes the state. -/
namespace Sys2Proof.Machine

open Sys2Proof

/-! ## Timers (R1) -/

/-- A timer that runs for `t` from engine time `now` (R1). -/
def startTimer (now t : Nat) : Timer := ⟨now, satTime (now + t)⟩

/-- Whether engine time has reached a timer's expiry after its start (R1): a timer started at the largest engine time
never expires. -/
def Timer.due (t : Timer) (now : Nat) : Bool := decide (t.expiry ≤ now) && decide (t.start < t.expiry)

/-- Whether a timer that may be stopped is due. -/
def timerDue (t : Option Timer) (now : Nat) : Bool :=
  match t with
  | some t => t.due now
  | none => false

/-! ## The layout (chapter 1) -/

/-- L_I of the loaded layout. -/
def loopLength (l : Layout) : Nat :=
  match l.loop with
  | some r => r.length
  | none => 0

/-- S_I of the loaded layout. -/
def loopSpeed (l : Layout) : Nat :=
  match l.loop with
  | some r => r.speed
  | none => 0

/-- Zones: a bay below the bay count, or 255 (R2). -/
def zoneValid (l : Layout) (z : Nat) : Bool := decide (z < l.bayCount) || decide (z = 255)

/-- The loop length of a zone (R2). -/
def zoneLength (l : Layout) (z : Nat) : Nat :=
  if z = 255 then loopLength l
  else
    match tblGet l.bays z with
    | some b => b.length
    | none => 0

/-- The downstream distance from interbay coordinate `r` to bay `c` (R3). -/
def downstream (l : Layout) (r c : Nat) : Nat :=
  match tblGet l.bays c with
  | some b => modSub b.entryJ r (loopLength l)
  | none => 0

/-- The interbay coordinate of a bay's exit junction, x_b. -/
def exitJunction (l : Layout) (b : Nat) : Nat :=
  match tblGet l.bays b with
  | some r => r.exitJ
  | none => 0

/-- The interbay coordinate of a bay's entry junction, e_b. -/
def entryJunction (l : Layout) (b : Nat) : Nat :=
  match tblGet l.bays b with
  | some r => r.entryJ
  | none => 0

/-- Whether pool index `k` lies in the rack of this bay record (R16). -/
def rackHolds (b : BayRec) (k : Nat) : Bool := decide (b.rackBase ≤ k) && decide (k < b.rackBase + b.rackCount)

/-- The bay whose rack holds pool index `k`, with its record (R16). -/
def rackOf (l : Layout) (k : Nat) : Option (Nat × BayRec) := l.bays.find? (fun e => rackHolds e.2 k)

/-- Whether a pool index lies in the rack of a bay (R16). -/
def racked (l : Layout) (k : Nat) : Bool := (rackOf l k).isSome

/-- The point, bay and handoff time of an endpoint (R15, R16, R20). -/
def stopOf (l : Layout) (e : Endpoint) : Option Stop :=
  match e with
  | .port p => (tblGet l.ports p).map (fun r => ⟨e, r.bay, r.coord, r.handoff⟩)
  | .shelf k =>
    (rackOf l k).map (fun r => ⟨e, r.1, r.2.rackFirst + (k - r.2.rackBase) * r.2.rackPitch, r.2.rackHandoff⟩)

/-- The same of an endpoint that may not be set. -/
def stopOf? (l : Layout) (e : Option Endpoint) : Option Stop :=
  match e with
  | some e => stopOf l e
  | none => none

/-- A bay's park point, a bay coordinate (R15). -/
def parkPoint (l : Layout) (b : Nat) : Nat :=
  match tblGet l.bays b with
  | some r => r.park
  | none => 0

/-! ## Travel (section 2.2) -/

/-- The time of one leg of `d` dm at `v` dm/s (section 4.1, R21 to R23). -/
def legTime (d v : Nat) : Nat := ceilDiv (10 * d) v

/-- Travel from a position in the same bay (R21). -/
def travelInBay (b : BayRec) (p q : Nat) : Nat := legTime (modSub q p b.length) b.speed

/-- Travel from interbay coordinate `r` to coordinate `q` of a bay (R23). -/
def travelFromLoop (l : Layout) (r : Nat) (b : BayRec) (q : Nat) : Nat :=
  legTime (modSub b.entryJ r (loopLength l)) (loopSpeed l) + legTime q b.speed

/-- Travel from coordinate `p` of bay `a` to coordinate `q` of a different bay `b` (R22). -/
def travelAcross (l : Layout) (a : BayRec) (p : Nat) (b : BayRec) (q : Nat) : Nat :=
  legTime (modSub a.exit p a.length) a.speed + travelFromLoop l a.exitJ b q

/-- The travel time from a position (zone, coordinate) to a point (bay, coordinate) (R21 to R24). -/
def travel (l : Layout) (zone coord bay q : Nat) : Nat :=
  match tblGet l.bays bay with
  | none => 0
  | some b =>
    if zone = bay then travelInBay b coord q
    else if zone = 255 then travelFromLoop l coord b q
    else
      match tblGet l.bays zone with
      | none => 0
      | some a => travelAcross l a coord b q

/-- Travel between two stops: T_sd of R35; 0 when either is not set. -/
def travelBetween (l : Layout) (src dst : Option Stop) : Nat :=
  match src, dst with
  | some a, some b => travel l a.zone a.coord b.zone b.coord
  | _, _ => 0

/-- The handoff time of a stop. -/
def handoffOf (e : Option Stop) : Nat :=
  match e with
  | some a => a.handoff
  | none => 0

/-- Travel from a vehicle's last reported position to a stop: T_pd of R37. -/
def travelFrom (l : Layout) (p : Position) (dst : Option Stop) : Nat :=
  match dst with
  | some b => travel l p.zone p.coord b.zone b.coord
  | none => 0

/-! ## Orders (chapter 3) -/

/-- Whether an order state is live (R41). -/
def OrderState.live : OrderState → Bool
  | .done => false
  | .failed => false
  | .cancelled => false
  | _ => true

/-- How many orders are live (R46). -/
def liveCount (t : OrderTable) : Nat := tblCount (fun o => o.state.live) t.orders

/-- How many orders are QUEUED (R72). -/
def queuedCount (t : Tbl Order) : Nat := tblCount (fun o => decide (o.state = .queued)) t

/-- Whether BULK intake is closed at this count of live orders (R46). -/
def intakeClosed (g live : Nat) : Bool := decide (0 < g) && decide (g * 32 ≤ live)

/-- The order a request names by handle and host tag (R48). -/
def namedOrder (t : OrderTable) (r : OrderRef) : Option Order :=
  match tblGet t.orders r.handle with
  | some o => if o.hostTag = r.hostTag then some o else none
  | none => none

/-- An order's age at engine time `now` (R32). -/
def ageAt (o : Order) (now : Nat) : Nat :=
  if o.state = .queued then satTime (o.storedAge + (now - o.queuedSince.getD now)) else o.storedAge

/-- The weight of a class (R33, R34). -/
def Weights.of (w : Weights) : OrderClass → Weight
  | .bulk => w.bulk
  | .normal => w.normal
  | .expedite => w.expedite
  | .hot => w.hot

/-- The effective priority of an order (R33). -/
def priority (w : Weights) (o : Order) (now : Nat) : Nat :=
  min 65535 ((w.of o.cls).base + ageAt o now * (w.of o.cls).rate / 100)

/-! ## Vehicles (chapter 5) -/

/-- The slot a fleet id is mapped to (R90). -/
def slotOf (t : VehicleTable) (fleetId : Nat) : Option Nat :=
  (t.vehicles.find? (fun e => e.2.fleetId == fleetId)).map (fun e => e.1)

/-- The fleet id of the vehicle in a slot. -/
def fleetIdAt (t : VehicleTable) (slot : Nat) : Option Nat := (tblGet t.vehicles slot).map (fun v => v.fleetId)

/-- Whether a vehicle is ONLINE. -/
def Vehicle.online (v : Vehicle) : Bool := decide (v.link = .online)

/-- Condition 1 of R30: ONLINE and IN_SERVICE. -/
def Vehicle.inService (v : Vehicle) : Bool := v.online && !v.hostStall && !v.faultStall

/-- A layer of a vehicle. -/
def Vehicle.layer (v : Vehicle) : LayerId → Layer
  | .l0 => v.layer0
  | .l1 => v.layer1

/-- The other layer. -/
def LayerId.other : LayerId → LayerId
  | .l0 => .l1
  | .l1 => .l0

/-- A vehicle with one layer written. -/
def Vehicle.withLayer (v : Vehicle) (i : LayerId) (y : Layer) : Vehicle :=
  match i with
  | .l0 => { v with layer0 := y }
  | .l1 => { v with layer1 := y }

/-- Both layers EMPTY. -/
def Vehicle.bothEmpty (v : Vehicle) : Bool := decide (v.layer0 = .empty) && decide (v.layer1 = .empty)

/-- The handle and layer of a vehicle's ACTIVE order (R91). -/
def Vehicle.activeLayer (v : Vehicle) : Option (Nat × LayerId) :=
  match v.layer0, v.layer1 with
  | .active h, _ => some (h, .l0)
  | _, .active h => some (h, .l1)
  | _, _ => none

/-- The handle and layer of a vehicle's STAGED order (R91). -/
def Vehicle.stagedLayer (v : Vehicle) : Option (Nat × LayerId) :=
  match v.layer0, v.layer1 with
  | .staged h, _ => some (h, .l0)
  | _, .staged h => some (h, .l1)
  | _, _ => none

/-- The handle of a vehicle's ACTIVE order. -/
def Vehicle.activeHandle (v : Vehicle) : Option Nat := v.activeLayer.map (fun a => a.1)

/-- The ACTIVE order of a vehicle, with its handle. -/
def activeOrder (t : OrderTable) (v : Vehicle) : Option (Nat × Order) :=
  match v.activeLayer with
  | some (h, _) => (tblGet t.orders h).map (fun o => (h, o))
  | none => none

/-- The vehicle may be moved: ONLINE, IN_SERVICE and IDLE with both layers EMPTY (R111). -/
def Vehicle.movable (v : Vehicle) : Bool := v.inService && decide (v.activity = .idle) && v.bothEmpty

/-- Idle levels from READY up: DORMANT vehicles are chosen first (R126, R154). -/
def IdleLevel.rank : IdleLevel → Nat
  | .ready => 0
  | .parked => 1
  | .dormant => 2

/-! ## Idle levels (R102) -/

/-- The engine time of the step to PARKED (R102). -/
def parkTime (t : VehicleTable) (v : Vehicle) : Nat := satTime (v.idleSince + t.tPark)

/-- The engine time of the step to DORMANT (R102). -/
def dormTime (t : VehicleTable) (v : Vehicle) : Nat := satTime (v.idleSince + t.tPark + t.tDorm)

/-- The condition of the step to PARKED (R102). -/
def parkHolds (t : VehicleTable) (v : Vehicle) : Bool :=
  decide (v.activity = .idle) && t.parkOn && decide (v.idleLevel = .ready)

/-- The condition of the step to DORMANT (R102). -/
def dormHolds (t : VehicleTable) (v : Vehicle) : Bool :=
  decide (v.activity = .idle) && t.dormOn && decide (v.idleLevel ≠ .dormant)

/-- Whether the step to PARKED is due: engine time has reached it after the vehicle became IDLE (R1, R102). -/
def parkDue (t : VehicleTable) (now : Nat) (v : Vehicle) : Bool :=
  parkHolds t v && (Timer.mk v.idleSince (parkTime t v)).due now

/-- Whether the step to DORMANT is due. -/
def dormDue (t : VehicleTable) (now : Nat) (v : Vehicle) : Bool :=
  dormHolds t v && (Timer.mk v.idleSince (dormTime t v)).due now

/-- A vehicle after a change of T_park, T_dorm or an enable: a step whose new time is at or before now and whose
condition holds is taken at once, the park step before the dormant step (R102). -/
def retimed (t : VehicleTable) (now : Nat) (v : Vehicle) : Vehicle :=
  if dormHolds t v && decide (dormTime t v ≤ now) then { v with idleLevel := .dormant }
  else if parkHolds t v && decide (parkTime t v ≤ now) then { v with idleLevel := .parked }
  else v

/-! ## Bay admission (chapter 6) -/

/-- Whether a bay is open (R115). -/
def bayOpen (a : Admission) (b : Nat) : Bool :=
  match tblGet a.bays b with
  | some y => y.isOpen
  | none => false

/-- held_b: the entries of a bay's admitted set (R115). -/
def heldPlaces (a : Admission) (b : Nat) : Nat :=
  match tblGet a.bays b with
  | some y => y.admitted.length
  | none => 0

/-- A vehicle's entry in an admitted set. -/
def BayState.entryOf (y : BayState) (slot : Nat) : Option Admitted := y.admitted.find? (fun e => e.slot == slot)

/-- A vehicle's entry in an entry queue. -/
def BayState.waitingOf (y : BayState) (slot : Nat) : Option Waiting := y.queue.find? (fun e => e.slot == slot)

/-- A vehicle's entry in bay `b`'s admitted set. -/
def entryIn (a : Admission) (b slot : Nat) : Option Admitted :=
  match tblGet a.bays b with
  | some y => y.entryOf slot
  | none => none

/-- A vehicle's entry in bay `b`'s queue. -/
def waitingIn (a : Admission) (b slot : Nat) : Option Waiting :=
  match tblGet a.bays b with
  | some y => y.waitingOf slot
  | none => none

/-- The bays in whose admitted set a vehicle has an entry: at most one (R115). -/
def admittedBays (a : Admission) (slot : Nat) : List Nat :=
  (a.bays.filter (fun e => (e.2.entryOf slot).isSome)).map (fun e => e.1)

/-- The bays in whose queue a vehicle stands: at most one (R115). -/
def waitingBays (a : Admission) (slot : Nat) : List Nat :=
  (a.bays.filter (fun e => (e.2.waitingOf slot).isSome)).map (fun e => e.1)

/-! ## Shelves (chapter 7) -/

/-- A FREE shelf (R131). -/
def freeShelf : Shelf := { state := .free, tag := none, emptyFlag := false, claim := none }

/-- The record of a pool index. -/
def shelfAt (m : ShelfMap) (k : Nat) : Shelf := (tblGet m.shelves k).getD freeShelf

/-- A bay's reserves (R133). -/
def reserveOf (m : ShelfMap) (b : Nat) : Reserve := (tblGet m.reserves b).getD ⟨0, 0, false⟩

/-- The region of a rack's local index (R133). -/
def regionOf (count hot empty i : Nat) : Region :=
  if count - hot ≤ i then .hotReserve
  else if count - hot - empty ≤ i then .emptyReserve
  else .general

/-- The pool indexes of a bay's region, in increasing local index (R133). -/
def regionShelves (b : BayRec) (r : Reserve) (g : Region) : List Nat :=
  ((List.range b.rackCount).filter (fun i => decide (regionOf b.rackCount r.hot r.empty i = g))).map
    (fun i => b.rackBase + i)

/-! ## Codes (section 11.4) -/

def orderKindOf : Nat → Option OrderKind
  | 0 => some .move | 1 => some .store | 2 => some .retrieve | 3 => some .supplyEmpty | 4 => some .returnEmpty
  | _ => none

def triggerOf : Nat → Option Trigger
  | 0 => some .once | 1 => some .standing
  | _ => none

def orderClassOf : Nat → Option OrderClass
  | 0 => some .bulk | 1 => some .normal | 2 => some .expedite | 3 => some .hot
  | _ => none

def incidentClassOf : Nat → Option IncidentClass
  | 1 => some .noTake | 2 => some .vehicleFaultR | 3 => some .vehicleFaultF | 4 => some .vehicleSilent
  | 5 => some .intrusion | 6 => some .phantomExit | 7 => some .entryStarved | 8 => some .positionClamped
  | 9 => some .carrierMismatch | 10 => some .strayLoad | 11 => some .orphanExpired | 12 => some .lineDown
  | _ => none

def IncidentClass.code : IncidentClass → Nat
  | .noTake => 1 | .vehicleFaultR => 2 | .vehicleFaultF => 3 | .vehicleSilent => 4 | .intrusion => 5
  | .phantomExit => 6 | .entryStarved => 7 | .positionClamped => 8 | .carrierMismatch => 9 | .strayLoad => 10
  | .orphanExpired => 11 | .lineDown => 12

/-- The severity of an incident class (R167): fatal, or else recoverable. -/
def IncidentClass.fatal : IncidentClass → Bool
  | .vehicleFaultF => true
  | .strayLoad => true
  | .orphanExpired => true
  | .noTake => false | .vehicleFaultR => false | .vehicleSilent => false | .intrusion => false
  | .phantomExit => false | .entryStarved => false | .positionClamped => false | .carrierMismatch => false
  | .lineDown => false

def noticeSeverityOf : Nat → Option NoticeSeverity
  | 0 => some .silent | 1 => some .note | 2 => some .alert | 3 => some .alarm
  | _ => none

def portKindOf : Nat → Option PortKind
  | 0 => some .tool | 1 => some .stocker
  | _ => none

def surveyModeOf : Nat → Option SurveyMode
  | 0 => some .singleOnce | 1 => some .rangeOnce | 2 => some .singleRepeat | 3 => some .rangeRepeat
  | _ => none

/-- A flag field: 0 is CLOSED, OFF or CLEAR, 1 is OPEN, ON or SET (R186). -/
def flagOf : Nat → Option Bool
  | 0 => some false | 1 => some true
  | _ => none

/-- The layer a byte names. -/
def layerIdOf : Nat → Option LayerId
  | 0 => some .l0 | 1 => some .l1
  | _ => none

/-- The port or shelf an endpoint field names (R184). -/
def endpointOf (f : EndpointField) : Option Endpoint :=
  match f.type with
  | 0 => some (.port f.number)
  | 1 => some (.shelf f.number)
  | _ => none

/-- A carrier tag is 1 to 12 characters from A–Z, 0–9 and hyphen (00 section 4.4). -/
def tagValid (t : CarrierTag) : Bool :=
  decide (1 ≤ t.length) && decide (t.length ≤ 12) &&
    t.all (fun c => (decide (0x41 ≤ c.toNat) && decide (c.toNat ≤ 0x5A)) ||
      (decide (0x30 ≤ c.toNat) && decide (c.toNat ≤ 0x39)) || decide (c.toNat = 0x2D))

/-- A fleet vehicle id is 1 to 65534 (00 section 4.4); the field has 16 bits. -/
def fleetIdValid (f : Nat) : Bool := decide (0 < f) && decide (f < 65535)

end Sys2Proof.Machine
end

