-- ==== Sys2Proof/Machine/Flags.lean ====
section
/-! DEFINITION. The flags and queues that every block writes: the examination-pending flag (R70), the notice queue with
its gap mark (R176), the fleet output queue (R177), the fault capture with its further-seen flags, ALMN and the routes
(R167 to R169). -/
namespace Sys2Proof.Machine

open Sys2Proof

/-- A change of a grant input: the examination-pending flag is set (R70). -/
def setExam (s : State) : State := { s with asa := { s.asa with examPending := true } }

/-- Whether the flag is set where `b` holds. -/
def setExamIf (b : Bool) (s : State) : State := if b then setExam s else s

/-- A notice joins the notice queue, with the GAP flag if the gap mark is set; with 64 waiting it is discarded and the
gap mark is set (R176). -/
def queueNotice (n : Notice) (s : State) : State :=
  if s.liu.notices.length < 64 then
    { s with liu := { s.liu with notices := s.liu.notices ++ [⟨s.liu.gapMark, n⟩], gapMark := false } }
  else { s with liu := { s.liu with gapMark := true } }

/-- A block issues a fleet command: it joins the fleet output queue, and is discarded while 32 wait (R177) or GWRDY is
low (R166). -/
def issue (fleetId : Nat) (body : CommandBody) (s : State) : State :=
  if s.gwrdy && decide (s.liu.fleetOut.length < 32) then
    { s with liu := { s.liu with fleetOut := s.liu.fleetOut ++ [⟨fleetId, body⟩] } }
  else s

/-- A command to the vehicle in a slot. -/
def issueTo (slot : Nat) (body : CommandBody) (s : State) : State :=
  match fleetIdAt s.vht slot with
  | some f => issue f body s
  | none => s

/-! ## Incidents -/

/-- The state of the capture record (R168). -/
inductive CaptureState where
  | empty
  | recoverable
  | fatal
deriving DecidableEq, Repr

/-- The state of a capture record that holds this (R168). -/
def captureStateOf : Option Incident → CaptureState
  | none => .empty
  | some i => if i.cls.fatal then .fatal else .recoverable

/-- ALMN is asserted exactly while the record holds a FATAL incident (R168). -/
def almnAsserted (s : State) : Bool := decide (captureStateOf s.fcr.capture = .fatal)

/-- Whether the capture takes an incident into the record (R168): into an EMPTY record, and a fatal one over a
RECOVERABLE one. -/
def captureTakes (f : FaultCapture) (i : Incident) : Bool :=
  match captureStateOf f.capture with
  | .empty => true
  | .recoverable => i.cls.fatal
  | .fatal => false

/-- An incident offered to the capture (R168). -/
def captureOffer (f : FaultCapture) (i : Incident) : FaultCapture :=
  match captureStateOf f.capture with
  | .empty => { f with capture := some i }
  | .recoverable =>
    if i.cls.fatal then { f with capture := some i, furtherRec := true } else { f with furtherRec := true }
  | .fatal => if i.cls.fatal then { f with furtherFatal := true } else { f with furtherRec := true }

/-- The route of an incident class (R169). -/
def routeOf (f : FaultCapture) (c : IncidentClass) : NoticeSeverity := f.routes.getD (c.code - 1) .note

/-- The notice of an incident by its class's route: none for SILENT (R169). -/
def routeNotice (i : Incident) (captured : Bool) (s : State) : State :=
  match routeOf s.fcr i.cls with
  | .silent => s
  | sev => queueNotice (.incident sev i captured) s

/-- An incident is raised: offered first to the capture, then to the route (R167). -/
def raiseIncident (i : Incident) (s : State) : State :=
  routeNotice i (captureTakes s.fcr i) { s with fcr := captureOffer s.fcr i }

/-- An incident about the vehicle in a slot, with the position it last reported (R167). -/
def raiseVehicle (c : IncidentClass) (slot : Nat) (handle : Option Nat) (place : Option Endpoint) (code : Option Nat)
    (s : State) : State :=
  match tblGet s.vht.vehicles slot with
  | some v =>
    raiseIncident ⟨c, s.now, some v.fleetId, handle, place, some (v.position.zone, v.position.coord), code⟩ s
  | none => s

end Sys2Proof.Machine
end

