-- ==== Sys2Proof/Machine/Ops.lean ====
section
/-! DEFINITION. The operations the rules share: writing the tables, moving an order from state to state, emptying
layers, returning an order to the queue and ending it (R49 to R52), stalls (R104), repositioning (R111, R112), granting
entry (R118, R125), losing a vehicle (R165), suspending and resuming orders (R159, R162). -/
namespace Sys2Proof.Machine

open Sys2Proof

/-! ## Writing the tables -/

/-- The rescan timer after the count of QUEUED orders went from `before` to `after`: it starts when the count rises
from 0 and stops when it falls to 0 (R72). -/
def rescanAfter (now tRescan before after : Nat) (timer : Option Timer) : Option Timer :=
  if before = 0 ∧ 0 < after then some (startTimer now tRescan)
  else if 0 < before ∧ after = 0 then none
  else timer

/-- Entry `h` of the order table holds `o`; the rescan timer follows the count of QUEUED orders (R72). -/
def putOrder (h : Nat) (o : Order) (s : State) : State :=
  { s with
    ort := { s.ort with orders := tblSet s.ort.orders h o }
    asa := { s.asa with
      rescan := rescanAfter s.now s.asa.tRescan (queuedCount s.ort.orders) (queuedCount (tblSet s.ort.orders h o))
        s.asa.rescan } }

/-- The record of a vehicle changed. -/
def updVehicle (slot : Nat) (f : Vehicle → Vehicle) (s : State) : State :=
  match tblGet s.vht.vehicles slot with
  | some v => { s with vht := { s.vht with vehicles := tblSet s.vht.vehicles slot (f v) } }
  | none => s

/-- The record of a shelf written: a shelf that is FREE with nothing on it is not listed. A racked shelf that changes to
FREE or to HELD sets the examination-pending flag (R132). -/
def setShelf (k : Nat) (sh : Shelf) (s : State) : State :=
  setExamIf
    (decide (sh ≠ shelfAt s.shm k) && racked s.lyt k && (decide (sh.state = .free) || decide (sh.state = .held)))
    { s with
      shm := { s.shm with
        shelves := if sh = freeShelf then tblErase s.shm.shelves k else tblSet s.shm.shelves k sh } }

/-- The yield timer's three conditions: the bay is open, held_b ≥ capacity_b and its queue is not empty (R125). -/
def BayState.pressed (y : BayState) : Bool :=
  y.isOpen && decide (y.capacity ≤ y.admitted.length) && !y.queue.isEmpty

/-- The vehicle at the head of a bay's queue. -/
def BayState.headSlot (y : BayState) : Option Nat := y.queue.head?.map (fun w => w.slot)

/-- The yield timer after a change of a bay: it starts when the three conditions come to hold, restarts when a different
entry becomes the head while they hold, and stops when one fails (R125). -/
def yieldAfter (now tYield : Nat) (old new : BayState) : Option Timer :=
  if new.pressed then
    if old.pressed && decide (old.headSlot = new.headSlot) then old.yield else some (startTimer now tYield)
  else none

/-- What bay admission holds for a bay changed; the yield timer follows (R125). -/
def updBay (b : Nat) (f : BayState → BayState) (s : State) : State :=
  match tblGet s.bac.bays b with
  | some y =>
    { s with
      bac := { s.bac with
        bays := tblSet s.bac.bays b { f y with yield := yieldAfter s.now s.bac.tYield y (f y) } } }
  | none => s

/-! ## Notices of orders and vehicles -/

/-- The ORDER_STATE notice of an order now in the table: the fleet id of its vehicle, or else of the vehicle it has just
left (R49). -/
def orderNotice (h : Nat) (prev : OrderState) (o : Order) (reason : OrderReason) (left : Option Nat) (s : State) :
    State :=
  queueNotice
    (.orderState h o.hostTag prev o.state s.now reason
      (match o.loc with
        | some (slot, _) => fleetIdAt s.vht slot
        | none => left))
    s

/-- The VEHICLE_STATE notice of the vehicle in a slot, as its record now stands (R92). -/
def vehicleNotice (slot : Nat) (ev : VehicleEvent) (s : State) : State :=
  match tblGet s.vht.vehicles slot with
  | some v => queueNotice (.vehicleState v.fleetId slot ev v.link v.hostStall v.faultStall v.lastFault) s
  | none => s

/-! ## Orders moving from state to state -/

/-- An order as it leaves its state: leaving QUEUED it keeps the age it has earned and loses its wait reason (R32,
R79). -/
def leaveState (now : Nat) (o : Order) : Order :=
  if o.state = .queued then { o with storedAge := ageAt o now, waitReason := none } else o

/-- An order entering a state: entering QUEUED its queued-since is now and it has no wait reason (R32, R79). -/
def enterState (now : Nat) (st : OrderState) (o : Order) : Order :=
  if st = .queued then { o with state := st, queuedSince := some now, waitReason := none } else { o with state := st }

/-- Order `h` goes to state `st`, its other fields changed by `f`, with its ORDER_STATE notice (R49). An entry to QUEUED
sets the examination-pending flag (R70). -/
def moveOrder (h : Nat) (f : Order → Order) (st : OrderState) (reason : OrderReason) (left : Option Nat) (s : State) :
    State :=
  match tblGet s.ort.orders h with
  | some o =>
    setExamIf (decide (st = .queued))
      (orderNotice h o.state (enterState s.now st (f (leaveState s.now o))) reason left
        (putOrder h (enterState s.now st (f (leaveState s.now o))) s))
  | none => s

/-- Fields of order `h` changed, its state kept. -/
def updOrder (h : Nat) (f : Order → Order) (s : State) : State :=
  match tblGet s.ort.orders h with
  | some o => putOrder h (f o) s
  | none => s

/-! ## Claims (R141) -/

/-- An INBOUND claim of order `h` is released: the shelf becomes FREE (R141). -/
def releaseInbound (h : Nat) (e : Option Endpoint) (s : State) : State :=
  match e with
  | some (.shelf k) =>
    if (shelfAt s.shm k).state = .inbound ∧ (shelfAt s.shm k).claim = some h then setShelf k freeShelf s else s
  | _ => s

/-- An OUTBOUND claim of order `h` is released: the shelf becomes HELD again, its tag and empty flag kept (R141). -/
def releaseOutbound (h : Nat) (e : Option Endpoint) (s : State) : State :=
  match e with
  | some (.shelf k) =>
    if (shelfAt s.shm k).state = .outbound ∧ (shelfAt s.shm k).claim = some h then
      setShelf k { shelfAt s.shm k with state := .held, claim := none } s
    else s
  | _ => s

/-- A source shelf that order `h` still claims becomes FREE, because its carrier is no longer there (R162, R164). -/
def vacateSource (h : Nat) (e : Option Endpoint) (s : State) : State :=
  match e with
  | some (.shelf k) =>
    if (shelfAt s.shm k).state = .outbound ∧ (shelfAt s.shm k).claim = some h then setShelf k freeShelf s else s
  | _ => s

/-! ## Layers (R51) -/

/-- A vehicle left with nothing to do: IDLE, READY, idle-since now (R51, R91). -/
def Vehicle.rest (v : Vehicle) (now : Nat) : Vehicle :=
  { v with activity := .idle, idleLevel := .ready, idleSince := now }

/-- An order leaves a vehicle's layer (R51). A vehicle that becomes IDLE and a take timer that starts are changes of
grant inputs. -/
def emptyLayer (slot : Nat) (i : LayerId) (s : State) : State :=
  match tblGet s.vht.vehicles slot with
  | some v =>
    match v.layer i, v.layer i.other with
    | .empty, _ => s
    | .staged _, .active _ => updVehicle slot (fun v => { v.withLayer i .empty with takeTimer := none }) s
    | .staged _, _ =>
      if v.activity = .repositioning then
        updVehicle slot (fun v => { v.withLayer i .empty with takeTimer := none }) s
      else setExam (updVehicle slot (fun v => { (v.withLayer i .empty).rest s.now with takeTimer := none }) s)
    | .active _, .staged _ =>
      setExam
        (updVehicle slot (fun v => { v.withLayer i .empty with takeTimer := some (startTimer s.now s.vht.tTake) }) s)
    | .active _, _ => setExam (updVehicle slot (fun v => (v.withLayer i .empty).rest s.now) s)
  | none => s

/-- The layer an order's record names is emptied (R51). -/
def leaveVehicle (loc : Option (Nat × LayerId)) (s : State) : State :=
  match loc with
  | some (slot, i) => emptyLayer slot i s
  | none => s

/-- The fleet id of the vehicle an order's record names. -/
def carrierId (s : State) (loc : Option (Nat × LayerId)) : Option Nat :=
  match loc with
  | some (slot, _) => fleetIdAt s.vht slot
  | none => none

/-! ## Return to the queue (R50) -/

/-- Whether the kind's destination shelf is a grant-time claim (R42). -/
def OrderKind.shelvesAtGrant : OrderKind → Bool
  | .store => true
  | .returnEmpty => true
  | .move => false
  | .retrieve => false
  | .supplyEmpty => false

/-- The destination that is left when an order returns from a vehicle: a STORE or RETURN_EMPTY shelf is absent again, a
port stays (R50). -/
def destAfterReturn (o : Order) : Option Endpoint :=
  match o.dest with
  | some (.shelf k) => if o.kind.shelvesAtGrant then none else some (.shelf k)
  | e => e

/-- The source that is left: a SUPPLY_EMPTY shelf is absent again, a RETRIEVE shelf and a port stay (R50). -/
def sourceAfterReturn (o : Order) : Option Endpoint :=
  match o.source with
  | some (.shelf k) => if o.kind = .supplyEmpty then none else some (.shelf k)
  | e => e

/-- The grant-time claims of an order released: a STORE or RETURN_EMPTY destination shelf becomes FREE, a SUPPLY_EMPTY
source shelf HELD, a prior destination shelf FREE; a RETRIEVE source claim is kept (R50). -/
def releaseGrantClaims (h : Nat) (o : Order) (s : State) : State :=
  releaseInbound h o.prior
    ((if o.kind = .supplyEmpty then releaseOutbound h o.source else id)
      (if o.kind.shelvesAtGrant then releaseInbound h o.dest s else s))

/-- An order's record as it leaves its vehicle for QUEUED or HELD (R50). -/
def offVehicle (o : Order) : Order :=
  { o with
    source := sourceAfterReturn o, dest := destAfterReturn o, prior := none, loc := none, etaPick := none,
    etaDone := none, abortPending := false, suspendReason := none, orphan := none }

/-- Order `h` returns from its vehicle to QUEUED, or to HELD by ORDER_HOLD (R50). -/
def returnOrder (h : Nat) (st : OrderState) (s : State) : State :=
  match tblGet s.ort.orders h with
  | some o =>
    moveOrder h offVehicle st .none (carrierId s o.loc) (releaseGrantClaims h o (leaveVehicle o.loc s))
  | none => s

/-! ## The end of an order (R52, R67) -/

/-- A batch entry whose open count has reached 0: BATCH_DONE is queued and the entry is freed (R67). -/
def closeBatch (tag : Nat) (s : State) : State :=
  match tblGet s.ort.batches tag with
  | some b =>
    if b.openCount = 0 then
      queueNotice (.batchDone tag b.total b.failed)
        { s with ort := { s.ort with batches := tblErase s.ort.batches tag } }
    else s
  | none => s

/-- A batch entry counted down for an order that has ended (R67). -/
def countDown (tag : Nat) (failed : Bool) (s : State) : State :=
  match tblGet s.ort.batches tag with
  | some b =>
    closeBatch tag
      { s with
        ort := { s.ort with
          batches := tblSet s.ort.batches tag
            { b with openCount := b.openCount - 1, failed := if failed then b.failed + 1 else b.failed } } }
  | none => s

/-- The batch of an ended order counted down, if it carries a batch tag (R52, R67). -/
def countBatch (o : Order) (failed : Bool) (s : State) : State :=
  match o.batchTag with
  | some tag => countDown tag failed s
  | none => s

/-- Every claim an order still holds released: an OUTBOUND source shelf becomes HELD, an INBOUND destination or prior
destination shelf FREE (R52). -/
def releaseAllClaims (h : Nat) (o : Order) (s : State) : State :=
  releaseInbound h o.prior (releaseInbound h o.dest (releaseOutbound h o.source s))

/-- An order's record as it ends (R52). -/
def ended (now : Nat) (why : EndReason) (o : Order) : Order :=
  { o with
    endedAt := some now, endReason := some why, loc := none, prior := none, abortPending := false,
    suspendReason := none, orphan := none }

/-- Order `h` enters DONE, FAILED or CANCELLED (R52): the layer emptied, the claims released, the notice, and then the
batch counted down. -/
def endOrder (h : Nat) (st : OrderState) (why : EndReason) (s : State) : State :=
  match tblGet s.ort.orders h with
  | some o =>
    countBatch o (decide (st = .failed))
      (moveOrder h (ended s.now why) st (.ended why) (carrierId s o.loc)
        (releaseAllClaims h o (leaveVehicle o.loc s)))
  | none => s

/-! ## Recalls and aborts -/

/-- RECALL to the vehicle that holds a staged order, naming handle and layer (R50). -/
def sendRecall (h : Nat) (s : State) : State :=
  match tblGet s.ort.orders h with
  | some o =>
    match o.loc with
    | some (slot, i) => issueTo slot (.recall h i) s
    | none => s
  | none => s

/-- A vehicle's STAGED order is recalled: RECALL is sent and the order returns to QUEUED (R50). -/
def recallStaged (slot : Nat) (s : State) : State :=
  match tblGet s.vht.vehicles slot with
  | some v =>
    match v.stagedLayer with
    | some (h, i) => returnOrder h .queued (issueTo slot (.recall h i) s)
    | none => s
  | none => s

/-- ABORT is sent for a TO_SOURCE order with no abort pending, and its abort pending becomes REQUEUE (R127, R158). -/
def requeueAbort (slot h : Nat) (s : State) : State :=
  match tblGet s.ort.orders h with
  | some o =>
    if o.abortPending then s
    else issueTo slot (.abort h) (updOrder h (fun o => { o with abortPending := true }) s)
  | none => s

/-! ## Stalls and repositioning -/

/-- A reposition ends: the target is absent, and the vehicle is IDLE READY with idle-since now when both its layers are
EMPTY and WORKING otherwise (R112). A vehicle that becomes IDLE is a change of a grant input (R70; log 33). -/
def endReposition (slot : Nat) (s : State) : State :=
  match tblGet s.vht.vehicles slot with
  | some v =>
    if v.target = none then s
    else if v.bothEmpty then setExam (updVehicle slot (fun v => { v.rest s.now with target := none }) s)
    else updVehicle slot (fun v => { v with activity := .working, target := none }) s
  | none => s

/-- A vehicle's last fault after an event of class `c` and code `k`: on a vehicle already fault-stalled by a FATAL
fault, a RECOVERABLE event leaves it (R104). -/
def lastFaultAfter (v : Vehicle) (c : FaultClass) (k : FaultCode) : Option (FaultClass × FaultCode) :=
  match v.lastFault with
  | some (.fatal, old) => if v.faultStall ∧ c = .recoverable then some (.fatal, old) else some (c, k)
  | _ => some (c, k)

/-- The fault stall is set (R104): last fault, recovered flag, the end of a reposition, and STALLED when the flag was
clear before. -/
def setFaultStall (slot : Nat) (c : FaultClass) (k : FaultCode) (s : State) : State :=
  match tblGet s.vht.vehicles slot with
  | some v =>
    (if v.faultStall then id else vehicleNotice slot .stalled)
      (endReposition slot
        (updVehicle slot (fun v => { v with faultStall := true, lastFault := lastFaultAfter v c k, recovered := false })
          s))
  | none => s

/-- The fault stall is cleared (R104): no-takes 0, RELEASED, and the examination-pending flag. -/
def clearFaultStall (slot : Nat) (s : State) : State :=
  setExam (vehicleNotice slot .released (updVehicle slot (fun v => { v with faultStall := false, noTakes := 0 }) s))

/-- A vehicle carries a carrier no order accounts for: fault-stalled FATAL with STRAY_LOAD, and the fatal incident (R94,
R96, R161). -/
def strayLoad (slot : Nat) (s : State) : State :=
  raiseVehicle .strayLoad slot none none none (setFaultStall slot .fatal .strayLoad s)

/-- The vehicle table sends a vehicle to bay `c` (R111). -/
def sendMoveTo (slot c : Nat) (s : State) : State :=
  updVehicle slot (fun v => { v with target := some c, activity := .repositioning, idleLevel := .ready })
    (issueTo slot (.moveTo c c (parkPoint s.lyt c)) s)

/-! ## Entry to bays -/

/-- A vehicle's entry leaves bay `b`'s admitted set, with its lapse timer; the examination-pending flag is set (R70). -/
def leaveBay (b slot : Nat) (s : State) : State :=
  match entryIn s.bac b slot with
  | some _ => setExam (updBay b (fun y => { y with admitted := y.admitted.filter (fun e => e.slot != slot) }) s)
  | none => s

/-- A vehicle's entry leaves bay `b`'s queue, with its timers (R120). -/
def leaveQueue (b slot : Nat) (s : State) : State :=
  updBay b (fun y => { y with queue := y.queue.filter (fun w => w.slot != slot) }) s

/-- A bay may grant: open, held_b below its capacity (R118). -/
def BayState.hasRoom (y : BayState) : Bool := y.isOpen && decide (y.admitted.length < y.capacity)

/-- The vehicle is granted entry: a GRANTED entry with entry time now, the lapse timer for T_grant, ENTRY_GRANT
(R118). -/
def grantEntry (b slot : Nat) (s : State) : State :=
  issueTo slot (.entryGrant b)
    (updBay b
      (fun y => { y with admitted := y.admitted ++ [⟨slot, false, s.now, some (startTimer s.now s.bac.tGrant)⟩] }) s)

/-- The head of a bay's queue is granted entry, where the bay has room (R118). -/
def grantHead (b : Nat) (s : State) : State :=
  match tblGet s.bac.bays b with
  | some y =>
    match y.queue with
    | w :: rest => if y.hasRoom then grantEntry b w.slot (updBay b (fun y => { y with queue := rest }) s) else s
    | [] => s
  | none => s

/-- `n` grants in a row, each where the bay still has room and its queue is not empty. -/
def grantHeads : Nat → Nat → State → State
  | 0, _, s => s
  | n + 1, b, s => grantHeads n b (grantHead b s)

/-- A bay grants from its queue until it is full, closed or its queue is empty (R118). -/
def grantQueue (b : Nat) (s : State) : State :=
  match tblGet s.bac.bays b with
  | some y => grantHeads y.queue.length b s
  | none => s

/-- A vehicle's entry leaves the admitted set of each of these bays, and each bay grants from its queue. -/
def leaveBaysGranting : List Nat → Nat → State → State
  | [], _, s => s
  | b :: bs, slot, s => leaveBaysGranting bs slot (grantQueue b (leaveBay b slot s))

/-- A vehicle's entries leave the queues of these bays. -/
def leaveQueues : List Nat → Nat → State → State
  | [], _, s => s
  | b :: bs, slot, s => leaveQueues bs slot (leaveQueue b slot s)

/-- An INSIDE entry with entry time now joins bay `b`'s admitted set, whatever held_b stands at (R121, R124). -/
def enterInside (b slot : Nat) (s : State) : State :=
  updBay b (fun y => { y with admitted := y.admitted ++ [⟨slot, true, s.now, none⟩] }) s

/-- The bays in whose admitted set a vehicle has a GRANTED entry. -/
def grantedBays (a : Admission) (slot : Nat) : List Nat :=
  (admittedBays a slot).filter
    (fun b => match entryIn a b slot with
      | some e => !e.inside
      | none => false)

/-- Bay admission acts on the places of a lost vehicle (R128): its queue entry and its GRANTED entry are removed, an
INSIDE entry is kept. -/
def losePlaces (slot : Nat) (s : State) : State :=
  leaveBaysGranting (grantedBays s.bac slot) slot (leaveQueues (waitingBays s.bac slot) slot s)

/-! ## Suspension and resumption -/

/-- Order `h` goes to SUSPENDED and its orphan timer starts (R163). -/
def suspendOrder (h : Nat) (why : SuspendReason) (s : State) : State :=
  moveOrder h (fun o => { o with suspendReason := some why, orphan := some (startTimer s.now s.fcr.tOrphan) })
    .suspended (.suspend why) none s

/-- eta done from the vehicle's last reported position (R37). -/
def etaFromVehicle (s : State) (slot : Nat) (dest : Option Endpoint) : Nat :=
  match tblGet s.vht.vehicles slot with
  | some v => satTime (s.now + travelFrom s.lyt v.position (stopOf? s.lyt dest) + handoffOf (stopOf? s.lyt dest))
  | none => s.now

/-- Order `h` on the vehicle in `slot` resumes from SUSPENDED to CARRYING (R162), its record first changed by `f`. -/
def resumeOrder (slot h : Nat) (f : Order → Order) (s : State) : State :=
  match tblGet s.ort.orders h with
  | some o =>
    setExam
      (moveOrder h
        (fun o => { f o with
          suspendReason := none, orphan := none, etaDone := some (etaFromVehicle s slot (f o).dest) })
        .carrying .none none (vacateSource h o.source s))
  | none => s

/-- The tag a load stands for, as a read tag. -/
def readOfLoad : Load → ReadTag
  | .tagged t => .tag t
  | .empty => .unread
  | .unknown => .unread

/-- Order `h` resumes on a READY or HELLO that reports a consistent load (R162): a prior destination is dropped and its
shelf becomes FREE; the read tag becomes the reported one where the order holds none (log 15). -/
def resumeOnReport (slot h : Nat) (load : Load) (s : State) : State :=
  match tblGet s.ort.orders h with
  | some o =>
    resumeOrder slot h
      (fun o => { o with prior := none, readTag := some (o.readTag.getD (readOfLoad load)) })
      (releaseInbound h o.prior s)
  | none => s

/-- Whether a reported load is consistent with a suspended order (R96). -/
def consistentLoad (o : Order) (load : Load) : Bool :=
  match o.carrierTag, load with
  | some t, .tagged u => decide (t = u)
  | none, .tagged _ => true
  | none, .unknown => true
  | some _, .unknown => false
  | _, .empty => false

/-- A suspended order whose vehicle reports another carrier: the suspend reason becomes MISMATCH and CARRIER_MISMATCH is
raised; the orphan timer keeps running (R96, R161). -/
def mismatch (slot h : Nat) (s : State) : State :=
  match tblGet s.ort.orders h with
  | some o =>
    raiseVehicle .carrierMismatch slot (some h) o.source none
      (updOrder h (fun o => { o with suspendReason := some .mismatch }) s)
  | none => s

/-- The class of a vehicle's last fault that carrier-involved handling goes by (R159). -/
def lastFaultClass (s : State) (slot : Nat) : FaultClass :=
  match tblGet s.vht.vehicles slot with
  | some v =>
    match v.lastFault with
    | some (c, _) => c
    | none => .recoverable
  | none => .recoverable

/-- Carrier-involved handling of an ACTIVE order whose pick has begun, on a fault-stalled vehicle (R159). `why` is the
suspend reason under a RECOVERABLE fault. An order already SUSPENDED stays so under a RECOVERABLE one (R158). -/
def carrierInvolved (slot h : Nat) (why : SuspendReason) (s : State) : State :=
  match lastFaultClass s slot with
  | .recoverable =>
    match tblGet s.ort.orders h with
    | some o => if o.state = .suspended then s else suspendOrder h why s
    | none => s
  | .fatal => updVehicle slot (fun v => { v with load := .unknown }) (endOrder h .failed .carrierLost s)

/-! ## Loss of a vehicle (R165) -/

/-- A lost vehicle's STAGED order returns to QUEUED without RECALL (R165, step 1). -/
def loseStaged (slot : Nat) (s : State) : State :=
  match tblGet s.vht.vehicles slot with
  | some v =>
    match v.stagedLayer with
    | some (h, _) => returnOrder h .queued s
    | none => s
  | none => s

/-- A lost vehicle's ACTIVE order, by its state (R165, step 2). -/
def loseActive (slot : Nat) (s : State) : State :=
  match tblGet s.vht.vehicles slot with
  | some v =>
    match activeOrder s.ort v with
    | some (h, o) =>
      match o.state with
      | .toSource => returnOrder h .queued s
      | .cancelling => endOrder h .cancelled .cancelledByHost s
      | .picking => suspendOrder h .lost s
      | .carrying => suspendOrder h .lost s
      | .placing => suspendOrder h .lost s
      | .suspended => updOrder h (fun o => { o with suspendReason := some .lost }) s
      | .queued => s | .held => s | .assigned => s | .served => s | .done => s | .failed => s | .cancelled => s
    | none => s
  | none => s

/-- A vehicle's link goes OFFLINE, its silence timer stops, and LOST is sent (R99, R100, R114). -/
def dropLink (slot : Nat) (why : OfflineReason) (s : State) : State :=
  vehicleNotice slot .lost (updVehicle slot (fun v => { v with link := .offline why, silence := none }) s)

/-- Loss handling of one vehicle (R165), after its link change and any incident. -/
def loseVehicle (slot : Nat) (s : State) : State :=
  endReposition slot (losePlaces slot (loseActive slot (loseStaged slot s)))

/-- A BYE: OFFLINE with reason BYE, LOST, and loss handling (R100). -/
def byeVehicle (slot : Nat) (s : State) : State := loseVehicle slot (dropLink slot .bye s)

end Sys2Proof.Machine
end

