-- ==== Sys2Proof/Config.lean ====
section
/-! DEFINITION. What one implementation of the engine fixes and the manual leaves open: the free values. Each is
opaque, so no proof can see what it is. -/
namespace Sys2Proof.Config

/-- The byte that reports the fault code NO_TAKE as a last fault's code (R104, R186): the manual gives the code a
name and no value. DESIGN CHOICE, log 9, safe. -/
opaque noTakeFaultCode : Byte

/-- The byte that reports the fault code STRAY_LOAD as a last fault's code (R104, R186): the manual gives the code a
name and no value. DESIGN CHOICE, log 9, safe. -/
opaque strayLoadFaultCode : Byte

/-- Which of the steps that are due is taken at the model's `choice`-th choice, counted round them. The manual gives no
order among them (00 section 4.6). DESIGN CHOICE, log 3, safe. -/
opaque stepPick (choice : Nat) : Nat

/-- Whether engine time passes at the model's `choice`-th choice before a step that is due, where no timer is. The manual
gives no moment for a step that a block takes of its own accord (00 section 4.6; R71, R152). DESIGN CHOICE, log 2,
safe. -/
opaque timePasses (choice : Nat) : Bool

/-- Whether a load code that section 11.3 does not list stands for a carrier whose tag is unknown, or for none: no rule
of HELLO or READY says how it is taken (R184). DESIGN CHOICE, log 34, safe. -/
opaque unlistedLoad (code : Byte) : Bool

/-- The payload sent in place of one that no body of 1024 bytes holds, before it is cut to 1020 bytes: the manual states
none (R183, R143). DESIGN CHOICE, log 26, safe. -/
opaque overlongPayload (payload : List Byte) : List Byte

end Sys2Proof.Config
end

