-- ==== Sys2Proof/Decode.lean ====
section
/-! DEFINITION. Reading what arrives: the CRC and the receiver of a line (R172, R183), the forms of the payloads
(R184, R186, section 11.3), and `decodeTableWord`. -/
namespace Sys2Proof

/-- The command a word spells by the bits of spec/opcode_table.json: the table gives no row any bits, so none does
(log 8). -/
def decodeTableWord (_nbits _w : Nat) : Option Instr := none

/-! ## Numbers and the CRC -/

/-- A one-byte number. -/
def u8 (a : Byte) : Nat := a.toNat

/-- A two-byte number, low byte first (R183). -/
def u16 (a b : Byte) : Nat := a.toNat + 256 * b.toNat

/-- A four-byte number, low byte first (R183). -/
def u32 (a b c d : Byte) : Nat := a.toNat + 256 * b.toNat + 65536 * c.toNat + 16777216 * d.toNat

/-- One bit step of the CRC with generator x^16 + x^12 + x^5 + 1 (R183). -/
def crcBit (c : BitVec 16) : BitVec 16 :=
  if c.msb then (c <<< 1) ^^^ 0x1021#16 else c <<< 1

/-- One byte fed into the CRC, most significant bit first (R183). -/
def crcByte (c : BitVec 16) (b : Byte) : BitVec 16 :=
  crcBit (crcBit (crcBit (crcBit (crcBit (crcBit (crcBit (crcBit (c ^^^ (b.zeroExtend 16 <<< 8)))))))))

/-- The CRC of R183: initial value 0xFFFF, no final inversion. -/
def crc16 (bytes : List Byte) : BitVec 16 := bytes.foldl crcByte 0xFFFF#16

/-- The CRC's two bytes as sent, low byte first (R183). -/
def crcBytes (bytes : List Byte) : List Byte :=
  [(crc16 bytes).truncate 8, ((crc16 bytes) >>> 8).truncate 8]

/-! ## The receiver of a line (R172) -/

/-- The start byte of a frame (section 11.1). -/
def startByte : Byte := 0xA5#8

/-- The four phases of a receiver (R172). -/
inductive RxPhase where
  | hunting
  | length
  | body
  | check
deriving DecidableEq, Repr

/-- The phase of a receiver that holds these bytes of a frame, its start byte first (R172). -/
def rxPhase : List Byte → RxPhase
  | [] => .hunting
  | _ :: lo :: hi :: more => if more.length < u16 lo hi then .body else .check
  | _ => .length

/-- The bodies of the complete frames in `buf`, oldest first, and the bytes of the frame still in the making (none:
the receiver hunts). Bytes before a start byte are discarded; a frame rejected for its length or its CRC is discarded
and the receiver hunts again from the byte after its start byte (R172). `fuel` is at least the number of bytes. -/
def rxScan : Nat → List Byte → List (List Byte) × List Byte
  | 0, buf => ([], buf)
  | _ + 1, [] => ([], [])
  | fuel + 1, b :: rest =>
    if b = startByte then
      match rest with
      | lo :: hi :: more =>
        if u16 lo hi < 4 ∨ 1024 < u16 lo hi then rxScan fuel rest
        else if more.length < u16 lo hi + 2 then ([], b :: rest)
        else if (more.drop (u16 lo hi)).take 2 = crcBytes (lo :: hi :: more.take (u16 lo hi)) then
          (more.take (u16 lo hi) :: (rxScan fuel (more.drop (u16 lo hi + 2))).1,
            (rxScan fuel (more.drop (u16 lo hi + 2))).2)
        else rxScan fuel rest
      | _ => ([], b :: rest)
    else rxScan fuel rest

/-- What a receiver that holds `buf` makes of the bytes `new` (R172). -/
def rxReceive (buf new : List Byte) : List (List Byte) × List Byte :=
  rxScan (buf ++ new).length (buf ++ new)

/-! ## Parts of payloads (R184) -/

/-- A carrier tag: one length byte of 1 to 12 and that many characters (R184). -/
def takeTag : List Byte → Option (CarrierTag × List Byte)
  | [] => none
  | n :: rest =>
    if u8 n = 0 ∨ 12 < u8 n ∨ rest.length < u8 n then none
    else some (rest.take (u8 n), rest.drop (u8 n))

/-- An optional carrier tag, present or not. -/
def takeTagIf (present : Bool) (bs : List Byte) : Option (Option CarrierTag × List Byte) :=
  if present then (takeTag bs).map (fun r => (some r.1, r.2)) else some (none, bs)

/-- An optional one-byte number, present or not. -/
def takeU8If (present : Bool) (bs : List Byte) : Option (Option Nat × List Byte) :=
  match present, bs with
  | false, bs => some (none, bs)
  | true, a :: rest => some (some (u8 a), rest)
  | true, [] => none

/-- An optional two-byte number, present or not. -/
def takeU16If (present : Bool) (bs : List Byte) : Option (Option Nat × List Byte) :=
  match present, bs with
  | false, bs => some (none, bs)
  | true, a :: b :: rest => some (some (u16 a b), rest)
  | true, _ => none

/-- A presence byte that sets only bits below `n` (R184: a further bit set makes the payload malformed). -/
def presenceFits (p : Byte) (n : Nat) : Bool := decide (u8 p < 2 ^ n)

/-- A kind whose form has no fields carries one filler byte of any value (R184). -/
def decodeFiller : List Byte → Option Unit
  | [_] => some ()
  | _ => none

/-- An endpoint field (R184). -/
def endpointField (t a b : Byte) : EndpointField := ⟨u8 t, u16 a b⟩

/-! ## Host requests (R186, section 11.3) -/

def decodeLayoutOpen : List Byte → Option LayoutOpenReq
  | [b, p0, p1] => some ⟨u8 b, u16 p0 p1⟩
  | _ => none

def decodeLoopDef : List Byte → Option LoopDefReq
  | [l0, l1, s] => some ⟨u16 l0 l1, u8 s⟩
  | _ => none

def decodeBayDef : List Byte → Option BayDefReq
  | [b, l0, l1, s, x0, x1, e0, e1, j0, j1, p0, p1, n, c0, c1, f0, f1, h, t0, t1] =>
    some ⟨u8 b, u16 l0 l1, u8 s, u16 x0 x1, u16 e0 e1, u16 j0 j1, u16 p0 p1, u8 n, u16 c0 c1, u16 f0 f1, u8 h,
      u16 t0 t1⟩
  | _ => none

def decodePortDef : List Byte → Option PortDefReq
  | [p0, p1, b, c0, c1, h0, h1, k] => some ⟨u16 p0 p1, u8 b, u16 c0 c1, u16 h0 h1, u8 k⟩
  | _ => none

def decodePortState : List Byte → Option PortStateReq
  | [p0, p1, v] => some ⟨u16 p0 p1, u8 v⟩
  | _ => none

def decodeBayTune : List Byte → Option BayTuneReq
  | b :: p :: r0 =>
    if presenceFits p 4 then do
      let (cap, r1) ← takeU8If (p.getLsbD 0) r0
      let (soft, r2) ← takeU8If (p.getLsbD 1) r1
      let (quota, r3) ← takeU8If (p.getLsbD 2) r2
      let (flag, r4) ← takeU8If (p.getLsbD 3) r3
      if r4 = [] then some ⟨u8 b, cap, soft, quota, flag⟩ else none
    else none
  | _ => none

def decodeReserveSet : List Byte → Option ReserveSetReq
  | [b, h, e, l] => some ⟨u8 b, u8 h, u8 e, u8 l⟩
  | _ => none

/-- The four-byte entries of CLASS_WEIGHTS. -/
def weightEntries : List Byte → Option (List WeightEntry)
  | [] => some []
  | c :: b0 :: b1 :: k :: rest => (weightEntries rest).map (fun es => ⟨u8 c, u16 b0 b1, u8 k⟩ :: es)
  | _ => none

/-- The three-byte entries of TIMING_SET. -/
def timingEntries : List Byte → Option (List (Nat × Nat))
  | [] => some []
  | c :: v0 :: v1 :: rest => (timingEntries rest).map (fun es => (u8 c, u16 v0 v1) :: es)
  | _ => none

/-- The two-byte entries of INCIDENT_ROUTE. -/
def routeEntries : List Byte → Option (List (Nat × Nat))
  | [] => some []
  | c :: v :: rest => (routeEntries rest).map (fun es => (u8 c, u8 v) :: es)
  | _ => none

/-- A list: one count byte and that many entries (R184). -/
def decodeCounted {α : Type} (entries : List Byte → Option (List α)) : List Byte → Option (List α)
  | n :: rest =>
    match entries rest with
    | some es => if es.length = u8 n then some es else none
    | none => none
  | [] => none

def decodeClassWeights (bs : List Byte) : Option (List WeightEntry) := decodeCounted weightEntries bs

def decodeTimingSet (bs : List Byte) : Option (List (Nat × Nat)) := decodeCounted timingEntries bs

def decodeIncidentRoute (bs : List Byte) : Option (List (Nat × Nat)) := decodeCounted routeEntries bs

def decodeU8 : List Byte → Option Nat
  | [g] => some (u8 g)
  | _ => none

def decodeU16 : List Byte → Option Nat
  | [a, b] => some (u16 a b)
  | _ => none

/-- ORDER_PLACE: 16 bytes of fixed fields, a presence byte with bit 3 the hold flag, and the present fields. -/
def decodeOrderPlace : List Byte → Option OrderPlaceReq
  | t0 :: t1 :: t2 :: t3 :: k :: tr :: c :: tg :: g0 :: g1 :: st :: s0 :: s1 :: dt :: d0 :: d1 :: p :: r0 =>
    if presenceFits p 4 then do
      let (tag, r1) ← takeTagIf (p.getLsbD 0) r0
      let (limit, r2) ← takeU16If (p.getLsbD 1) r1
      let (batch, r3) ← takeU16If (p.getLsbD 2) r2
      if r3 = [] then
        some ⟨u32 t0 t1 t2 t3, u8 k, u8 tr, u8 c, u8 tg, u16 g0 g1, endpointField st s0 s1, endpointField dt d0 d1,
          tag, limit, batch, p.getLsbD 3⟩
      else none
    else none
  | _ => none

def decodeOrderRef : List Byte → Option OrderRef
  | [h, t0, t1, t2, t3] => some ⟨u8 h, u32 t0 t1 t2 t3⟩
  | _ => none

def decodeOrderRetarget : List Byte → Option OrderRetargetReq
  | [h, t0, t1, t2, t3, e, d0, d1] => some ⟨⟨u8 h, u32 t0 t1 t2 t3⟩, endpointField e d0 d1⟩
  | _ => none

def decodeOrderResource : List Byte → Option OrderNumReq
  | [h, t0, t1, t2, t3, p0, p1] => some ⟨⟨u8 h, u32 t0 t1 t2 t3⟩, u16 p0 p1⟩
  | _ => none

def decodeDemandAck : List Byte → Option OrderNumReq
  | [h, t0, t1, t2, t3, a] => some ⟨⟨u8 h, u32 t0 t1 t2 t3⟩, u8 a⟩
  | _ => none

def decodeVehicleNum : List Byte → Option VehicleNumReq
  | [f0, f1, v] => some ⟨u16 f0 f1, u8 v⟩
  | _ => none

def decodeSelect : List Byte → Option SelectReq
  | [s, n0, n1] => some ⟨u8 s, u16 n0 n1⟩
  | _ => none

def decodeShelfSet : List Byte → Option ShelfSetReq
  | k0 :: k1 :: st :: e :: p :: r0 =>
    if presenceFits p 1 then do
      let (tag, r1) ← takeTagIf (p.getLsbD 0) r0
      if r1 = [] then some ⟨u16 k0 k1, u8 st, u8 e, tag⟩ else none
    else none
  | _ => none

def decodeSurveySetup : List Byte → Option SurveySetupReq
  | [m, f, l, a, p0, p1, b, n, e] => some ⟨u8 m, u8 f, u8 l, u8 a, u16 p0 p1, u8 b, u8 n, u8 e⟩
  | _ => none

/-! ## Fleet reports (section 11.3) -/

/-- The load that a code other than 1 stands for; a code that section 11.3 does not list is a free value (log 34). -/
def loadOfCode (code : Byte) : Load :=
  if code = 0#8 then .empty
  else if code = 2#8 then .unknown
  else if Config.unlistedLoad code then .unknown
  else .empty

/-- A load: its code, then a presence byte with the tag, present with load 1 and absent otherwise. An unlisted code is
not malformed (R184). -/
def decodeLoad : List Byte → Option Load
  | 1#8 :: 1#8 :: rest =>
    match takeTag rest with
    | some (tag, []) => some (.tagged tag)
    | _ => none
  | [code, 0#8] => if code = 1#8 then none else some (loadOfCode code)
  | _ => none

def decodeHello : List Byte → Option HelloRep
  | z :: c0 :: c1 :: rest => (decodeLoad rest).map (fun l => ⟨u8 z, u16 c0 c1, l⟩)
  | _ => none

def decodePos : List Byte → Option PointRep
  | [z, c0, c1] => some ⟨u8 z, u16 c0 c1⟩
  | _ => none

def decodeTaken : List Byte → Option TakenRep
  | [h, l] => some ⟨u8 h, u8 l⟩
  | _ => none

def decodePickEnd : List Byte → Option PickEndRep
  | h :: p :: rest =>
    if presenceFits p 1 then
      match takeTagIf (p.getLsbD 0) rest with
      | some (tag, []) => some ⟨u8 h, tag⟩
      | _ => none
    else none
  | _ => none

def decodePlace : List Byte → Option PlaceRep
  | [h, t, n0, n1] => some ⟨u8 h, endpointField t n0 n1⟩
  | _ => none

def decodeFault : List Byte → Option FaultRep
  | [s, c] => some ⟨u8 s, c⟩
  | _ => none

/-! ## Kinds (section 11.4) -/

/-- The row that takes a request frame of this kind, or none where the kind is no host request (section 11.4). -/
def hostRow : Nat → Option Instr
  | 0x01 => some .layoutOpen | 0x02 => some .loopDef | 0x03 => some .bayDef | 0x04 => some .portDef
  | 0x05 => some .layoutClose | 0x06 => some .layoutLock | 0x10 => some .bayTune | 0x11 => some .reserveSet
  | 0x12 => some .portState | 0x13 => some .classWeights | 0x14 => some .timingSet | 0x15 => some .incidentRoute
  | 0x16 => some .intakeGate | 0x20 => some .orderPlace | 0x21 => some .orderHold | 0x22 => some .orderRelease
  | 0x23 => some .orderCancel | 0x24 => some .orderRetarget | 0x25 => some .orderResource
  | 0x26 => some .orderQuery | 0x27 => some .orderClear | 0x28 => some .demandAck | 0x29 => some .demandDrop
  | 0x2A => some .batchQuery | 0x30 => some .vehicleStall | 0x31 => some .vehicleUnstall
  | 0x32 => some .vehicleClearfault | 0x33 => some .vehicleAutorelease | 0x34 => some .vehicleGroups
  | 0x35 => some .vehicleQuery | 0x36 => some .vehicleRetire | 0x37 => some .captureClear | 0x38 => some .shelfSet
  | 0x39 => some .shelfQuery | 0x3A => some .surveySetup | 0x3B => some .surveyStart | 0x3C => some .surveyStop
  | 0x3D => some .status | 0x3E => some .restart | 0x3F => some .captureRead
  | _ => none

/-- The row that takes a report frame of this kind and payload, or none where the kind is no vehicle report or the
payload is malformed for its kind (R177, case 1; section 11.4). -/
def fleetRow (kind : Nat) (payload : List Byte) : Option Instr :=
  match kind with
  | 0x51 => (decodeHello payload).map (fun _ => .hello)
  | 0x52 => (decodePos payload).map (fun _ => .pos)
  | 0x53 => (decodeTaken payload).map (fun _ => .taken)
  | 0x54 => (decodeU8 payload).map (fun _ => .pickBegin)
  | 0x55 => (decodePickEnd payload).map (fun _ => .pickEnd)
  | 0x56 => (decodePlace payload).map (fun _ => .placeBegin)
  | 0x57 => (decodePlace payload).map (fun _ => .placeEnd)
  | 0x58 => (decodeU8 payload).map (fun _ => .aborted)
  | 0x59 => (decodeU8 payload).map (fun _ => .abortLate)
  | 0x5A => (decodeFault payload).map (fun _ => .fault)
  | 0x5B => (decodeLoad payload).map (fun _ => .ready)
  | 0x5C => (decodeU8 payload).map (fun _ => .entryAsk)
  | 0x5D => (decodeU8 payload).map (fun _ => .exit)
  | 0x5E => (decodeFiller payload).map (fun _ => .arrived)
  | 0x5F => (decodeFiller payload).map (fun _ => .bye)
  | _ => none

end Sys2Proof
end

