-- ==== Sys2Proof/Machine/Wire.lean ====
section
/-! DEFINITION. The bytes of what the engine sends: frames (R183), bodies (section 11.2), and the payloads of replies,
notices and commands (R185, R186, section 11.3) with the codes of section 11.4. Where section 11.3 and R186 lay a reply
payload out, that layout; for the other replies the fields the rule names in its order, with the sizes those fields have
elsewhere (R185; DESIGN CHOICE where a size is stated nowhere, log 10). -/
namespace Sys2Proof.Machine

open Sys2Proof

/-! ## Fields -/

/-- A one-byte field. -/
def b1 (n : Nat) : List Byte := [BitVec.ofNat 8 n]

/-- A two-byte field, low byte first (R183). -/
def b2 (n : Nat) : List Byte := [BitVec.ofNat 8 n, BitVec.ofNat 8 (n / 256)]

/-- A four-byte field, low byte first (R183). -/
def b4 (n : Nat) : List Byte :=
  [BitVec.ofNat 8 n, BitVec.ofNat 8 (n / 256), BitVec.ofNat 8 (n / 65536), BitVec.ofNat 8 (n / 16777216)]

/-- A flag field: 0 or 1 (R186). -/
def bFlag (b : Bool) : List Byte := if b then [1#8] else [0#8]

/-- A carrier tag: its length byte and its characters (R184). -/
def bTag (t : CarrierTag) : List Byte := b1 t.length ++ t

/-- Optional fields as bits of a presence number, field 0 in the lowest bit (R184). -/
def presence : List (Option (List Byte)) → Nat
  | [] => 0
  | f :: fs => (if f.isSome then 1 else 0) + 2 * presence fs

/-- The bytes of the present optional fields, in order (R184). -/
def presentBytes : List (Option (List Byte)) → List Byte
  | [] => []
  | some b :: fs => b ++ presentBytes fs
  | none :: fs => presentBytes fs

/-- A presence byte and the present fields (R184). -/
def bOptional (fs : List (Option (List Byte))) : List Byte := b1 (presence fs) ++ presentBytes fs

/-- Two presence bytes and the present fields (R184). -/
def bOptional2 (fs : List (Option (List Byte))) : List Byte := b2 (presence fs) ++ presentBytes fs

/-- An endpoint field (R184): type and number, 0xFF and 0 for none. -/
def bEndpoint : Option Endpoint → List Byte
  | some (.port p) => b1 0 ++ b2 p
  | some (.shelf k) => b1 1 ++ b2 k
  | none => b1 0xFF ++ b2 0

/-- A bay as an endpoint field (R184). -/
def bBayEndpoint (b : Nat) : List Byte := b1 2 ++ b2 b

/-- A point: zone and coordinate (R184). -/
def bPoint (zone coord : Nat) : List Byte := b1 zone ++ b2 coord

/-- An endpoint with its point and handoff time: the 8-byte form of section 11.3. -/
def bStop : Option Stop → List Byte
  | some s => bEndpoint (some s.endpoint) ++ bPoint s.zone s.coord ++ b2 s.handoff
  | none => bEndpoint none ++ bPoint 0 0 ++ b2 0

/-! ## Codes (section 11.4) -/

def OrderKind.code : OrderKind → Nat
  | .move => 0 | .store => 1 | .retrieve => 2 | .supplyEmpty => 3 | .returnEmpty => 4

def Trigger.code : Trigger → Nat
  | .once => 0 | .standing => 1

def OrderClass.code : OrderClass → Nat
  | .bulk => 0 | .normal => 1 | .expedite => 2 | .hot => 3

def OrderState.code : OrderState → Nat
  | .queued => 0 | .held => 1 | .assigned => 2 | .toSource => 3 | .picking => 4 | .carrying => 5 | .placing => 6
  | .cancelling => 7 | .suspended => 8 | .served => 9 | .done => 10 | .failed => 11 | .cancelled => 12

def WaitReason.code : WaitReason → Nat
  | .noVehicle => 1 | .noShelf => 2 | .noEmpty => 3 | .portClosed => 4 | .bayClosed => 5 | .reachLimit => 6

def EndReason.code : EndReason → Nat
  | .completed => 0x10 | .withdrawn => 0x11 | .cancelledByHost => 0x12 | .retargetLate => 0x13 | .orphaned => 0x14
  | .carrierLost => 0x15

def SuspendReason.code : SuspendReason → Nat
  | .fault => 0x20 | .lost => 0x21 | .mismatch => 0x22

def OrderReason.code : OrderReason → Nat
  | .none => 0 | .ended r => r.code | .suspend r => r.code | .cancelLate => 0x30

def NoticeSeverity.code : NoticeSeverity → Nat
  | .silent => 0 | .note => 1 | .alert => 2 | .alarm => 3

def CaptureState.code : CaptureState → Nat
  | .empty => 0 | .recoverable => 1 | .fatal => 2

def Status.code : Status → Nat
  | .ok => 0 | .badKind => 1 | .badField => 2 | .wrongState => 3 | .locked => 4 | .tableFull => 5 | .duplicate => 6
  | .notFound => 7 | .tooLate => 8 | .busy => 9 | .orderSeq => 10 | .layoutInvalid => 11

def Link.code : Link → Nat
  | .offline _ => 0 | .online => 1

/-- 0 none, 2 SILENT, 3 LINE_DOWN, 4 BYE; 1 is NEVER, of a free slot (section 11.4). -/
def Link.reasonCode : Link → Nat
  | .online => 0 | .offline .silent => 2 | .offline .lineDown => 3 | .offline .bye => 4

def Activity.code : Activity → Nat
  | .idle => 0 | .repositioning => 1 | .working => 2

def IdleLevel.code : IdleLevel → Nat
  | .ready => 0 | .parked => 1 | .dormant => 2

/-- The service state of two stall flags (R90). -/
def serviceCode (hostStall faultStall : Bool) : Nat :=
  match hostStall, faultStall with
  | false, false => 0 | true, false => 1 | false, true => 2 | true, true => 3

def Layer.code : Layer → Nat
  | .empty => 0 | .staged _ => 1 | .active _ => 2

/-- The handle of a filled layer, 0 for an EMPTY one (section 11.3). -/
def Layer.handle : Layer → Nat
  | .empty => 0 | .staged h => h | .active h => h

def LayerId.code : LayerId → Nat
  | .l0 => 0 | .l1 => 1

def FaultClass.code : FaultClass → Nat
  | .recoverable => 0 | .fatal => 1

/-- The byte of a fault code: the vehicle's own, or a free value for the engine's two (log 9). -/
def FaultCode.byte : FaultCode → Byte
  | .vehicle c => c | .noTake => Config.noTakeFaultCode | .strayLoad => Config.strayLoadFaultCode

def VehicleEvent.code : VehicleEvent → Nat
  | .enrolled => 0 | .lost => 1 | .stalled => 2 | .released => 3

def VoidCause.code : VoidCause → Nat
  | .badBay => 0 | .lapsed => 1 | .starved => 2

def OpState.code : OpState → Nat
  | .unloaded => 0 | .loading => 1 | .running => 2

def SurveyMode.code : SurveyMode → Nat
  | .singleOnce => 0 | .rangeOnce => 1 | .singleRepeat => 2 | .rangeRepeat => 3

def SurveyState.code : SurveyState → Nat
  | .idle => 0 | .armed => 1 | .surveying => 2

def PortKind.code : PortKind → Nat
  | .tool => 0 | .stocker => 1

def ShelfState.code : ShelfState → Nat
  | .free => 0 | .inbound => 1 | .held => 2 | .outbound => 3

/-- The regions have no code in section 11.4: 0 general, 1 empty reserve, 2 hot reserve. DESIGN CHOICE, log 10. -/
def Region.code : Region → Nat
  | .general => 0 | .emptyReserve => 1 | .hotReserve => 2

def WelcomeStatus.code : WelcomeStatus → Nat
  | .ok => 0 | .notReady => 1 | .badPosition => 2 | .full => 3

/-- A load's code (section 11.3). -/
def loadCode : Load → Nat
  | .empty => 0 | .tagged _ => 1 | .unknown => 2

/-- The kind code of an expected record and its number, 0 for kinds other than BAY_DEF and PORT_DEF (R185). -/
def LayoutRecord.codes : LayoutRecord → Nat × Nat
  | .layoutOpen => (0x01, 0) | .loopDef => (0x02, 0) | .bayDef b => (0x03, b) | .portDef p => (0x04, p)
  | .layoutClose => (0x05, 0)

/-! ## Parts shared by messages -/

/-- An optional carrier tag. -/
def optTag (t : Option CarrierTag) : Option (List Byte) := t.map bTag

/-- A read tag as an optional tag: "unread" is sent as no tag, as section 11.3 has it for PICK_END. That ORDER_QUERY and
DEMAND_SERVED do the same: DESIGN CHOICE, log 35. -/
def readTagBytes : Option ReadTag → Option (List Byte)
  | some (.tag t) => some (bTag t)
  | some .unread => none
  | none => none

/-- A last fault: class and code (section 11.3). -/
def bFault (f : FaultClass × FaultCode) : List Byte := b1 f.1.code ++ [f.2.byte]

/-- The optional fields of an incident (R186). -/
def incidentFields (i : Incident) : List (Option (List Byte)) :=
  [i.fleetId.map b2, i.handle.map b1, i.place.map (fun e => bEndpoint (some e)),
    i.position.map (fun p => bPoint p.1 p.2), i.code.map b2]

/-- The destination endpoint: the shelf or port once set, and otherwise the target bay (section 11.3). -/
def bDest (o : Order) : List Byte :=
  match o.dest, o.targetBay with
  | some e, _ => bEndpoint (some e)
  | none, some b => bBayEndpoint b
  | none, none => bEndpoint none

/-- The targeting code and target (section 11.3). -/
def bTargeting : Targeting → List Byte
  | .direct f => b1 0 ++ b2 f
  | .nearest m => b1 1 ++ b2 m.toNat

/-- The reason byte of an order: wait, suspend or end reason (section 11.3). -/
def orderReason (o : Order) : Option Nat :=
  match o.waitReason, o.suspendReason, o.endReason with
  | some r, _, _ => some r.code
  | none, some r, _ => some r.code
  | none, none, some r => some r.code
  | none, none, none => none

/-- The target bay of a STORE whose destination shelf is set (section 11.3, bit 13). -/
def storeBay (o : Order) : Option Nat :=
  match o.dest with
  | some (.shelf _) => o.targetBay
  | _ => none

/-- The ORDER_QUERY record (section 11.3). -/
def bOrder (h : Nat) (o : Order) (age : Nat) (fleetId : Option Nat) : List Byte :=
  b1 h ++ b4 o.seq ++ b4 o.hostTag ++ b1 o.kind.code ++ b1 o.trigger.code ++ b1 o.cls.code ++ b1 o.state.code ++
    bTargeting o.targeting ++ bEndpoint o.source ++ bDest o ++ b4 age ++ b4 o.acceptedAt ++
    bOptional2
      [optTag o.carrierTag, readTagBytes o.readTag, o.prior.map (fun e => bEndpoint (some e)), o.reachLimit.map b2,
        o.batchTag.map b2, (orderReason o).map b1, if o.abortPending then some (b1 1) else none,
        o.loc.map (fun l => b1 l.1 ++ b1 l.2.code ++ b2 (fleetId.getD 0)), o.queuedSince.map b4,
        o.etaPick.bind (fun p => o.etaDone.map (fun d => b4 p ++ b4 d)),
        if o.trigger = .standing then some (bFlag o.asserted ++ b2 o.serveCount) else none, o.endedAt.map b4,
        o.orphan.map (fun t => b4 t.expiry), (storeBay o).map b1]

/-- A layer of the VEHICLE_QUERY record: state, handle, order state, 0 and 0 for an EMPTY one (section 11.3). -/
def bLayer (y : Layer) (st : Option OrderState) : List Byte :=
  b1 y.code ++ b1 y.handle ++ b1 ((st.map OrderState.code).getD 0)

/-- The VEHICLE_QUERY record of a held slot (section 11.3). -/
def bVehicle (slot : Nat) (v : Vehicle) (o0 o1 : Option OrderState) : List Byte :=
  b1 slot ++ b1 v.link.code ++ b1 v.link.reasonCode ++ b2 v.fleetId ++ b1 v.activity.code ++ b1 v.idleLevel.code ++
    b4 v.idleSince ++
    b1 ((if v.hostStall then 1 else 0) + (if v.faultStall then 2 else 0) + (if v.recovered then 4 else 0) +
      (if v.autoRelease then 8 else 0)) ++
    b1 (serviceCode v.hostStall v.faultStall) ++ [v.groupMask] ++ bPoint v.position.zone v.position.coord ++
    b4 v.position.time ++ b1 (loadCode v.load) ++ b1 v.noTakes ++ bLayer v.layer0 o0 ++ bLayer v.layer1 o1 ++
    bOptional
      [match v.load with
        | .tagged t => some (bTag t)
        | _ => none,
        v.lastFault.map bFault, v.lastTaken.map (fun i => b1 i.code), v.takeTimer.map (fun t => b4 t.expiry),
        v.silence.map (fun t => b4 t.expiry), v.target.map b1]

/-- The fixed fields of the survey sequencer's state in the order R146 lists them. Sizes: log 10. -/
def bSurvey (v : SurveyView) : List Byte :=
  b1 v.mode.code ++ b1 v.first ++ b1 v.last ++ bFlag v.aOn ++ b2 v.aPeriod ++ bFlag v.bOn ++ b1 v.skipN ++
    b1 v.everyM ++ b1 v.state.code ++ b1 v.current ++ bFlag v.pendingStart ++ b1 v.skipLeft ++ b1 v.stepCount

/-- The counts of one region (R134). Sizes, and HELD without the empty flag before HELD with it: DESIGN CHOICE,
log 10. -/
def bRegion (c : RegionCount) : List Byte :=
  b1 c.free ++ b1 c.inbound ++ b1 c.heldFull ++ b1 c.heldEmpty ++ b1 c.outbound

/-- A shelf record, with what else the reply gives of the shelf: its fixed fields, the fields `fixed` after them, and
after the tag and the claim the optional fields `more` (R142, R143, R184). The claiming handle stands with the claiming
order's host tag. Sizes and form: DESIGN CHOICE, log 10. -/
def bShelf (v : ShelfView) (fixed : List Byte) (more : List (Option (List Byte))) : List Byte :=
  b1 v.shelf.state.code ++ bFlag v.shelf.emptyFlag ++ fixed ++
    bOptional ([optTag v.shelf.tag, v.shelf.claim.map (fun h => b1 h ++ b4 (v.claimTag.getD 0))] ++ more)

/-- The place of a racked index: bay, local index, region, point and handoff time (R143). -/
def bPlace (p : RackPlace) : List Byte :=
  b1 p.bay ++ b1 p.localIndex ++ b1 p.region.code ++ bPoint p.bay p.coord ++ b2 p.handoff

/-- One shelf of a rack: its record and its region (R143). -/
def bRackShelf (e : ShelfView × Region) : List Byte := bShelf e.1 (b1 e.2.code) []

/-- One weight of the class weight table in the entry form of its request: DESIGN CHOICE, log 10. -/
def bWeight (c : OrderClass) (w : Weight) : List Byte := b1 c.code ++ b2 w.base ++ b1 w.rate

/-- The routes of the classes from code `c` on, in the entry form of INCIDENT_ROUTE: DESIGN CHOICE, log 10. -/
def bRoutes : Nat → List NoticeSeverity → List Byte
  | _, [] => []
  | c, r :: rs => b1 c ++ b1 r.code ++ bRoutes (c + 1) rs

/-- A vehicle's place in a bay's admitted set or queue: the fleet id, INSIDE or hot-flagged as 1 and GRANTED or not
hot-flagged as 0, and the time. Codes: DESIGN CHOICE, log 10. -/
def bPlaceHeld (e : Nat × Bool × Nat) : List Byte := b2 e.1 ++ bFlag e.2.1 ++ b4 e.2.2

/-- The capture record's state, class and time, the two further-seen flags, and the fields that are present (R170,
R184). A class and a time of 0 when EMPTY, the numbers of the optional fields those of the INCIDENT notice: DESIGN
CHOICE, log 10. -/
def bCapture (rec : Option Incident) (furtherRec furtherFatal : Bool) : List Byte :=
  b1 (captureStateOf rec).code ++ b1 ((rec.map (fun i => i.cls.code)).getD 0) ++ b4 ((rec.map Incident.time).getD 0) ++
    bFlag furtherRec ++ bFlag furtherFatal ++ bOptional ((rec.map incidentFields).getD [])

/-- The STATUS payload in the order R178 lists it, the optional fields last (R184): 0 the expected record in LOADING, 1
the survey timer's expiry. ALMN is 1 while it is asserted. Sizes and ALMN's values: DESIGN CHOICE, log 10. -/
def bStatus (v : StatusView) : List Byte :=
  b4 v.time ++ b1 v.opState.code ++ bFlag v.lock ++ b1 v.bayCount ++ b2 v.portCount ++ bFlag v.gwrdy ++ bFlag v.almn ++
    b1 (captureStateOf v.capture).code ++ bFlag v.furtherRec ++ bFlag v.furtherFatal ++ b2 v.live ++ b2 v.queued ++
    b2 v.free ++ b1 v.gate ++ b1 v.batches ++ b1 v.vehicles ++ b1 v.online ++ bSurvey v.survey ++ b1 v.notices ++
    bFlag v.gapMark ++
    bOptional
      [if v.opState = .loading then v.expected.map (fun r => b1 r.codes.1 ++ b2 r.codes.2) else none,
        v.survey.expiry.map b4]

/-! ## Messages -/

/-- A reply's payload (R185). -/
def replyPayload : ReplyPayload → List Byte
  | .none => []
  | .expected r => b1 r.codes.1 ++ b2 r.codes.2
  | .invalid c n => b1 c ++ b2 n
  | .port n r => b2 n ++ b1 r.bay ++ b2 r.coord ++ b2 r.handoff ++ b1 r.kind.code ++ bFlag r.isOpen
  | .bay c s q o adm que =>
    b1 c ++ b1 s ++ b1 q ++ bFlag o ++ b1 adm.length ++ (adm.map bPlaceHeld).flatten ++ b1 que.length ++
      (que.map bPlaceHeld).flatten
  | .reserve b n h e l ch ce cg => b1 b ++ b1 n ++ b1 h ++ b1 e ++ bFlag l ++ bRegion ch ++ bRegion ce ++ bRegion cg
  | .weights w =>
    b1 4 ++ bWeight .bulk w.bulk ++ bWeight .normal w.normal ++ bWeight .expedite w.expedite ++ bWeight .hot w.hot
  | .timing vs => b1 vs.length ++ (vs.map (fun e => b1 e.1 ++ b2 e.2)).flatten
  | .routes rs => b1 rs.length ++ bRoutes 1 rs
  | .gate g live o => b1 g ++ b2 live ++ bFlag o
  | .placed h seq => b1 h ++ b4 seq
  | .order h o age f => bOrder h o age f
  | .batch o f t => b4 o ++ b4 f ++ b4 t
  | .groups m => [m]
  | .vehicleFree slot => b1 slot ++ b1 0 ++ b1 1
  | .vehicle slot v o0 o1 => bVehicle slot v o0 o1
  | .shelf v p => bShelf v (bFlag p.isNone) [p.map bPlace]
  | .shelfSet k v => b2 k ++ bShelf v [] []
  | .rack n base h e l vs => b1 n ++ b2 base ++ b1 h ++ b1 e ++ bFlag l ++ b1 vs.length ++ (vs.map bRackShelf).flatten
  | .survey v => bSurvey v ++ bOptional [v.expiry.map b4]
  | .status v => bStatus v
  | .time t => b4 t
  | .capture rec fr ff => bCapture rec fr ff

/-- A payload as it is sent: one that no body of 1024 bytes holds after its header gives way to a free value of at most
1020 bytes (R183; log 26). -/
def fitted (payload : List Byte) : List Byte :=
  if payload.length ≤ 1020 then payload else (Config.overlongPayload payload).take 1020

/-- The body of a reply: reply kind, echoed frame tag, status, payload (section 11.2). -/
def replyBody (r : Reply) : List Byte := b1 r.kind ++ b2 r.tag ++ b1 r.status.code ++ fitted (replyPayload r.payload)

/-- A notice's kind (section 11.4). -/
def Notice.kind : Notice → Nat
  | .orderState .. => 0x70 | .demandServed .. => 0x71 | .batchDone .. => 0x72 | .vehicleState .. => 0x73
  | .incident .. => 0x74 | .surveyDone .. => 0x75

/-- A notice's payload (section 11.3, R186). -/
def noticePayload : Notice → List Byte
  | .orderState h t p n time r f =>
    b1 h ++ b4 t ++ b1 p.code ++ b1 n.code ++ b4 time ++ b1 r.code ++ bOptional [f.map b2]
  | .demandServed h t c time r => b1 h ++ b4 t ++ b2 c ++ b4 time ++ bOptional [readTagBytes r]
  | .batchDone tag total failed => b2 tag ++ b4 total ++ b4 failed
  | .vehicleState f slot ev link hs fs lf =>
    b2 f ++ b1 slot ++ b1 ev.code ++ b1 link.code ++ b1 link.reasonCode ++ b1 (serviceCode hs fs) ++
      bOptional [lf.map bFault]
  | .incident sev i cap =>
    b1 sev.code ++ b1 i.cls.code ++ bFlag i.cls.fatal ++ bFlag cap ++ b4 i.time ++ bOptional (incidentFields i)
  | .surveyDone m f l time moves short =>
    b1 m.code ++ b1 f ++ b1 l ++ b4 time ++ b1 moves ++ b1 short.length ++ (short.map b1).flatten

/-- The body of a notice: its kind, the flags with bit 0 GAP, its payload (section 11.2). -/
def noticeBody (q : QueuedNotice) : List Byte :=
  b1 q.notice.kind ++ b2 (if q.gap then 1 else 0) ++ noticePayload q.notice

/-- A command's kind (section 11.4). -/
def CommandBody.kind : CommandBody → Nat
  | .welcome .. => 0x41 | .stage .. => 0x42 | .recall .. => 0x43 | .abort .. => 0x44 | .retarget .. => 0x45
  | .entryGrant .. => 0x46 | .entryVoid .. => 0x47 | .moveTo .. => 0x48 | .discard .. => 0x49

/-- The work to continue of a WELCOME (section 11.3). -/
def bWork (w : Work) : List Byte := b1 w.handle ++ b1 w.layer.code ++ bStop w.dest ++ bOptional [optTag w.carrierTag]

/-- A command's payload (section 11.3, R186). -/
def commandPayload : CommandBody → List Byte
  | .welcome st slot w => b1 st.code ++ b1 slot ++ bOptional [w.map bWork]
  | .stage h i src dst t => b1 h ++ b1 i.code ++ bStop src ++ bStop dst ++ bOptional [optTag t]
  | .recall h i => b1 h ++ b1 i.code
  | .abort h => b1 h
  | .retarget h dst => b1 h ++ bStop dst
  | .entryGrant b => b1 b
  | .entryVoid b c => b1 b ++ b1 c.code
  | .moveTo b z c => b1 b ++ bPoint z c
  | .discard h i => b1 h ++ bOptional [i.map b1]

/-- The body of a fleet command: its kind, the fleet id, its payload (section 11.2). -/
def commandBody (c : Command) : List Byte := b1 c.body.kind ++ b2 c.fleetId ++ commandPayload c.body

/-- A frame on either line: the start byte, the body's length, the body, the CRC over length and body (R183). -/
def frameOf (body : List Byte) : List Byte :=
  startByte :: (b2 body.length ++ body ++ crcBytes (b2 body.length ++ body))

end Sys2Proof.Machine
end

