-- ==== Sys2Proof/Machine/Lines.lean ====
section
/-! DEFINITION. The line interface (chapter 10): how a request or a report is taken from its queue, screened and
answered, and the LIU's own rows of the table. -/
namespace Sys2Proof.Machine

open Sys2Proof

/-! ## Bodies (section 11.2) -/

/-- The kind of a body. -/
def bodyKind (body : List Byte) : Nat := u8 (body.getD 0 0#8)

/-- The frame tag of a request, or the fleet id of a fleet frame. -/
def bodyTag (body : List Byte) : Nat := u16 (body.getD 1 0#8) (body.getD 2 0#8)

/-- The payload of a request or of a report. -/
def bodyPayload (body : List Byte) : List Byte := body.drop 3

/-- The general reply kind (R185). -/
def generalReply : Nat := 0x80

/-! ## Host requests (R173 to R175) -/

/-- The LIU may take the head of the host input queue: its reply slot is empty and no RESTART awaits its effect
(R174). -/
def mayTake (s : State) : Bool := decide (s.liu.replySlot = none) && !s.liu.restartPending

/-- The head of the host input queue, where the LIU may take it (R174). -/
def hostHead (s : State) : Option HostItem := if mayTake s then s.liu.hostQueue.head? else none

/-- The head leaves the host input queue. -/
def popHost (s : State) : State := { s with liu := { s.liu with hostQueue := s.liu.hostQueue.tail } }

/-- A reply enters the reply slot (R175). -/
def placeReply (r : Reply) (s : State) : State := { s with liu := { s.liu with replySlot := some r } }

/-- What a request's own rule makes of it: its effects, and the status and payload of its reply. -/
structure Answered where
  state : State
  status : Status
  payload : ReplyPayload
deriving DecidableEq, Repr

/-- An OK answer. -/
def accept (s : State) (payload : ReplyPayload) : Answered := ⟨s, .ok, payload⟩

/-- A refusal: it changes nothing and carries no payload. -/
def refuse (s : State) (status : Status) : Answered := ⟨s, status, .none⟩

/-- The reply of an answered request enters the slot once its effects are made (R175, R185). -/
def answer (kind tag : Nat) (a : Answered) : State :=
  placeReply ⟨kind + generalReply, tag, a.status, a.payload⟩ a.state

/-- A request frame of this kind taken from the head of the host input queue (R174): a malformed payload is answered
BAD_FIELD (R173), and a well-formed one is handed to the rule that owns the kind. Where no such frame may be taken, the
command changes nothing (log 4). -/
def takeRequest {α : Type} (kind : Nat) (form : List Byte → Option α) (act : α → State → Answered) (s : State) :
    State :=
  match hostHead s with
  | some (.frame body) =>
    if bodyKind body = kind then
      match form (bodyPayload body) with
      | some r => answer kind (bodyTag body) (act r (popHost s))
      | none => answer kind (bodyTag body) (refuse (popHost s) .badField)
    else s
  | _ => s

/-- A request that is taken in RUNNING alone (R4): WRONG_STATE outside it. -/
def whenRunning {α : Type} (act : α → State → Answered) (r : α) (s : State) : Answered :=
  if s.lyt.opState = .running then act r s else refuse s .wrongState

/-- A complete host frame is placed (R174): at the tail with fewer than 8 frames waiting, as a BUSY mark with fewer than
8 marks held, and otherwise discarded. -/
def placeHost (body : List Byte) (q : List HostItem) : List HostItem :=
  if (q.filter (fun i => match i with | .frame _ => true | .mark _ => false)).length < 8 then q ++ [.frame body]
  else if (q.filter (fun i => match i with | .frame _ => false | .mark _ => true)).length < 8 then
    q ++ [.mark (bodyTag body)]
  else q

/-- Frames placed one after another. -/
def placeHosts : List (List Byte) → List HostItem → List HostItem
  | [], q => q
  | b :: bs, q => placeHosts bs (placeHost b q)

/-! ## Fleet reports (R177) -/

/-- The head leaves the fleet input queue. -/
def popFleet (s : State) : State := { s with liu := { s.liu with fleetIn := s.liu.fleetIn.tail } }

/-- The silence timer of a vehicle restarts (R98, R99). -/
def restartSilence (slot : Nat) (s : State) : State :=
  updVehicle slot (fun v => { v with silence := some (startTimer s.now s.vht.tSilent) }) s

/-- A report of this kind, with its fleet id, taken from the head of the fleet input queue (R177). Where no
well-formed frame of the kind is there, the command changes nothing (log 4). -/
def takeFleet {α : Type} (kind : Nat) (form : List Byte → Option α) (act : Nat → α → State → State) (s : State) :
    State :=
  match s.liu.fleetIn with
  | body :: _ =>
    if bodyKind body = kind then
      match form (bodyPayload body) with
      | some r => act (bodyTag body) r (popFleet s)
      | none => s
    else s
  | [] => s

/-- A report other than HELLO (R98, R177): from a fleet id that is not in the map or from an OFFLINE vehicle it is
dropped; from an ONLINE one it restarts the silence timer and then acts. -/
def fromVehicle {α : Type} (act : Nat → α → State → State) (fleetId : Nat) (r : α) (s : State) : State :=
  match slotOf s.vht fleetId with
  | some slot =>
    match tblGet s.vht.vehicles slot with
    | some v => if v.online then act slot r (restartSilence slot s) else s
    | none => s
  | none => s

/-- A report other than HELLO taken from the head of the fleet input queue. -/
def takeReport {α : Type} (kind : Nat) (form : List Byte → Option α) (act : Nat → α → State → State) (s : State) :
    State :=
  takeFleet kind form (fromVehicle act) s

/-! ## The LIU's rows -/

/-- HOST_FRAME_RECEIVED (R172, R174): bytes on the host line; each frame they complete is placed. -/
def execHostFrameReceived (bytes : List Byte) (s : State) : Host.Outcome State Fault Refusal :=
  .next { s with
    liu := { s.liu with
      hostRx := (rxReceive s.liu.hostRx bytes).2
      hostQueue := placeHosts (rxReceive s.liu.hostRx bytes).1 s.liu.hostQueue } }

/-- BUSY_MARK_REPLY (R174, R185): a mark at the head is answered BUSY. -/
def execBusyMarkReply (s : State) : Host.Outcome State Fault Refusal :=
  match hostHead s with
  | some (.mark tag) => .next (placeReply ⟨generalReply, tag, .busy, .none⟩ (popHost s))
  | _ => .next s

/-- BAD_KIND (R173, R185): a frame at the head whose kind is not a host request. -/
def execBadKind (s : State) : Host.Outcome State Fault Refusal :=
  match hostHead s with
  | some (.frame body) =>
    if hostRow (bodyKind body) = none then
      .next (placeReply ⟨generalReply, bodyTag body, .badKind, .none⟩ (popHost s))
    else .next s
  | _ => .next s

/-- REPLY_TRANSMIT (R175): the free transmitter begins to send the reply, and the slot empties. That the transmitter is
free, the frame before having ended, is what the command says (log 7). -/
def execReplyTransmit (s : State) : Host.Outcome State Fault Refusal :=
  match s.liu.replySlot with
  | some r => .next { s with liu := { s.liu with replySlot := none, hostTx := some (frameOf (replyBody r)) } }
  | none => .next s

/-- NOTICE_TRANSMIT (R175, R176): with no reply waiting, the free transmitter begins to send the oldest notice. After a
RESTART's reply no frame is sent before its effect (R181). -/
def execNoticeTransmit (s : State) : Host.Outcome State Fault Refusal :=
  if mayTake s then
    match s.liu.notices with
    | n :: rest => .next { s with liu := { s.liu with notices := rest, hostTx := some (frameOf (noticeBody n)) } }
    | [] => .next s
  else .next s

/-- FLEET_FRAME_RECEIVED (R172, R177): bytes on the fleet line; each frame they complete joins the fleet input queue,
where fewer than 32 wait. While GWRDY is low the receiver stays hunting and discards every byte. -/
def execFleetFrameReceived (bytes : List Byte) (s : State) : Host.Outcome State Fault Refusal :=
  if s.gwrdy then
    .next { s with
      liu := { s.liu with
        fleetRx := (rxReceive s.liu.fleetRx bytes).2
        fleetIn := s.liu.fleetIn ++ (rxReceive s.liu.fleetRx bytes).1.take (32 - s.liu.fleetIn.length) } }
  else .next s

/-- FLEET_FRAME_DROP (R177, case 1): a frame at the head that is no report, or is malformed for its kind. -/
def execFleetFrameDrop (s : State) : Host.Outcome State Fault Refusal :=
  match s.liu.fleetIn with
  | body :: _ =>
    if fleetRow (bodyKind body) (bodyPayload body) = none then .next (popFleet s) else .next s
  | [] => .next s

/-- FLEET_COMMAND_TRANSMIT (R177): the free fleet transmitter begins to send the oldest command. -/
def execFleetCommandTransmit (s : State) : Host.Outcome State Fault Refusal :=
  if s.gwrdy then
    match s.liu.fleetOut with
    | c :: rest => .next { s with liu := { s.liu with fleetOut := rest, fleetTx := some (frameOf (commandBody c)) } }
    | [] => .next s
  else .next s

end Sys2Proof.Machine
end

