-- ==== Sys2Proof/Machine/LayoutRows.lean ====
section
/-! DEFINITION. The layout load, the layout lock and port states (chapter 1). -/
namespace Sys2Proof.Machine

open Sys2Proof

/-- `v` lies in a range. -/
def inRange (lo hi v : Nat) : Bool := decide (lo ≤ v) && decide (v ≤ hi)

/-! ## Opening and abandoning a load (R5, R6, R12, R13) -/

/-- The layout table cleared, with these counts, for a load that expects LOOP_DEF (R6). The lock is not touched. -/
def openedLayout (l : Layout) (r : LayoutOpenReq) : Layout :=
  { l with
    opState := .loading, bayCount := r.bays, portCount := r.ports, expected := some .loopDef, loop := none, bays := [],
    ports := [] }

/-- The layout table of an UNLOADED engine: nothing held, LAYOUT_OPEN expected (R5, R10). The lock is not touched. -/
def unloadedLayout (l : Layout) : Layout :=
  { l with
    opState := .unloaded, bayCount := 0, portCount := 0, expected := some .layoutOpen, loop := none, bays := [],
    ports := [] }

/-- The counts' ranges (R6). -/
def countsFit (r : LayoutOpenReq) : Bool := inRange 1 32 r.bays && decide (r.ports ≤ 512)

/-- The sequencer after an accepted LAYOUT_OPEN in RUNNING (R13, R157). -/
def reopenedSurvey (i : Survey) : Survey :=
  { i with state := .idle, first := 0, last := 0, current := 0, pendingStart := false, timer := none }

/-- The blocks that depend on the layout emptied by an accepted LAYOUT_OPEN in RUNNING (R13, R89). -/
def emptiedForLoad (s : State) : State :=
  { s with
    ort := { s.ort with orders := [] }
    asa := { s.asa with examPending := false, rescan := none }
    vht := { s.vht with vehicles := [] }
    bac := { s.bac with bays := [] }
    shm := { shelves := [], reserves := [] }
    iss := reopenedSurvey s.iss }

/-- The record expected when a record is refused (R5). -/
def expectedRecord (l : Layout) : LayoutRecord := l.expected.getD .layoutOpen

/-- A load abandoned by a record out of order: ORDER_SEQ with the expected record (R5, R185). -/
def abandonLoad (s : State) : Answered :=
  ⟨{ s with lyt := unloadedLayout s.lyt }, .orderSeq, .expected (expectedRecord s.lyt)⟩

/-- A LAYOUT_OPEN by the operating state (R5, R6, R12). -/
def openLayout (r : LayoutOpenReq) (s : State) : Answered :=
  match s.lyt.opState with
  | .unloaded =>
    if countsFit r then accept { s with lyt := openedLayout s.lyt r } .none else refuse s .badField
  | .loading => abandonLoad s
  | .running =>
    if s.lyt.lock then refuse s .locked
    else if liveCount s.ort ≠ 0 then refuse s .wrongState
    else if countsFit r then accept { emptiedForLoad s with lyt := openedLayout s.lyt r } .none
    else refuse s .badField

/-! ## Records of a load (R5 to R9) -/

/-- A record of a load other than LAYOUT_OPEN (R5): ORDER_SEQ in UNLOADED, WRONG_STATE in RUNNING; in LOADING the
matching record is taken as its own rule states, and another abandons the load. -/
def takeRecord (rec : LayoutRecord) (store : State → Answered) (s : State) : Answered :=
  match s.lyt.opState with
  | .unloaded => ⟨s, .orderSeq, .expected (expectedRecord s.lyt)⟩
  | .running => refuse s .wrongState
  | .loading => if s.lyt.expected = some rec then store s else abandonLoad s

/-- What is expected after the last BAY_DEF (R5). -/
def afterBays (l : Layout) : LayoutRecord := if l.portCount = 0 then .layoutClose else .portDef 0

/-- A LOOP_DEF's record (R7). -/
def defLoop (r : LoopDefReq) (s : State) : Answered :=
  takeRecord .loopDef
    (fun s =>
      if inRange 64 65535 r.length && inRange 1 120 r.speed then
        accept { s with lyt := { s.lyt with loop := some ⟨r.length, r.speed⟩, expected := some (.bayDef 0) } } .none
      else refuse s .badField)
    s

/-- The ranges a BAY_DEF is checked for at the record (R8); the remaining fields have 16 bits. -/
def bayFits (r : BayDefReq) : Bool :=
  inRange 16 65535 r.length && inRange 1 60 r.speed && decide (r.rackCount ≤ 64) && decide (r.rackBase ≤ 1023) &&
    inRange 1 255 r.rackPitch && inRange 1 600 r.rackHandoff

/-- The bay record a BAY_DEF carries. -/
def bayRecord (r : BayDefReq) : BayRec :=
  ⟨r.length, r.speed, r.exit, r.entryJ, r.exitJ, r.park, r.rackCount, r.rackBase, r.rackFirst, r.rackPitch,
    r.rackHandoff⟩

/-- A BAY_DEF's record (R8). -/
def defBay (r : BayDefReq) (s : State) : Answered :=
  takeRecord (.bayDef r.bay)
    (fun s =>
      if bayFits r then
        accept
          { s with
            lyt := { s.lyt with
              bays := tblSet s.lyt.bays r.bay (bayRecord r)
              expected := some (if r.bay + 1 < s.lyt.bayCount then .bayDef (r.bay + 1) else afterBays s.lyt) } }
          .none
      else refuse s .badField)
    s

/-- A PORT_DEF's record (R9): stored open. -/
def defPort (r : PortDefReq) (s : State) : Answered :=
  takeRecord (.portDef r.port)
    (fun s =>
      match portKindOf r.kind with
      | some kind =>
        if decide (r.bay < s.lyt.bayCount) && inRange 1 600 r.handoff then
          accept
            { s with
              lyt := { s.lyt with
                ports := tblSet s.lyt.ports r.port ⟨r.bay, r.coord, r.handoff, kind, true⟩
                expected := some (if r.port + 1 < s.lyt.portCount then .portDef (r.port + 1) else .layoutClose) } }
            .none
        else refuse s .badField
      | none => refuse s .badField)
    s

/-! ## Validation (R10) -/

/-- The junction coordinates in list order, each with its bay (R10, check 2). -/
def junctions (bays : Tbl BayRec) : List (Nat × Nat) :=
  (bays.map (fun e => [(e.1, e.2.entryJ), (e.1, e.2.exitJ)])).flatten

/-- The bay of the first coordinate that equals an earlier one. -/
def firstRepeated : List Nat → List (Nat × Nat) → Option Nat
  | _, [] => none
  | seen, (b, c) :: rest => if seen.contains c then some b else firstRepeated (c :: seen) rest

/-- Whether a bay's pool range shares an index with another's; a rack of no shelves shares none (R10, check 7). -/
def racksOverlap (a b : BayRec) : Bool :=
  decide (1 ≤ a.rackCount) && decide (1 ≤ b.rackCount) && decide (a.rackBase < b.rackBase + b.rackCount) &&
    decide (b.rackBase < a.rackBase + a.rackCount)

/-- Whether a bay fails check 7, given the lower-numbered bays. -/
def rackMisfits (lower : List BayRec) (b : BayRec) : Bool :=
  decide (1 ≤ b.rackCount) && (decide (1024 < b.rackBase + b.rackCount) || lower.any (fun a => racksOverlap a b))

/-- The first bay that fails check 7. -/
def firstMisfit : List BayRec → Tbl BayRec → Option Nat
  | _, [] => none
  | lower, (k, b) :: rest => if rackMisfits lower b then some k else firstMisfit (b :: lower) rest

/-- The first bay for which a check fails. -/
def firstBay (bad : BayRec → Bool) (bays : Tbl BayRec) : Option Nat := (bays.find? (fun e => bad e.2)).map (fun e => e.1)

/-- Check 1: both junctions below L_I. -/
def badJunction (l : Layout) (b : BayRec) : Bool :=
  decide (loopLength l ≤ b.entryJ) || decide (loopLength l ≤ b.exitJ)

/-- Check 3: 1 ≤ X_b ≤ L_b − 1. -/
def badExit (b : BayRec) : Bool := decide (b.exit < 1) || decide (b.length ≤ b.exit)

/-- Check 4: the park point below L_b. -/
def badPark (b : BayRec) : Bool := decide (b.length ≤ b.park)

/-- Check 5: the coordinate below L_b of the port's bay. -/
def badPort (l : Layout) (p : PortRec) : Bool := decide (zoneLength l p.bay ≤ p.coord)

/-- Check 6: first_b + (N_b − 1) × pitch_b below L_b. -/
def badRack (b : BayRec) : Bool :=
  decide (1 ≤ b.rackCount) && decide (b.length ≤ b.rackFirst + (b.rackCount - 1) * b.rackPitch)

/-- The first check that fails, with its code and the bay or port it reports (R10). -/
def validate (l : Layout) : Option (Nat × Nat) :=
  match firstBay (badJunction l) l.bays with
  | some b => some (1, b)
  | none =>
  match firstRepeated [] (junctions l.bays) with
  | some b => some (2, b)
  | none =>
  match firstBay badExit l.bays with
  | some b => some (3, b)
  | none =>
  match firstBay badPark l.bays with
  | some b => some (4, b)
  | none =>
  match l.ports.find? (fun e => badPort l e.2) with
  | some e => some (5, e.1)
  | none =>
  match firstBay badRack l.bays with
  | some b => some (6, b)
  | none =>
  match firstMisfit [] l.bays with
  | some b => some (7, b)
  | none => none

/-! ## Entry to RUNNING (R11) -/

/-- A bay as it enters RUNNING (R11). -/
def freshBay : BayState :=
  { capacity := 8, soft := 6, quota := 1, isOpen := true, admitted := [], queue := [], yield := none }

/-- The layout as it enters RUNNING: every port open; the records are fixed (R2, R11). -/
def runningLayout (l : Layout) : Layout :=
  { l with opState := .running, expected := none, ports := l.ports.map (fun e => (e.1, { e.2 with isOpen := true })) }

/-- Each block as it enters RUNNING on the new layout (R11). -/
def enterRunning (s : State) : State :=
  { s with
    lyt := runningLayout s.lyt
    ort := { s.ort with orders := [], batches := [] }
    asa := { s.asa with rescan := none }
    vht := { s.vht with vehicles := [] }
    bac := { s.bac with bays := s.lyt.bays.map (fun e => (e.1, freshBay)) }
    shm := { shelves := [], reserves := s.lyt.bays.map (fun e => (e.1, ⟨0, 0, false⟩)) }
    iss := { s.iss with state := .idle } }

/-- A LAYOUT_CLOSE (R10, R11). -/
def closeLayout (_ : Unit) (s : State) : Answered :=
  takeRecord .layoutClose
    (fun s =>
      match validate s.lyt with
      | some (code, number) => ⟨{ s with lyt := unloadedLayout s.lyt }, .layoutInvalid, .invalid code number⟩
      | none => accept (enterRunning s) .none)
    s

/-! ## Lock and ports (R14, R17) -/

/-- LAYOUT_LOCK in RUNNING (R14). -/
def lockLayout (_ : Unit) (s : State) : Answered := accept { s with lyt := { s.lyt with lock := true } } .none

/-- PORT_STATE in RUNNING (R17). Opening a port that was closed is a change of a grant input (R70). -/
def setPort (r : PortStateReq) (s : State) : Answered :=
  match tblGet s.lyt.ports r.port, flagOf r.state with
  | some p, some isOpen =>
    accept
      (setExamIf (isOpen && !p.isOpen)
        { s with lyt := { s.lyt with ports := tblSet s.lyt.ports r.port { p with isOpen := isOpen } } })
      (.port r.port { p with isOpen := isOpen })
  | _, _ => refuse s .badField

/-! ## Rows -/

/-- LAYOUT_OPEN (R5, R6, R12, R13). -/
def execLayoutOpen (s : State) : Host.Outcome State Fault Refusal :=
  .next (takeRequest 0x01 decodeLayoutOpen openLayout s)

/-- LOOP_DEF (R5, R7). -/
def execLoopDef (s : State) : Host.Outcome State Fault Refusal := .next (takeRequest 0x02 decodeLoopDef defLoop s)

/-- BAY_DEF (R5, R8). -/
def execBayDef (s : State) : Host.Outcome State Fault Refusal := .next (takeRequest 0x03 decodeBayDef defBay s)

/-- PORT_DEF (R5, R9). -/
def execPortDef (s : State) : Host.Outcome State Fault Refusal := .next (takeRequest 0x04 decodePortDef defPort s)

/-- LAYOUT_CLOSE (R5, R10, R11). -/
def execLayoutClose (s : State) : Host.Outcome State Fault Refusal :=
  .next (takeRequest 0x05 decodeFiller closeLayout s)

/-- LAYOUT_LOCK (R14). -/
def execLayoutLock (s : State) : Host.Outcome State Fault Refusal :=
  .next (takeRequest 0x06 decodeFiller (whenRunning lockLayout) s)

/-- PORT_STATE (R17). -/
def execPortState (s : State) : Host.Outcome State Fault Refusal :=
  .next (takeRequest 0x12 decodePortState (whenRunning setPort) s)

end Sys2Proof.Machine
end

