-- ==== Sys2Proof/Machine/SurveyRows.lean ====
section
/-! DEFINITION. The idle survey sequencer (chapter 8): its requests, triggers, passes and bay steps. -/
namespace Sys2Proof.Machine

open Sys2Proof

/-! ## Passes and triggers (R149 to R152) -/

/-- A pass starts (R152, step 1). -/
def startPass (i : Survey) : Survey := { i with state := .surveying, current := i.first, moves := 0, short := [] }

/-- A firing of a trigger by the state (R151). -/
def fireTrigger (i : Survey) : Survey :=
  match i.state with
  | .idle => i
  | .armed => startPass i
  | .surveying => { i with pendingStart := true }

/-- Whether trigger B counts placements: it is on and the state is ARMED or SURVEYING (R150). -/
def countsPlacements (i : Survey) : Bool := i.bOn && decide (i.state ≠ .idle)

/-- A placement counted by trigger B (R150). -/
def countPlacement (i : Survey) : Survey :=
  if countsPlacements i then
    if 0 < i.skipLeft then { i with skipLeft := i.skipLeft - 1 }
    else if i.everyM ≤ i.stepCount + 1 then fireTrigger { i with stepCount := 0 }
    else { i with stepCount := i.stepCount + 1 }
  else i

/-- The B counter at its initial skip (R147, R148). -/
def resetCounter (i : Survey) : Survey := { i with skipLeft := i.skipN, stepCount := 0 }

/-- The survey timer started for its period where trigger A is on, stopped where it is off (R147, R148). -/
def surveyTimer (now : Nat) (i : Survey) : Option Timer := if i.aOn then some (startTimer now i.aPeriod) else none

/-- The sequencer's state as its replies give it (R146). -/
def surveyView (i : Survey) : SurveyView :=
  { mode := i.mode, first := i.first, last := i.last, aOn := i.aOn, aPeriod := i.aPeriod, bOn := i.bOn,
    skipN := i.skipN, everyM := i.everyM, state := i.state, current := i.current, pendingStart := i.pendingStart,
    skipLeft := i.skipLeft, stepCount := i.stepCount, expiry := i.timer.map (fun t => t.expiry) }

/-! ## Requests (R147, R148, R156) -/

/-- The range modes (R146). -/
def SurveyMode.range : SurveyMode → Bool
  | .rangeOnce => true
  | .rangeRepeat => true
  | .singleOnce => false
  | .singleRepeat => false

/-- The repeat modes (R146). -/
def SurveyMode.repeats : SurveyMode → Bool
  | .singleRepeat => true
  | .rangeRepeat => true
  | .singleOnce => false
  | .rangeOnce => false

/-- The ranges of R147, case 3. -/
def setupFits (l : Layout) (m : SurveyMode) (r : SurveySetupReq) : Bool :=
  decide (r.first < l.bayCount) && (!m.range || (decide (r.last < l.bayCount) && decide (r.first ≤ r.last))) &&
    decide (r.period ≠ 0) && decide (r.skipN ≤ 15) && inRange 1 16 r.everyM

/-- The sequencer with the settings of an accepted SURVEY_SETUP (R147); in a single mode last is stored as first. -/
def setUp (m : SurveyMode) (a b : Bool) (r : SurveySetupReq) (i : Survey) : Survey :=
  { i with
    mode := m, first := r.first, last := if m.range then r.last else r.first, aOn := a, aPeriod := r.period, bOn := b,
    skipN := r.skipN, everyM := r.everyM, skipLeft := r.skipN, stepCount := 0, current := r.first }

/-- The survey timer after a SURVEY_SETUP: in ARMED it restarts or stops (R147). -/
def retimeSurvey (now : Nat) (i : Survey) : Survey :=
  if i.state = .armed then { i with timer := surveyTimer now i } else i

/-- An accepted SURVEY_SETUP's sequencer, the answer carrying its state. -/
def surveyAnswer (i : Survey) (s : State) : Answered := accept { s with iss := i } (.survey (surveyView i))

/-- SURVEY_SETUP in RUNNING (R147). -/
def setupSurvey (r : SurveySetupReq) (s : State) : Answered :=
  if s.iss.state = .surveying then refuse s .wrongState
  else
    match surveyModeOf r.mode, flagOf r.aEnable, flagOf r.bEnable with
    | some m, some a, some b =>
      if setupFits s.lyt m r then surveyAnswer (retimeSurvey s.now (setUp m a b r s.iss)) s else refuse s .badField
    | _, _, _ => refuse s .badField

/-- SURVEY_START in RUNNING (R148). -/
def startSurvey (_ : Unit) (s : State) : Answered :=
  match s.iss.state with
  | .idle => surveyAnswer (startPass { resetCounter s.iss with timer := surveyTimer s.now s.iss }) s
  | .armed => surveyAnswer (startPass s.iss) s
  | .surveying => refuse s .wrongState

/-- The sequencer disarmed (R156). -/
def stopped (i : Survey) : Survey :=
  { i with state := .idle, current := i.first, pendingStart := false, timer := none }

/-- SURVEY_STOP in RUNNING (R156). -/
def stopSurvey (_ : Unit) (s : State) : Answered :=
  match s.iss.state with
  | .idle => surveyAnswer s.iss s
  | .armed => surveyAnswer (stopped s.iss) s
  | .surveying => surveyAnswer (stopped s.iss) s

/-! ## Bay steps (R153, R154) -/

/-- Whether a vehicle counts toward the idle supply of bay `b` (R153). -/
def supplies (b : Nat) (v : Vehicle) : Bool :=
  v.inService && v.bothEmpty &&
    ((decide (v.activity = .idle) && decide (v.position.zone = b)) ||
      (decide (v.activity = .repositioning) && decide (v.target = some b)))

/-- The idle supply of a bay (R153). -/
def supply (t : VehicleTable) (b : Nat) : Nat := tblCount (supplies b) t.vehicles

/-- A bay's park quota (R115). -/
def quotaOf (a : Admission) (b : Nat) : Nat :=
  match tblGet a.bays b with
  | some y => y.quota
  | none => 0

/-- Whether a vehicle is a donor for bay `b` (R154, step 3). -/
def donates (t : VehicleTable) (a : Admission) (b : Nat) (v : Vehicle) : Bool :=
  v.movable &&
    (decide (v.position.zone = 255) ||
      (decide (v.position.zone ≠ b) && decide (quotaOf a v.position.zone < supply t v.position.zone)))

/-- A vehicle's travel time to a bay's park point. -/
def travelToPark (l : Layout) (b : Nat) (v : Vehicle) : Nat :=
  travel l v.position.zone v.position.coord b (parkPoint l b)

/-- The ranking of idle vehicles that may be sent: DORMANT before PARKED before READY, then the lesser of `far`
(R126, R154). The lower slot comes first between equals. -/
def sentBefore (far : Vehicle → Nat) (x y : Nat × Vehicle) : Bool :=
  decide (y.2.idleLevel.rank < x.2.idleLevel.rank) ||
    (decide (y.2.idleLevel.rank = x.2.idleLevel.rank) && decide (far x.2 < far y.2))

/-- The donor chosen for bay `b` (R154, step 4). -/
def donorFor (s : State) (b : Nat) : Option (Nat × Vehicle) :=
  bestBy (sentBefore (travelToPark s.lyt b)) (s.vht.vehicles.filter (fun e => donates s.vht s.bac b e.2))

/-- The pass tally with a move. -/
def tallyMove (s : State) : State := { s with iss := { s.iss with moves := s.iss.moves + 1 } }

/-- The pass tally with bay `b` listed short where its supply is below its quota (R154, step 6). -/
def tallyShort (b : Nat) (s : State) : State :=
  if supply s.vht b < quotaOf s.bac b then { s with iss := { s.iss with short := s.iss.short ++ [b] } } else s

/-- The bay step for bay `b` (R154). -/
def bayStep (b : Nat) (s : State) : State :=
  if bayOpen s.bac b && decide (supply s.vht b < quotaOf s.bac b) then
    match donorFor s b with
    | some (slot, _) => tallyShort b (tallyMove (sendMoveTo slot b s))
    | none => tallyShort b s
  else s

/-- The sequencer after a pass has ended (R155, steps 2 and 3). -/
def afterPass (i : Survey) : Survey :=
  if i.mode.repeats then
    if i.pendingStart then startPass { i with pendingStart := false }
    else { i with state := .armed, current := i.first }
  else stopped i

/-- The end of a pass (R155). -/
def endPass (s : State) : State :=
  { queueNotice (.surveyDone s.iss.mode s.iss.first s.iss.last s.now s.iss.moves s.iss.short) s with
    iss := afterPass s.iss }

/-- The advance after a bay step (R152, step 3). -/
def advancePass (s : State) : State :=
  if s.iss.current < s.iss.last then { s with iss := { s.iss with current := s.iss.current + 1 } } else endPass s

/-! ## Rows -/

/-- SURVEY_SETUP (R147). -/
def execSurveySetup (s : State) : Host.Outcome State Fault Refusal :=
  .next (takeRequest 0x3A decodeSurveySetup (whenRunning setupSurvey) s)

/-- SURVEY_START (R148). -/
def execSurveyStart (s : State) : Host.Outcome State Fault Refusal :=
  .next (takeRequest 0x3B decodeFiller (whenRunning startSurvey) s)

/-- SURVEY_STOP (R156). -/
def execSurveyStop (s : State) : Host.Outcome State Fault Refusal :=
  .next (takeRequest 0x3C decodeFiller (whenRunning stopSurvey) s)

/-- SURVEY_TIMER_EXPIRY (R149): trigger A fires, and the timer restarts for its period. -/
def execSurveyTimerExpiry (s : State) : Host.Outcome State Fault Refusal :=
  if timerDue s.iss.timer s.now then
    .next { s with iss := { fireTrigger s.iss with timer := some (startTimer s.now s.iss.aPeriod) } }
  else .next s

/-- SURVEY_BAY_STEP (R152, R154, R155), while the state is SURVEYING. -/
def execSurveyBayStep (s : State) : Host.Outcome State Fault Refusal :=
  if s.iss.state = .surveying then .next (advancePass (bayStep s.iss.current s)) else .next s

end Sys2Proof.Machine
end

