-- ==== Sys2Proof/Machine/AdmissionRows.lean ====
section
/-! DEFINITION. Bay admission (chapter 6): BAY_TUNE, entry and exit, the places of reporting and enrolling vehicles,
lapses, evictions and entry starvation. -/
namespace Sys2Proof.Machine

open Sys2Proof

/-! ## BAY_TUNE (R116, R117) -/

/-- The checks of R116 on the carried values. -/
def tuneFits (r : BayTuneReq) : Bool :=
  (match r.capacity with
    | some c => inRange 1 32 c
    | none => true) &&
  decide (r.soft ≠ some 0) &&
  (match r.openFlag with
    | some f => (flagOf f).isSome
    | none => true)

/-- The open flag after a BAY_TUNE. -/
def tunedOpen (r : BayTuneReq) (y : BayState) : Bool :=
  match r.openFlag with
  | some f => (flagOf f).getD y.isOpen
  | none => y.isOpen

/-- The bay with the values of an accepted BAY_TUNE, stored in R116's sequence. -/
def tuned (r : BayTuneReq) (y : BayState) : BayState :=
  { y with
    capacity := r.capacity.getD y.capacity
    soft := min (r.soft.getD y.soft) (r.capacity.getD y.capacity)
    quota := min (r.quota.getD y.quota) (r.capacity.getD y.capacity)
    isOpen := tunedOpen r y }

/-- How the bay acts on the change (R117): it grants after a raised capacity or an opening; an opening and a changed
soft limit set the examination-pending flag. -/
def tuneActs (b : Nat) (old new : BayState) (s : State) : State :=
  setExamIf ((!old.isOpen && new.isOpen) || decide (old.soft ≠ new.soft))
    (if old.capacity < new.capacity ∨ (old.isOpen = false ∧ new.isOpen = true) then grantQueue b s else s)

/-- The bay's state as the BAY_TUNE reply carries it (R116). That the admitted set is listed in the order in which its
entries joined is the model's choice (DESIGN CHOICE; log 39). -/
def bayView (s : State) (b : Nat) : ReplyPayload :=
  match tblGet s.bac.bays b with
  | some y =>
    .bay y.capacity y.soft y.quota y.isOpen
      (y.admitted.map (fun e => ((fleetIdAt s.vht e.slot).getD 0, e.inside, e.entryTime)))
      (y.queue.map (fun w => ((fleetIdAt s.vht w.slot).getD 0, w.hot, w.askedAt)))
  | none => .none

/-- The state after an accepted BAY_TUNE (R116, R117). -/
def tuneBay (r : BayTuneReq) (y : BayState) (s : State) : State :=
  tuneActs r.bay y (tuned r y) (updBay r.bay (tuned r) s)

/-- BAY_TUNE in RUNNING (R116). -/
def bayTune (r : BayTuneReq) (s : State) : Answered :=
  match tblGet s.bac.bays r.bay with
  | some y =>
    if s.lyt.bayCount ≤ r.bay ∨ tuneFits r = false then refuse s .badField
    else accept (tuneBay r y s) (bayView (tuneBay r y s) r.bay)
  | none => refuse s .badField

/-! ## ENTRY_ASK (R119, R120) -/

/-- Whether a vehicle's ACTIVE layer holds an order of class HOT (R120). -/
def carriesHot (s : State) (slot : Nat) : Bool :=
  match tblGet s.vht.vehicles slot with
  | some v =>
    match activeOrder s.ort v with
    | some (_, o) => decide (o.cls = .hot)
    | none => false
  | none => false

/-- The entries behind the last hot-flagged one. -/
def behindHot (q : List Waiting) : List Waiting := (q.reverse.takeWhile (fun w => !w.hot)).reverse

/-- A queue that an entry joins (R120): hot-flagged, directly after the last hot-flagged entry; otherwise at the
tail. -/
def joined (w : Waiting) (q : List Waiting) : List Waiting :=
  if w.hot then q.take (q.length - (behindHot q).length) ++ w :: behindHot q else q ++ [w]

/-- A vehicle joins bay `b`'s queue (R120). -/
def joinQueue (b slot : Nat) (s : State) : State :=
  updBay b
    (fun y => { y with
      queue := joined ⟨slot, carriesHot s slot, s.now, false, some (startTimer s.now s.bac.tEntry)⟩ y.queue })
    s

/-- The implied exit (R119, step 1): an entry leaves the admitted set of each of these bays, and each bay but `b` grants
from its queue. -/
def impliedExit : List Nat → Nat → Nat → State → State
  | [], _, _, s => s
  | a :: rest, b, slot, s =>
    impliedExit rest b slot (if a = b then leaveBay a slot s else grantQueue a (leaveBay a slot s))

/-- The decision of R119, step 3. -/
def decideEntry (b slot : Nat) (s : State) : State :=
  match tblGet s.bac.bays b with
  | some y => if y.hasRoom && y.queue.isEmpty then grantEntry b slot s else joinQueue b slot s
  | none => s

/-- ENTRY_ASK from an ONLINE vehicle (R119). -/
def askEntry (slot b : Nat) (s : State) : State :=
  if s.lyt.bayCount ≤ b then issueTo slot (.entryVoid b .badBay) s
  else if (waitingIn s.bac b slot).isSome then s
  else
    (if (admittedBays s.bac slot).contains b then grantQueue b else id)
      (decideEntry b slot
        (leaveQueues (waitingBays s.bac slot) slot (impliedExit (admittedBays s.bac slot) b slot s)))

/-! ## Positions (R121, R124) -/

/-- A vehicle's GRANTED entry in bay `b` becomes INSIDE, keeping its entry time; its lapse timer stops (R121). -/
def confirmInside (b slot : Nat) (s : State) : State :=
  updBay b
    (fun y => { y with
      admitted := y.admitted.map (fun e => if e.slot = slot then { e with inside := true, lapse := none } else e) })
    s

/-- An intrusion into bay `b` (R121). -/
def intrude (b slot : Nat) (s : State) : State :=
  raiseVehicle .intrusion slot none none none
    (enterInside b slot
      (leaveQueues (waitingBays s.bac slot) slot (leaveBaysGranting (admittedBays s.bac slot) slot s)))

/-- A forwarded POS (R121). -/
def admitPos (zone slot : Nat) (s : State) : State :=
  if zone = 255 then s
  else
    match entryIn s.bac zone slot with
    | some e => if e.inside then s else confirmInside zone slot s
    | none => intrude zone slot s

/-- Whether a vehicle holds an INSIDE entry in bay `b`. -/
def isInside (a : Admission) (b slot : Nat) : Bool :=
  match entryIn a b slot with
  | some e => e.inside
  | none => false

/-- A vehicle placed as it enrolls or re-enrolls (R124). -/
def admitEnrolled (zone slot : Nat) (s : State) : State :=
  if zone = 255 then leaveBaysGranting (admittedBays s.bac slot) slot s
  else if isInside s.bac zone slot then s
  else enterInside zone slot (leaveBaysGranting (admittedBays s.bac slot) slot s)

/-! ## EXIT (R123) -/

/-- EXIT from an ONLINE vehicle (R123). -/
def exitBay (slot b : Nat) (s : State) : State :=
  match entryIn s.bac b slot with
  | some _ => grantQueue b (leaveBay b slot s)
  | none => raiseVehicle .phantomExit slot none none (some b) s

/-! ## Lapse (R122) -/

/-- A grant lapses (R122). -/
def lapseGrant (b slot : Nat) (s : State) : State :=
  grantQueue b (issueTo slot (.entryVoid b .lapsed) (leaveBay b slot s))

/-- Whether the lapse timer of a vehicle's entry in bay `b` is due. -/
def lapseDue (s : State) (b slot : Nat) : Bool :=
  match entryIn s.bac b slot with
  | some e => !e.inside && timerDue e.lapse s.now
  | none => false

/-! ## Eviction (R125, R126) -/

/-- The vehicles with an INSIDE entry in a bay that may be evicted (R126), in slot order. -/
def evictable (s : State) (b : Nat) : Tbl Vehicle :=
  s.vht.vehicles.filter (fun e => isInside s.bac b e.1 && e.2.movable)

/-- The bays that may be a target of an eviction from bay `b` (R126). -/
def evictionTargets (s : State) (b : Nat) : List Nat :=
  (s.bac.bays.filter (fun e => e.1 != b && e.2.hasRoom)).map (fun e => e.1)

/-- An eviction from bay `b`: the deepest-resting vehicle inside it is sent to the first bay downstream that has room
(R126). -/
def evict (b : Nat) (s : State) : State :=
  match bestBy (sentBefore (fun _ => 0)) (evictable s b),
    bestBy
      (fun x y =>
        decide (downstream s.lyt (exitJunction s.lyt b) x < downstream s.lyt (exitJunction s.lyt b) y))
      (evictionTargets s b) with
  | some (slot, _), some c => sendMoveTo slot c s
  | _, _ => s

/-- A bay's yield timer restarted for T_yield (R125). -/
def restartYield (b : Nat) (s : State) : State :=
  match tblGet s.bac.bays b with
  | some y =>
    { s with bac := { s.bac with bays := tblSet s.bac.bays b { y with yield := some (startTimer s.now s.bac.tYield) } } }
  | none => s

/-- Whether a bay's yield timer is due. -/
def yieldDue (s : State) (b : Nat) : Bool :=
  match tblGet s.bac.bays b with
  | some y => timerDue y.yield s.now
  | none => false

/-! ## Entry starvation (R127) -/

/-- A starved entry removed: ENTRY_VOID with cause STARVED (R127). -/
def voidStarved (b slot : Nat) (s : State) : State := issueTo slot (.entryVoid b .starved) (leaveQueue b slot s)

/-- What a starved entry meets, by its vehicle's state (R127). -/
def starvedCase (b slot : Nat) (s : State) : State :=
  match tblGet s.vht.vehicles slot with
  | some v =>
    match activeOrder s.ort v with
    | some (h, o) => if o.state = .toSource then requeueAbort slot h (voidStarved b slot s) else s
    | none => if v.activity = .repositioning then endReposition slot (voidStarved b slot s) else s
  | none => s

/-- The handle of the ACTIVE order of the vehicle in a slot (R167). -/
def activeHandleAt (s : State) (slot : Nat) : Option Nat :=
  match tblGet s.vht.vehicles slot with
  | some v => v.activeHandle
  | none => none

/-- A queue entry's starved flag is set; its timer is not restarted (R127). -/
def markStarved (b slot : Nat) (s : State) : State :=
  updBay b
    (fun y => { y with
      queue := y.queue.map (fun w => if w.slot = slot then { w with starved := true, starve := none } else w) })
    s

/-- The expiry of a queue entry's starvation timer (R127). -/
def starveEntry (b slot : Nat) (s : State) : State :=
  starvedCase b slot (raiseVehicle .entryStarved slot (activeHandleAt s slot) none (some b) (markStarved b slot s))

/-- Whether the starvation timer of a vehicle's entry in bay `b`'s queue is due. -/
def starveDue (s : State) (b slot : Nat) : Bool :=
  match waitingIn s.bac b slot with
  | some w => timerDue w.starve s.now
  | none => false

/-- The bays in whose queue a vehicle has a starved entry. -/
def starvedBays (a : Admission) (slot : Nat) : List Nat :=
  (waitingBays a slot).filter
    (fun b =>
      match waitingIn a b slot with
      | some w => w.starved
      | none => false)

/-- The kept starved entries of a vehicle whose TAKEN has been taken: removed as R127's first case states. -/
def starvedAtTaken : List Nat → Nat → Nat → State → State
  | [], _, _, s => s
  | b :: rest, slot, h, s => starvedAtTaken rest slot h (requeueAbort slot h (voidStarved b slot s))

/-! ## Rows -/

/-- BAY_TUNE (R116, R117). -/
def execBayTune (s : State) : Host.Outcome State Fault Refusal :=
  .next (takeRequest 0x10 decodeBayTune (whenRunning bayTune) s)

/-- ENTRY_ASK (R119). -/
def execEntryAsk (s : State) : Host.Outcome State Fault Refusal := .next (takeReport 0x5C decodeU8 askEntry s)

/-- EXIT (R123). -/
def execExit (s : State) : Host.Outcome State Fault Refusal := .next (takeReport 0x5D decodeU8 exitBay s)

/-- LAPSE_TIMER_EXPIRY (R122). -/
def execLapseTimerExpiry (bay slot : Nat) (s : State) : Host.Outcome State Fault Refusal :=
  if lapseDue s bay slot then .next (lapseGrant bay slot s) else .next s

/-- YIELD_TIMER_EXPIRY (R125, R126): one eviction is attempted, and the timer restarts. -/
def execYieldTimerExpiry (bay : Nat) (s : State) : Host.Outcome State Fault Refusal :=
  if yieldDue s bay then .next (restartYield bay (evict bay s)) else .next s

/-- STARVATION_TIMER_EXPIRY (R127). -/
def execStarvationTimerExpiry (bay slot : Nat) (s : State) : Host.Outcome State Fault Refusal :=
  if starveDue s bay slot then .next (starveEntry bay slot s) else .next s

end Sys2Proof.Machine
end

