-- ==== Sys2Proof/Machine/ArbiterRows.lean ====
section
/-! DEFINITION. The assignment arbiter (chapter 4) and the reach cost (sections 2.3 and 2.4): the grant step and the
rescan timer. -/
namespace Sys2Proof.Machine

open Sys2Proof

/-! ## Reach cost (R25 to R28) -/

/-- Whether a vehicle's ACTIVE order is CARRYING or PLACING (R30, condition 2). -/
def delivers (t : OrderTable) (v : Vehicle) : Bool :=
  match activeOrder t v with
  | some (_, o) => decide (o.state = .carrying) || decide (o.state = .placing)
  | none => false

/-- The free point of a vehicle (R25): the destination point of its active order, or else its last reported position. -/
def freePoint (s : State) (v : Vehicle) : Nat × Nat :=
  match activeOrder s.ort v with
  | some (_, o) =>
    match stopOf? s.lyt o.dest with
    | some p => (p.zone, p.coord)
    | none => (v.position.zone, v.position.coord)
  | none => (v.position.zone, v.position.coord)

/-- The base of a vehicle (R25). -/
def reachBase (s : State) (v : Vehicle) : Nat :=
  match activeOrder s.ort v with
  | some (_, o) => min 65535 (o.etaDone.getD 0 - s.now)
  | none => 0

/-- The wake penalty (R26). -/
def wakePenalty (a : Arbiter) (v : Vehicle) : Nat :=
  match v.activity, v.idleLevel with
  | .idle, .ready => 0
  | .idle, .parked => a.wPark
  | .idle, .dormant => a.wDorm
  | .repositioning, _ => 0
  | .working, _ => 0

/-- A bay's soft limit (R115). -/
def softLimit (a : Admission) (b : Nat) : Nat :=
  match tblGet a.bays b with
  | some y => y.soft
  | none => 0

/-- The congestion penalty of a free point in zone `z` for target bay `b` (R27). -/
def congestion (s : State) (z b : Nat) : Nat :=
  if z = b then 0 else s.asa.wC * (heldPlaces s.bac b + 1 - softLimit s.bac b)

/-- The reach cost of a vehicle for a source (R28). -/
def reachCost (s : State) (v : Vehicle) (src : Stop) : Nat :=
  min 65535
    (reachBase s v + wakePenalty s.asa v + travel s.lyt (freePoint s v).1 (freePoint s v).2 src.zone src.coord +
      congestion s (freePoint s v).1 src.zone)

/-! ## Candidates (R30, R75, R80) -/

/-- Condition 2 of R30: the vehicle has a layer it may fill. -/
def fillable (s : State) (v : Vehicle) : Bool :=
  (v.bothEmpty && (decide (v.activity = .idle) || decide (v.activity = .repositioning))) ||
    (decide (s.asa.chainDepth = 2) && delivers s.ort v && v.stagedLayer.isNone)

/-- Condition 3 of R30: the vehicle satisfies the order's targeting. -/
def targeted (o : Order) (v : Vehicle) : Bool :=
  match o.targeting with
  | .direct f => decide (v.fleetId = f)
  | .nearest m => decide (v.groupMask &&& m ≠ 0#8)

/-- Conditions 1 to 3 of R30. -/
def screened (s : State) (o : Order) (v : Vehicle) : Bool := v.inService && fillable s v && targeted o v

/-- A vehicle with its STAGED layer treated as EMPTY (R80): with no ACTIVE layer it counts as IDLE, or stays
REPOSITIONING. -/
def unstaged (v : Vehicle) : Vehicle :=
  match v.stagedLayer, v.activeLayer, v.activity with
  | some (_, i), none, .repositioning => v.withLayer i .empty
  | some (_, i), none, _ => { v.withLayer i .empty with activity := .idle }
  | some (_, i), some _, _ => v.withLayer i .empty
  | none, _, _ => v

/-- The non-HOT order in a vehicle's STAGED layer (R80). -/
def displaceable (t : OrderTable) (v : Vehicle) : Option (Nat × LayerId) :=
  match v.stagedLayer with
  | some (h, i) =>
    match tblGet t.orders h with
    | some o => if o.cls = .hot then none else some (h, i)
    | none => none
  | none => none

/-- A candidate of an order: the vehicle as it is costed, and the layer it would be displaced from (R75). -/
structure Candidate where
  slot : Nat
  vehicle : Vehicle
  displaces : Option LayerId
deriving DecidableEq, Repr

/-- The candidate a vehicle is for an order, ordinary or of displacement (R75, R80). -/
def candidateOf (s : State) (o : Order) (slot : Nat) (v : Vehicle) : Option Candidate :=
  if screened s o v then some ⟨slot, v, none⟩
  else if o.cls = .hot then
    match displaceable s.ort v with
    | some (_, i) => if screened s o (unstaged v) then some ⟨slot, unstaged v, some i⟩ else none
    | none => none
  else none

/-- The candidates of an order, in slot order (R75). -/
def candidates (s : State) (o : Order) : List Candidate :=
  s.vht.vehicles.filterMap (fun e => candidateOf s o e.1 e.2)

/-! ## The first stage (R74) -/

/-- The bays of the endpoints that are set; a STORE's target bay while no destination is set (R74). -/
def orderBays (l : Layout) (o : Order) : List Nat :=
  (match stopOf? l o.source with
    | some p => [p.zone]
    | none => []) ++
  (match stopOf? l o.dest, o.dest, o.targetBay with
    | some p, _, _ => [p.zone]
    | none, none, some b => [b]
    | none, _, _ => [])

/-- The ports of the endpoints that are set (R74). -/
def endpointPort : Option Endpoint → List Nat
  | some (.port p) => [p]
  | some (.shelf _) => []
  | none => []

/-- A port's open flag (R15). -/
def portOpen (l : Layout) (p : Nat) : Bool :=
  match tblGet l.ports p with
  | some r => r.isOpen
  | none => false

/-- The first stage: BAY_CLOSED, PORT_CLOSED, or passed (R74). -/
def endpointsFail (s : State) (o : Order) : Option WaitReason :=
  if (orderBays s.lyt o).all (bayOpen s.bac) then
    if (endpointPort o.source ++ endpointPort o.dest).all (portOpen s.lyt) then none else some .portClosed
  else some .bayClosed

/-! ## Shelf resolution (R76, R138 to R140) -/

/-- The first shelf of a bay's region that satisfies `p`, by lowest local index. -/
def shelfIn (s : State) (b : Nat) (g : Region) (p : Shelf → Bool) : Option Nat :=
  match tblGet s.lyt.bays b with
  | some bay => (regionShelves bay (reserveOf s.shm b) g).find? (fun k => p (shelfAt s.shm k))
  | none => none

/-- A FREE shelf. -/
def Shelf.isFree (sh : Shelf) : Bool := decide (sh.state = .free)

/-- A HELD shelf with its empty flag set. -/
def Shelf.holdsEmpty (sh : Shelf) : Bool := decide (sh.state = .held) && sh.emptyFlag

/-- The search for a STORE (R138). -/
def storeShelf (s : State) (b : Nat) (hot : Bool) : Option Nat :=
  match shelfIn s b .general Shelf.isFree with
  | some k => some k
  | none => if hot then shelfIn s b .hotReserve Shelf.isFree else none

/-- Bay `b` and then the other bays in increasing `dist`, closed bays passed over (R139, R140). -/
def searchOrder (s : State) (b : Nat) (dist : Nat → Nat) : List Nat :=
  (b :: sortBy (fun x y => decide (dist x < dist y)) ((s.lyt.bays.map (fun e => e.1)).filter (fun c => c != b))).filter
    (bayOpen s.bac)

/-- The search for a RETURN_EMPTY from source bay `b` (R139). -/
def returnShelf (s : State) (b : Nat) : Option Nat :=
  (searchOrder s b (fun c => downstream s.lyt (exitJunction s.lyt b) c)).findSome?
    (fun c => shelfIn s c .emptyReserve Shelf.isFree)

/-- The search for a SUPPLY_EMPTY to destination bay `d` (R140). -/
def supplyShelf (s : State) (d : Nat) : Option Nat :=
  (searchOrder s d (fun c => downstream s.lyt (exitJunction s.lyt c) d)).findSome?
    (fun c =>
      match shelfIn s c .emptyReserve Shelf.holdsEmpty with
      | some k => some k
      | none => shelfIn s c .general Shelf.holdsEmpty)

/-- What the third stage finds for an order: nothing needed, a shelf, or the reason it fails (R76). -/
inductive ShelfFind where
  | notNeeded
  | found (k : Nat)
  | missing (r : WaitReason)
deriving DecidableEq, Repr

/-- A search's result. -/
def findOr (r : WaitReason) : Option Nat → ShelfFind
  | some k => .found k
  | none => .missing r

/-- The bay of a stop. -/
def bayOfStop (e : Option Stop) : Nat :=
  match e with
  | some p => p.zone
  | none => 0

/-- The third stage (R76). -/
def resolveShelf (s : State) (o : Order) : ShelfFind :=
  match o.kind, o.dest with
  | .store, none => findOr .noShelf (storeShelf s (o.targetBay.getD 0) (decide (o.cls = .hot)))
  | .returnEmpty, none => findOr .noShelf (returnShelf s (bayOfStop (stopOf? s.lyt o.source)))
  | .supplyEmpty, d => findOr .noEmpty (supplyShelf s (bayOfStop (stopOf? s.lyt d)))
  | .store, some _ => .notNeeded
  | .returnEmpty, some _ => .notNeeded
  | .move, _ => .notNeeded
  | .retrieve, _ => .notNeeded

/-- The order's source with the shelf found (R83). -/
def grantedSource (o : Order) : ShelfFind → Option Endpoint
  | .found k => if o.kind = .supplyEmpty then some (.shelf k) else o.source
  | .notNeeded => o.source
  | .missing _ => o.source

/-- The order's destination with the shelf found (R83). -/
def grantedDest (o : Order) : ShelfFind → Option Endpoint
  | .found k => if o.kind = .supplyEmpty then o.dest else some (.shelf k)
  | .notNeeded => o.dest
  | .missing _ => o.dest

/-! ## Evaluation (R73 to R78) -/

/-- What is handed to staging (R78). -/
structure Grant where
  cand : Candidate
  cost : Nat
  shelf : ShelfFind
deriving DecidableEq, Repr

/-- What the evaluation of an order finds. -/
inductive Evaluation where
  | waits (r : WaitReason)
  | servable (g : Grant)
deriving DecidableEq, Repr

/-- A candidate's cost against a source (R77). -/
def costOf (s : State) (src : Option Endpoint) (c : Candidate) : Nat :=
  match stopOf? s.lyt src with
  | some p => reachCost s c.vehicle p
  | none => 65535

/-- Whether a cost is within the reach limit (R77). -/
def withinReach (o : Order) (c : Nat) : Bool :=
  match o.reachLimit with
  | some r => decide (c ≤ r)
  | none => true

/-- The fourth stage: of the candidates within the reach limit the one of lowest cost, the lower slot between equals
(R77, R78). -/
def chooseVehicle (s : State) (o : Order) (shelf : ShelfFind) (cs : List Candidate) : Evaluation :=
  match
    bestBy (fun a b => decide (costOf s (grantedSource o shelf) a < costOf s (grantedSource o shelf) b))
      (cs.filter (fun c => withinReach o (costOf s (grantedSource o shelf) c))) with
  | some c => .servable ⟨c, costOf s (grantedSource o shelf) c, shelf⟩
  | none => .waits .reachLimit

/-- The four stages of one order (R74 to R78). -/
def evaluate (s : State) (o : Order) : Evaluation :=
  match endpointsFail s o with
  | some r => .waits r
  | none =>
    if (candidates s o).isEmpty then .waits .noVehicle
    else
      match resolveShelf s o with
      | .missing r => .waits r
      | .notNeeded => chooseVehicle s o .notNeeded (candidates s o)
      | .found k => chooseVehicle s o (.found k) (candidates s o)

/-- The QUEUED orders in rank order (R73). -/
def rankedOrders (s : State) : Tbl Order :=
  sortBy
    (fun a b =>
      decide (priority s.ort.weights b.2 s.now < priority s.ort.weights a.2 s.now) ||
        (decide (priority s.ort.weights a.2 s.now = priority s.ort.weights b.2 s.now) && decide (a.2.seq < b.2.seq)))
    (s.ort.orders.filter (fun e => decide (e.2.state = .queued)))

/-- The walk down the ranked orders: the wait reasons of the orders passed over, and the first servable order (R73). -/
def walk (s : State) : Tbl Order → List (Nat × WaitReason) × Option (Nat × Order × Grant)
  | [] => ([], none)
  | (h, o) :: rest =>
    match evaluate s o with
    | .servable g => ([], some (h, o, g))
    | .waits r => ((h, r) :: (walk s rest).1, (walk s rest).2)

/-- The wait reasons a step finds, set in their orders (R79). -/
def setWaits : List (Nat × WaitReason) → State → State
  | [], s => s
  | (h, r) :: rest, s => setWaits rest (updOrder h (fun o => { o with waitReason := some r }) s)

/-! ## Staging (R82 to R85) -/

/-- The layer a granted order is written into (R82). -/
def grantLayer (c : Candidate) : LayerId :=
  match c.displaces with
  | some i => i
  | none =>
    match c.vehicle.activeLayer with
    | some (_, i) => i.other
    | none =>
      match c.vehicle.lastTaken with
      | some i => i.other
      | none => .l0

/-- The shelf found is claimed (R83). -/
def claimFound (h : Nat) (o : Order) (f : ShelfFind) (s : State) : State :=
  match f with
  | .found k =>
    if o.kind = .supplyEmpty then setShelf k { shelfAt s.shm k with state := .outbound, claim := some h } s
    else setShelf k ⟨.inbound, none, false, some h⟩ s
  | .notNeeded => s
  | .missing _ => s

/-- eta done of a grant (R35). -/
def grantEta (s : State) (pick : Nat) (src dst : Option Stop) : Nat :=
  satTime (pick + handoffOf src + travelBetween s.lyt src dst + handoffOf dst)

/-- A granted order's record (R83). -/
def stagedRecord (s : State) (g : Grant) (o : Order) : Order :=
  { o with
    source := grantedSource o g.shelf
    dest := grantedDest o g.shelf
    loc := some (g.cand.slot, grantLayer g.cand)
    etaPick := some (satTime (s.now + g.cost))
    etaDone :=
      some
        (grantEta s (satTime (s.now + g.cost)) (stopOf? s.lyt (grantedSource o g.shelf))
          (stopOf? s.lyt (grantedDest o g.shelf))) }

/-- The chosen vehicle as an order is staged into layer `i` (R84). -/
def stagedVehicle (now tTake h : Nat) (i : LayerId) (v : Vehicle) : Vehicle :=
  { v.withLayer i (.staged h) with
    activity := if v.activity = .idle then .working else v.activity
    idleLevel := .ready
    takeTimer := if v.activeLayer.isNone then some (startTimer now tTake) else v.takeTimer }

/-- STAGE for an order now staged (R85). -/
def sendStage (h : Nat) (g : Grant) (o : Order) (s : State) : State :=
  issueTo g.cand.slot
    (.stage h (grantLayer g.cand) (stopOf? s.lyt (grantedSource o g.shelf)) (stopOf? s.lyt (grantedDest o g.shelf))
      o.carrierTag)
    s

/-- An order granted to its chosen vehicle: the displacement's recall first, then the staging (R81, R83, R84). -/
def stageOrder (h : Nat) (o : Order) (g : Grant) (s : State) : State :=
  setExam
    (sendStage h g o
      (updVehicle g.cand.slot (stagedVehicle s.now s.vht.tTake h (grantLayer g.cand))
        (moveOrder h (stagedRecord s g) .assigned .none none
          (claimFound h o g.shelf (if g.cand.displaces.isSome then recallStaged g.cand.slot s else s)))))

/-- A grant step (R71, R73). -/
def grantStep (s : State) : State :=
  match (walk s (rankedOrders s)).2 with
  | some (h, o, g) =>
    stageOrder h o g
      (setWaits (walk s (rankedOrders s)).1 { s with asa := { s.asa with examPending := false } })
  | none => setWaits (walk s (rankedOrders s)).1 { s with asa := { s.asa with examPending := false } }

/-! ## Rows -/

/-- GRANT_STEP (R71): in RUNNING with the examination-pending flag set. -/
def execGrantStep (s : State) : Host.Outcome State Fault Refusal :=
  if s.lyt.opState = .running ∧ s.asa.examPending = true then .next (grantStep s) else .next s

/-- RESCAN_TIMER_EXPIRY (R72): the flag is set; the timer starts again while an order is QUEUED. -/
def execRescanTimerExpiry (s : State) : Host.Outcome State Fault Refusal :=
  if timerDue s.asa.rescan s.now then
    .next { s with
      asa := { s.asa with
        examPending := true
        rescan := if 0 < queuedCount s.ort.orders then some (startTimer s.now s.asa.tRescan) else none } }
  else .next s

end Sys2Proof.Machine
end

