-- ==== Sys2Proof/Machine/Orders.lean ====
section
/-! DEFINITION. The host's order requests (chapter 3, R164): placing, holding, releasing, cancelling, retargeting,
resourcing, reading and clearing orders, the standing demands and the batches. -/
namespace Sys2Proof.Machine

open Sys2Proof

/-! ## ORDER_PLACE: the fields (R42 to R44) -/

/-- What an ORDER_PLACE asks for, its fields checked. -/
structure OrderForm where
  kind : OrderKind
  trigger : Trigger
  cls : OrderClass
  targeting : Targeting
  source : Option Endpoint
  targetBay : Option Nat
  dest : Option Endpoint
deriving DecidableEq, Repr

/-- The port an endpoint field names, one of the loaded layout. -/
def portField (l : Layout) (f : EndpointField) : Option Nat :=
  if f.type = 0 ∧ f.number < l.portCount then some f.number else none

/-- The bay an endpoint field names, one of the loaded layout. -/
def bayField (l : Layout) (f : EndpointField) : Option Nat :=
  if f.type = 2 ∧ f.number < l.bayCount then some f.number else none

/-- Source, target bay and destination as the kind fixes them (R42, section 11.3). -/
def formEndpoints (l : Layout) (k : OrderKind) (src dst : EndpointField) :
    Option (Option Endpoint × Option Nat × Option Endpoint) :=
  match k with
  | .move =>
    match portField l src, portField l dst with
    | some p, some q => if p = q then none else some (some (.port p), none, some (.port q))
    | _, _ => none
  | .store =>
    match portField l src, bayField l dst with
    | some p, some b => some (some (.port p), some b, none)
    | _, _ => none
  | .retrieve =>
    match portField l dst with
    | some q => if src.type = 0xFF then some (none, none, some (.port q)) else none
    | none => none
  | .supplyEmpty =>
    match portField l dst with
    | some q => if src.type = 0xFF then some (none, none, some (.port q)) else none
    | none => none
  | .returnEmpty =>
    match portField l src with
    | some p => if dst.type = 0xFF then some (some (.port p), none, none) else none
    | none => none

/-- Whether the carrier tag is there as the kind asks, and is one (R42, R44). -/
def formTag (k : OrderKind) (t : Option CarrierTag) : Bool :=
  match k, t with
  | .supplyEmpty, t => t.isNone
  | .returnEmpty, none => true
  | _, none => false
  | _, some t => tagValid t

/-- Targeting (R43): DIRECT with a fleet id, NEAREST with a group mask in the field's low byte (section 11.3; log 20). -/
def formTargeting (code target : Nat) : Option Targeting :=
  match code with
  | 0 => if fleetIdValid target then some (.direct target) else none
  | 1 => if BitVec.ofNat 8 target = 0#8 then none else some (.nearest (BitVec.ofNat 8 target))
  | _ => none

/-- Whether the trigger goes with the kind and the batch tag (R43). -/
def formTrigger (k : OrderKind) (t : Trigger) (batch : Option Nat) : Bool :=
  match t with
  | .once => true
  | .standing => decide (k = .supplyEmpty) && batch.isNone

/-- Check 2 of R44: the order an ORDER_PLACE describes, none where a field is out of its range or not allowed. -/
def orderForm (l : Layout) (r : OrderPlaceReq) : Option OrderForm :=
  match orderKindOf r.kind, triggerOf r.trigger, orderClassOf r.cls, formTargeting r.targeting r.target with
  | some k, some t, some c, some tg =>
    match formEndpoints l k r.source r.dest with
    | some (src, bay, dst) =>
      if formTag k r.carrierTag && formTrigger k t r.batchTag && decide (r.reachLimit ≠ some 0) then
        some ⟨k, t, c, tg, src, bay, dst⟩
      else none
    | none => none
  | _, _, _, _ => none

/-! ## ORDER_PLACE: the remaining checks (R44) -/

/-- Whether a live order other than entry `h` was given this carrier tag (R41, R44, R61). -/
def tagInUse (t : OrderTable) (h : Option Nat) (tag : CarrierTag) : Bool :=
  t.orders.any (fun e => e.2.state.live && decide (e.2.carrierTag = some tag) && decide (some e.1 ≠ h))

/-- Check 3 of R44. -/
def duplicateOrder (t : OrderTable) (r : OrderPlaceReq) : Bool :=
  t.orders.any (fun e => e.2.state.live && decide (e.2.hostTag = r.hostTag)) ||
    (match r.carrierTag with
      | some tag => tagInUse t none tag
      | none => false)

/-- The lowest HELD shelf that holds a carrier tag (R137). -/
def heldShelfOf (m : ShelfMap) (tag : Option CarrierTag) : Option Nat :=
  (m.shelves.find? (fun e => decide (e.2.state = .held) && e.2.tag.isSome && decide (e.2.tag = tag))).map
    (fun e => e.1)

/-- Check 4 of R44. -/
def notFoundOrder (s : State) (f : OrderForm) (tag : Option CarrierTag) : Bool :=
  (decide (f.kind = .retrieve) && (heldShelfOf s.shm tag).isNone) ||
    (match f.targeting with
      | .direct id => (slotOf s.vht id).isNone
      | .nearest _ => false)

/-- The terminal orders. -/
def terminalOrders (t : Tbl Order) : Tbl Order := t.filter (fun e => !e.2.state.live)

/-- The entry an accepted order takes (R45, step 1): the lowest free one, or else that of the terminal order with the
oldest ended-at, the lower handle between equals. -/
def entryForOrder (t : Tbl Order) : Option Nat :=
  match tblFree 256 t with
  | some h => some h
  | none =>
    (bestBy (fun a b => decide (a.2.endedAt.getD 0 < b.2.endedAt.getD 0)) (terminalOrders t)).map (fun e => e.1)

/-- Check 7 of R44. -/
def batchFull (t : OrderTable) (tag : Option Nat) : Bool :=
  match tag with
  | some b => !tblHas t.batches b && decide (32 ≤ t.batches.length)
  | none => false

/-! ## ORDER_PLACE: acceptance (R45, R66) -/

/-- The batch table with one more order of a batch tag (R66). -/
def openBatch (b : Tbl Batch) (tag : Option Nat) : Tbl Batch :=
  match tag with
  | some k =>
    match tblGet b k with
    | some e => tblSet b k { e with openCount := e.openCount + 1, total := e.total + 1 }
    | none => tblSet b k ⟨1, 0, 1⟩
  | none => b

/-- The record of an accepted order (R45, steps 2, 3 and 5). -/
def newOrder (s : State) (r : OrderPlaceReq) (f : OrderForm) (source : Option Endpoint) : Order :=
  { seq := s.ort.nextSeq, hostTag := r.hostTag, kind := f.kind, trigger := f.trigger, cls := f.cls,
    carrierTag := r.carrierTag, readTag := none, source := source, targetBay := f.targetBay, dest := f.dest,
    prior := none, targeting := f.targeting, reachLimit := r.reachLimit, batchTag := r.batchTag,
    state := if r.hold then .held else .queued, waitReason := none, suspendReason := none, abortPending := false,
    endReason := none, loc := none, storedAge := 0, queuedSince := if r.hold then none else some s.now,
    etaPick := none, etaDone := none, asserted := decide (f.trigger = .standing), serveCount := 0, acceptedAt := s.now,
    endedAt := none, retargetLate := false, orphan := none }

/-- The source of an accepted order: for a RETRIEVE, the shelf its acceptance claims (R137). -/
def placedSource (s : State) (f : OrderForm) (tag : Option CarrierTag) : Option Endpoint :=
  if f.kind = .retrieve then (heldShelfOf s.shm tag).map Endpoint.shelf else f.source

/-- The acceptance claim of a RETRIEVE: its source shelf becomes OUTBOUND under the order's handle (R137). -/
def claimSource (h : Nat) (f : OrderForm) (tag : Option CarrierTag) (s : State) : State :=
  if f.kind = .retrieve then
    match heldShelfOf s.shm tag with
    | some k => setShelf k { shelfAt s.shm k with state := .outbound, claim := some h } s
    | none => s
  else s

/-- An accepted order takes entry `h` (R45). -/
def acceptOrder (h : Nat) (r : OrderPlaceReq) (f : OrderForm) (s : State) : State :=
  setExamIf (!r.hold)
    (putOrder h (newOrder s r f (placedSource s f r.carrierTag))
      (claimSource h f r.carrierTag
        { s with
          ort := { s.ort with
            nextSeq := satTime (s.ort.nextSeq + 1), batches := openBatch s.ort.batches r.batchTag } }))

/-- ORDER_PLACE in RUNNING (R44, R45). -/
def placeOrder (r : OrderPlaceReq) (s : State) : Answered :=
  match orderForm s.lyt r with
  | none => refuse s .badField
  | some f =>
    if duplicateOrder s.ort r then refuse s .duplicate
    else if notFoundOrder s f r.carrierTag then refuse s .notFound
    else if decide (f.cls = .bulk) && intakeClosed s.ort.gate (liveCount s.ort) then refuse s .busy
    else
      match entryForOrder s.ort.orders with
      | none => refuse s .tableFull
      | some h =>
        if batchFull s.ort r.batchTag then refuse s .tableFull
        else accept (acceptOrder h r f s) (.placed h s.ort.nextSeq)

/-! ## Requests on an order (R48) -/

/-- A request that names an order by handle and host tag: NOT_FOUND where there is none such (R48). -/
def onOrder (r : OrderRef) (act : Order → State → Answered) (s : State) : Answered :=
  match namedOrder s.ort r with
  | some o => act o s
  | none => refuse s .notFound

/-- ABORT to the vehicle that holds an active order. -/
def sendAbort (h : Nat) (o : Order) (s : State) : State :=
  match o.loc with
  | some (slot, _) => issueTo slot (.abort h) s
  | none => s

/-- ORDER_HOLD by the order's state (R58). -/
def holdOrder (h : Nat) (o : Order) (s : State) : Answered :=
  match o.state with
  | .queued => accept (moveOrder h id .held .none none s) .none
  | .assigned => accept (returnOrder h .held (sendRecall h s)) .none
  | .held => accept s .none
  | .toSource => refuse s .tooLate
  | .picking => refuse s .tooLate
  | .carrying => refuse s .tooLate
  | .placing => refuse s .tooLate
  | .cancelling => refuse s .tooLate
  | .suspended => refuse s .tooLate
  | .served => refuse s .tooLate
  | .done => refuse s .tooLate
  | .failed => refuse s .tooLate
  | .cancelled => refuse s .tooLate

/-- ORDER_RELEASE by the order's state (R59). -/
def releaseOrder (h : Nat) (o : Order) (s : State) : Answered :=
  if o.state = .held then accept (moveOrder h id .queued .none none s) .none
  else if o.state.live then refuse s .wrongState
  else refuse s .tooLate

/-- A TO_SOURCE order that is cancelled (R60): ABORT unless one is awaited, and CANCELLING. -/
def cancelling (h : Nat) (o : Order) (s : State) : State :=
  moveOrder h (fun o => { o with abortPending := false }) .cancelling .none none
    (if o.abortPending then s else sendAbort h o s)

/-- ORDER_CANCEL by the order's state (R60). -/
def cancelOrder (h : Nat) (o : Order) (s : State) : Answered :=
  match o.state with
  | .queued => accept (endOrder h .cancelled .cancelledByHost s) .none
  | .held => accept (endOrder h .cancelled .cancelledByHost s) .none
  | .served => accept (endOrder h .cancelled .cancelledByHost s) .none
  | .assigned => accept (endOrder h .cancelled .cancelledByHost (sendRecall h s)) .none
  | .toSource => accept (cancelling h o s) .none
  | .cancelling => accept s .none
  | .picking => refuse s .tooLate
  | .carrying => refuse s .tooLate
  | .placing => refuse s .tooLate
  | .suspended => refuse s .tooLate
  | .done => refuse s .tooLate
  | .failed => refuse s .tooLate
  | .cancelled => refuse s .tooLate

/-- ORDER_QUERY (R48). -/
def queryOrder (h : Nat) (o : Order) (s : State) : Answered :=
  accept s (.order h o (ageAt o s.now) (carrierId s o.loc))

/-- ORDER_CLEAR (R47). -/
def clearOrder (h : Nat) (o : Order) (s : State) : Answered :=
  if o.state.live then refuse s .wrongState
  else accept { s with ort := { s.ort with orders := tblErase s.ort.orders h } } .none

/-! ## ORDER_RETARGET (R61, R62) -/

/-- What a retarget names, once its form has passed check 3 of R61. -/
inductive RetargetTo where
  | endpoint (e : Endpoint)
  | bay (b : Nat)
deriving DecidableEq, Repr

/-- Whether an order is SUSPENDED with reason MISMATCH. -/
def Order.mismatched (o : Order) : Bool := decide (o.state = .suspended) && decide (o.suspendReason = some .mismatch)

/-- Check 3 of R61: the form of the destination. -/
def retargetForm (l : Layout) (o : Order) (f : EndpointField) : Option RetargetTo :=
  match f.type with
  | 0 =>
    if f.number < l.portCount ∧ o.source ≠ some (.port f.number) then some (.endpoint (.port f.number)) else none
  | 1 =>
    if o.mismatched ∧ o.dest = some (.shelf f.number) then some (.endpoint (.shelf f.number)) else none
  | 2 =>
    if f.number < l.bayCount ∧ o.kind = .store ∧ (o.state = .queued ∨ o.state = .held) ∧ o.dest = none then
      some (.bay f.number)
    else none
  | _ => none

/-- Check 2 of R61: the refusal by state. -/
def retargetRefusal (o : Order) : Option Status :=
  match o.state with
  | .placing => some .tooLate
  | .cancelling => some .tooLate
  | .done => some .tooLate
  | .failed => some .tooLate
  | .cancelled => some .tooLate
  | .suspended => if o.suspendReason = some .mismatch then none else some .wrongState
  | .queued => none
  | .held => none
  | .assigned => none
  | .toSource => none
  | .picking => none
  | .carrying => none
  | .served => none

/-- The load of the vehicle in a slot. -/
def loadAt (t : VehicleTable) (slot : Nat) : Load :=
  match tblGet t.vehicles slot with
  | some v => v.load
  | none => .empty

/-- Check 4 of R61: the read tag a mismatched order adopts as its carrier tag; none for "unread" and for the carrier
tag of another live order. An order that holds no read tag first takes the tag its vehicle reports, as every resumption
does (R162); a load that carries no tag is then as "unread" (log 14). -/
def adoptedTag (t : OrderTable) (h : Nat) (o : Order) (load : Load) : Option CarrierTag :=
  match o.readTag.getD (readOfLoad load) with
  | .tag u => if tagInUse t (some h) u then none else some u
  | .unread => none

/-- The destination changed in QUEUED or HELD (R62). -/
def retargetWaiting (h : Nat) (o : Order) (t : RetargetTo) (s : State) : State :=
  setExamIf (decide (o.state = .queued))
    (match t with
      | .endpoint e => updOrder h (fun o => { o with dest := some e }) (releaseInbound h o.dest s)
      | .bay b => updOrder h (fun o => { o with targetBay := some b }) s)

/-- eta done of an order retargeted before its pick (R37). -/
def etaFromPick (s : State) (o : Order) (dest : Option Endpoint) : Nat :=
  satTime (o.etaPick.getD 0 + handoffOf (stopOf? s.lyt o.source) +
    travelBetween s.lyt (stopOf? s.lyt o.source) (stopOf? s.lyt dest) + handoffOf (stopOf? s.lyt dest))

/-- eta done after a retarget, by the order's state (R37). -/
def etaRetargeted (s : State) (slot : Nat) (o : Order) (dest : Option Endpoint) : Nat :=
  match o.state with
  | .assigned => etaFromPick s o dest
  | .toSource => etaFromPick s o dest
  | .queued => etaFromVehicle s slot dest
  | .held => etaFromVehicle s slot dest
  | .picking => etaFromVehicle s slot dest
  | .carrying => etaFromVehicle s slot dest
  | .placing => etaFromVehicle s slot dest
  | .cancelling => etaFromVehicle s slot dest
  | .suspended => etaFromVehicle s slot dest
  | .served => etaFromVehicle s slot dest
  | .done => etaFromVehicle s slot dest
  | .failed => etaFromVehicle s slot dest
  | .cancelled => etaFromVehicle s slot dest

/-- RETARGET to the vehicle in a slot (R62). -/
def sendRetarget (slot h : Nat) (dest : Option Endpoint) (s : State) : State :=
  issueTo slot (.retarget h (stopOf? s.lyt dest)) s

/-- The destination changed on a vehicle (R62): an earlier prior destination is dropped, and the current one becomes
the prior one. -/
def retargetCarried (slot h : Nat) (o : Order) (e : Endpoint) (s : State) : State :=
  updOrder h
    (fun o => { o with prior := o.dest, dest := some e, etaDone := some (etaRetargeted s slot o (some e)) })
    (sendRetarget slot h (some e) (releaseInbound h o.prior s))

/-- A mismatched order is retargeted and resumes (R61, R62, R162): the read tag, with one that is absent taken from the
vehicle, becomes its carrier tag; a retarget that names the current destination leaves no prior destination. -/
def retargetMismatch (slot h : Nat) (o : Order) (tag : CarrierTag) (e : Endpoint) (s : State) : State :=
  resumeOrder slot h
    (fun o => { o with
      carrierTag := some tag, readTag := some (.tag tag), prior := if o.dest = some e then none else o.dest,
      dest := some e })
    (sendRetarget slot h (some e) (releaseInbound h o.prior s))

/-- Whether a retarget names the destination the order already has (R61). -/
def sameDest (o : Order) : RetargetTo → Bool
  | .endpoint e => decide (o.dest = some e)
  | .bay b => decide (o.targetBay = some b)

/-- An ORDER_RETARGET whose kind, state and form have passed (R61, R62). -/
def retargetTo (h : Nat) (o : Order) (t : RetargetTo) (s : State) : Answered :=
  match o.loc, t with
  | some (slot, _), .endpoint e =>
    if o.mismatched then
      match adoptedTag s.ort h o (loadAt s.vht slot) with
      | some tag => accept (retargetMismatch slot h o tag e s) .none
      | none => refuse s .duplicate
    else if sameDest o t then accept s .none
    else accept (retargetCarried slot h o e s) .none
  | _, _ => if sameDest o t then accept s .none else accept (retargetWaiting h o t s) .none

/-- ORDER_RETARGET (R61). -/
def retargetOrder (h : Nat) (f : EndpointField) (o : Order) (s : State) : Answered :=
  if o.kind = .supplyEmpty ∨ o.trigger = .standing then refuse s .wrongState
  else
    match retargetRefusal o with
    | some st => refuse s st
    | none =>
      match retargetForm s.lyt o f with
      | some t => retargetTo h o t s
      | none => refuse s .badField

/-! ## ORDER_RESOURCE (R164) -/

/-- The kind of a resourced order (R164). -/
def OrderKind.resourced : OrderKind → OrderKind
  | .retrieve => .move
  | .supplyEmpty => .move
  | .move => .move
  | .store => .store
  | .returnEmpty => .returnEmpty

/-- The record of a resourced order (R164, steps 2 and 3). -/
def resourced (p : Nat) (o : Order) : Order :=
  { o with
    kind := o.kind.resourced, source := some (.port p), prior := none, readTag := none, suspendReason := none,
    etaPick := none, etaDone := none, loc := none, orphan := none }

/-- The load of the vehicle a resourced order leaves becomes EMPTY (R164, step 1). -/
def unloadVehicle (loc : Option (Nat × LayerId)) (s : State) : State :=
  match loc with
  | some (slot, _) => updVehicle slot (fun v => { v with load := .empty }) s
  | none => s

/-- The effects of an accepted ORDER_RESOURCE (R164). -/
def resourceOrder (h p : Nat) (o : Order) (s : State) : State :=
  moveOrder h (resourced p) .queued .none (carrierId s o.loc)
    (releaseInbound h o.prior (vacateSource h o.source (unloadVehicle o.loc (leaveVehicle o.loc s))))

/-- ORDER_RESOURCE by port and state (R164). -/
def sourceAt (h p : Nat) (o : Order) (s : State) : Answered :=
  if s.lyt.portCount ≤ p then refuse s .badField
  else
    match o.state with
    | .suspended =>
      if o.dest = some (.port p) then refuse s .badField else accept (resourceOrder h p o s) .none
    | .carrying => refuse s .tooLate
    | .placing => refuse s .tooLate
    | .done => refuse s .tooLate
    | .failed => refuse s .tooLate
    | .cancelled => refuse s .tooLate
    | .queued => refuse s .wrongState
    | .held => refuse s .wrongState
    | .assigned => refuse s .wrongState
    | .toSource => refuse s .wrongState
    | .picking => refuse s .wrongState
    | .cancelling => refuse s .wrongState
    | .served => refuse s .wrongState

/-! ## Standing demands and batches (section 3.7, R67) -/

/-- A standing demand's record at a new instance (R64). -/
def newInstance (o : Order) : Order :=
  { o with
    asserted := true, serveCount := min 65535 (o.serveCount + 1), readTag := none, source := none, etaPick := none,
    etaDone := none, kind := if o.kind = .move then .supplyEmpty else o.kind, storedAge := 0 }

/-- DEMAND_ACK by trigger and state (R64). An assert value that is neither SET nor CLEAR is refused first (R184): DESIGN
CHOICE, log 36. -/
def ackDemand (h : Nat) (value : Nat) (o : Order) (s : State) : Answered :=
  match flagOf value with
  | none => refuse s .badField
  | some set =>
    if o.trigger = .once then refuse s .wrongState
    else if o.state = .served then
      if set then accept (moveOrder h newInstance .queued .none none s) .none
      else accept (endOrder h .done .withdrawn (updOrder h (fun o => { o with asserted := false }) s)) .none
    else if o.state.live then refuse s .wrongState
    else refuse s .tooLate

/-- DEMAND_DROP by trigger and state (R65). -/
def dropDemand (h : Nat) (o : Order) (s : State) : Answered :=
  if o.trigger = .once then refuse s .wrongState
  else
    match o.state with
    | .queued => accept (endOrder h .done .withdrawn s) .none
    | .held => accept (endOrder h .done .withdrawn s) .none
    | .served => accept (endOrder h .done .withdrawn s) .none
    | .assigned => accept (endOrder h .done .withdrawn (sendRecall h s)) .none
    | .toSource => accept (updOrder h (fun o => { o with asserted := false }) s) .none
    | .picking => accept (updOrder h (fun o => { o with asserted := false }) s) .none
    | .carrying => accept (updOrder h (fun o => { o with asserted := false }) s) .none
    | .placing => accept (updOrder h (fun o => { o with asserted := false }) s) .none
    | .cancelling => accept (updOrder h (fun o => { o with asserted := false }) s) .none
    | .suspended => accept (updOrder h (fun o => { o with asserted := false }) s) .none
    | .done => refuse s .tooLate
    | .failed => refuse s .tooLate
    | .cancelled => refuse s .tooLate

/-- BATCH_QUERY (R67). -/
def queryBatch (tag : Nat) (s : State) : Answered :=
  match tblGet s.ort.batches tag with
  | some b => accept s (.batch b.openCount b.failed b.total)
  | none => refuse s .notFound

/-! ## Rows -/

/-- ORDER_PLACE (R44, R45). -/
def execOrderPlace (s : State) : Host.Outcome State Fault Refusal :=
  .next (takeRequest 0x20 decodeOrderPlace (whenRunning placeOrder) s)

/-- ORDER_HOLD (R58). -/
def execOrderHold (s : State) : Host.Outcome State Fault Refusal :=
  .next (takeRequest 0x21 decodeOrderRef (whenRunning (fun r => onOrder r (holdOrder r.handle))) s)

/-- ORDER_RELEASE (R59). -/
def execOrderRelease (s : State) : Host.Outcome State Fault Refusal :=
  .next (takeRequest 0x22 decodeOrderRef (whenRunning (fun r => onOrder r (releaseOrder r.handle))) s)

/-- ORDER_CANCEL (R60). -/
def execOrderCancel (s : State) : Host.Outcome State Fault Refusal :=
  .next (takeRequest 0x23 decodeOrderRef (whenRunning (fun r => onOrder r (cancelOrder r.handle))) s)

/-- ORDER_RETARGET (R61, R62). -/
def execOrderRetarget (s : State) : Host.Outcome State Fault Refusal :=
  .next (takeRequest 0x24 decodeOrderRetarget
    (whenRunning (fun r => onOrder r.order (retargetOrder r.order.handle r.dest))) s)

/-- ORDER_RESOURCE (R164). -/
def execOrderResource (s : State) : Host.Outcome State Fault Refusal :=
  .next (takeRequest 0x25 decodeOrderResource
    (whenRunning (fun r => onOrder r.order (sourceAt r.order.handle r.value))) s)

/-- ORDER_QUERY (R48). -/
def execOrderQuery (s : State) : Host.Outcome State Fault Refusal :=
  .next (takeRequest 0x26 decodeOrderRef (whenRunning (fun r => onOrder r (queryOrder r.handle))) s)

/-- ORDER_CLEAR (R47). -/
def execOrderClear (s : State) : Host.Outcome State Fault Refusal :=
  .next (takeRequest 0x27 decodeOrderRef (whenRunning (fun r => onOrder r (clearOrder r.handle))) s)

/-- DEMAND_ACK (R64). -/
def execDemandAck (s : State) : Host.Outcome State Fault Refusal :=
  .next (takeRequest 0x28 decodeDemandAck
    (whenRunning (fun r => onOrder r.order (ackDemand r.order.handle r.value))) s)

/-- DEMAND_DROP (R65). -/
def execDemandDrop (s : State) : Host.Outcome State Fault Refusal :=
  .next (takeRequest 0x29 decodeOrderRef (whenRunning (fun r => onOrder r (dropDemand r.handle))) s)

/-- BATCH_QUERY (R67). -/
def execBatchQuery (s : State) : Host.Outcome State Fault Refusal :=
  .next (takeRequest 0x2A decodeU16 (whenRunning queryBatch) s)

end Sys2Proof.Machine
end

