-- ==== Sys2Proof/Machine/Reports.lean ====
section
/-! DEFINITION. What each vehicle report does (section 3.4, chapters 5 and 9). -/
namespace Sys2Proof.Machine

open Sys2Proof

/-! ## Positions (R97) -/

/-- The coordinate stored for a reported one: at or beyond the zone's length, that length − 1 (R97). -/
def storedCoord (l : Layout) (zone coord : Nat) : Nat :=
  if zoneLength l zone ≤ coord then zoneLength l zone - 1 else coord

/-- POSITION_CLAMPED where the reported coordinate was too large, with the position as stored (R93, R97). -/
def clampIncident (slot zone coord : Nat) (s : State) : State :=
  if zoneLength s.lyt zone ≤ coord then raiseVehicle .positionClamped slot none none none s else s

/-- POS from an ONLINE vehicle (R97). -/
def reportPos (slot : Nat) (r : PointRep) (s : State) : State :=
  if zoneValid s.lyt r.zone then
    admitPos r.zone slot
      (clampIncident slot r.zone r.coord
        (updVehicle slot (fun v => { v with position := ⟨r.zone, storedCoord s.lyt r.zone r.coord, s.now⟩ }) s))
  else s

/-! ## HELLO (R93 to R96) -/

/-- The record of a newly enrolled vehicle (R94, steps 1 and 2). -/
def enrolledVehicle (s : State) (fleetId : Nat) (r : HelloRep) : Vehicle :=
  { fleetId := fleetId, link := .online, activity := .idle, idleLevel := .ready, idleSince := s.now,
    hostStall := false, faultStall := false, lastFault := none, recovered := false, autoRelease := false,
    groupMask := 0xFF#8, position := ⟨r.zone, storedCoord s.lyt r.zone r.coord, s.now⟩, load := r.load,
    layer0 := .empty, layer1 := .empty, lastTaken := none, takeTimer := none, noTakes := 0,
    silence := some (startTimer s.now s.vht.tSilent), target := none }

/-- Entry `slot` of the vehicle table holds a newly enrolled vehicle. -/
def addVehicle (slot fleetId : Nat) (r : HelloRep) (s : State) : State :=
  { s with vht := { s.vht with vehicles := tblSet s.vht.vehicles slot (enrolledVehicle s fleetId r) } }

/-- Enrollment of an unknown fleet id into slot `slot` (R94). -/
def enroll (slot fleetId : Nat) (r : HelloRep) (s : State) : State :=
  setExam
    (issue fleetId (.welcome .ok slot none)
      ((if r.load = .empty then id else strayLoad slot)
        (vehicleNotice slot .enrolled
          (admitEnrolled r.zone slot (clampIncident slot r.zone r.coord (addVehicle slot fleetId r s))))))

/-- The record of a re-enrolling vehicle takes what its HELLO reports (R95, steps 1 and 2). -/
def returnVehicle (slot : Nat) (r : HelloRep) (s : State) : State :=
  updVehicle slot
    (fun v => { v with
      link := .online
      silence := some (startTimer s.now s.vht.tSilent)
      position := ⟨r.zone, storedCoord s.lyt r.zone r.coord, s.now⟩
      load := r.load })
    s

/-- The reported load set against the layers (R96). -/
def reconcile (slot : Nat) (load : Load) (s : State) : State :=
  match tblGet s.vht.vehicles slot with
  | some v =>
    match activeOrder s.ort v with
    | some (h, o) =>
      if o.state ≠ .suspended ∨ load = .empty then s
      else if consistentLoad o load then resumeOnReport slot h load s
      else mismatch slot h s
    | none => if v.bothEmpty ∧ load ≠ .empty then strayLoad slot s else s
  | none => s

/-- The activity of a re-enrolled vehicle (R95, step 6). -/
def settleActivity (slot : Nat) (s : State) : State :=
  updVehicle slot (fun v => if v.bothEmpty then v.rest s.now else { v with activity := .working }) s

/-- The work to continue: the order on the ACTIVE layer once it has resumed (R96). -/
def workToContinue (s : State) (slot : Nat) : Option Work :=
  match tblGet s.vht.vehicles slot with
  | some v =>
    match v.activeLayer with
    | some (h, i) =>
      match tblGet s.ort.orders h with
      | some o => if o.state = .carrying then some ⟨h, i, stopOf? s.lyt o.dest, o.carrierTag⟩ else none
      | none => none
    | none => none
  | none => none

/-- WELCOME with OK, carrying the slot and the work to continue (R95, step 7). -/
def sendWelcome (slot : Nat) (s : State) : State := issueTo slot (.welcome .ok slot (workToContinue s slot)) s

/-- Re-enrollment of an OFFLINE record (R95). -/
def reenroll (slot : Nat) (r : HelloRep) (s : State) : State :=
  setExam
    (sendWelcome slot
      (settleActivity slot
        (reconcile slot r.load
          (vehicleNotice slot .enrolled
            (admitEnrolled r.zone slot (clampIncident slot r.zone r.coord (returnVehicle slot r s)))))))

/-- A HELLO refused for its position: a known ONLINE vehicle's silence timer restarts (R93, case 3). -/
def badPosition (fleetId : Nat) (s : State) : State :=
  issue fleetId (.welcome .badPosition 0 none) (fromVehicle (fun _ _ s => s) fleetId () s)

/-- HELLO from a known fleet id (R93, cases 6 and 7). -/
def helloKnown (slot : Nat) (r : HelloRep) (s : State) : State :=
  match tblGet s.vht.vehicles slot with
  | some v => if v.online then reenroll slot r (byeVehicle slot s) else reenroll slot r s
  | none => s

/-- HELLO from an unknown fleet id (R93, cases 4 and 5). -/
def helloUnknown (fleetId : Nat) (r : HelloRep) (s : State) : State :=
  match tblFree 64 s.vht.vehicles with
  | some slot => enroll slot fleetId r s
  | none => issue fleetId (.welcome .full 0 none) s

/-- HELLO (R93). -/
def reportHello (fleetId : Nat) (r : HelloRep) (s : State) : State :=
  if fleetIdValid fleetId then
    if s.lyt.opState = .running then
      if zoneValid s.lyt r.zone then
        match slotOf s.vht fleetId with
        | some slot => helloKnown slot r s
        | none => helloUnknown fleetId r s
      else badPosition fleetId s
    else issue fleetId (.welcome .notReady 0 none) s
  else s

/-! ## TAKEN (R53, R108, R127) -/

/-- A stale report's answer (R108). -/
def discard (slot h : Nat) (layer : Option Nat) (s : State) : State := issueTo slot (.discard h layer) s

/-- Whether a TAKEN stands in the expected relation to a vehicle's layers (R53, R108). -/
def takenFits (v : Vehicle) (h : Nat) (i : LayerId) : Bool :=
  decide (v.layer i = .staged h) && v.activeLayer.isNone

/-- The vehicle as a TAKEN is taken (R53). -/
def takenVehicle (h : Nat) (i : LayerId) (v : Vehicle) : Vehicle :=
  { v.withLayer i (.active h) with
    lastTaken := some i, takeTimer := none, noTakes := 0, target := none, activity := .working }

/-- A TAKEN that is not stale (R53), with the removal of a starved entry (R127). -/
def takeOrder (slot h : Nat) (i : LayerId) (s : State) : State :=
  starvedAtTaken (starvedBays s.bac slot) slot h
    (moveOrder h id .toSource .none none (updVehicle slot (takenVehicle h i) s))

/-- TAKEN from an ONLINE vehicle (R53, R108). -/
def reportTaken (slot : Nat) (r : TakenRep) (s : State) : State :=
  match tblGet s.vht.vehicles slot, layerIdOf r.layer with
  | some v, some i =>
    if takenFits v r.handle i then takeOrder slot r.handle i s else discard slot r.handle (some r.layer) s
  | _, _ => discard slot r.handle (some r.layer) s

/-! ## Reports on the ACTIVE order -/

/-- A report that names the vehicle's ACTIVE order; a stale one is answered with DISCARD (R108). -/
def onActive (slot h : Nat) (act : Vehicle → Order → State → State) (s : State) : State :=
  match tblGet s.vht.vehicles slot, tblGet s.ort.orders h with
  | some v, some o => if v.activeHandle = some h then act v o s else discard slot h none s
  | _, _ => discard slot h none s

/-- An order that awaits the answer to an ABORT while its vehicle is fault-stalled (R160; log 29). -/
def awaitsUnderFault (v : Vehicle) (o : Order) : Bool :=
  v.faultStall && (decide (o.state = .cancelling) || (decide (o.state = .toSource) && o.abortPending))

/-- An order goes to PICKING from TO_SOURCE or CANCELLING, an abort pending becoming absent (R54, R57). -/
def beginPick (h : Nat) (o : Order) (s : State) : State :=
  moveOrder h (fun o => { o with abortPending := false }) .picking
    (if o.state = .cancelling then .cancelLate else .none) none s

/-- An order goes to PICKING, with carrier-involved handling where it awaited its answer under a fault (R160). -/
def pickBegun (slot h : Nat) (v : Vehicle) (o : Order) (s : State) : State :=
  if awaitsUnderFault v o then carrierInvolved slot h .fault (beginPick h o s) else beginPick h o s

/-- PICK_BEGIN (R54, R160). -/
def reportPickBegin (slot h : Nat) (s : State) : State :=
  onActive slot h
    (fun v o s => if o.state = .toSource ∨ o.state = .cancelling then pickBegun slot h v o s else s) s

/-! ## PICK_END (R55, R160) -/

/-- The read tag a PICK_END carries. -/
def readOfReport : Option CarrierTag → ReadTag
  | some t => .tag t
  | none => .unread

/-- The load a PICK_END leaves (R55, step 3). -/
def loadOfReport : Option CarrierTag → Load
  | some t => .tagged t
  | none => .unknown

/-- Whether a read tag mismatches an order's carrier tag (R55, step 5). An order with no carrier tag mismatches nothing;
that R160 means the same test is the model's reading (log 38). -/
def tagMismatch (o : Order) (read : Option CarrierTag) : Bool :=
  o.carrierTag.isSome && decide (o.carrierTag ≠ read)

/-- A source shelf that has been picked from becomes FREE (R55, step 2). -/
def freeSource (e : Option Endpoint) (s : State) : State :=
  match e with
  | some (.shelf k) => setShelf k freeShelf s
  | _ => s

/-- eta done at a PICK_END (R36). -/
def etaAtPick (s : State) (o : Order) : Nat :=
  satTime (s.now + travelBetween s.lyt (stopOf? s.lyt o.source) (stopOf? s.lyt o.dest) +
    handoffOf (stopOf? s.lyt o.dest))

/-- Steps 1 to 4 of R55. -/
def picked (slot h : Nat) (read : Option CarrierTag) (o : Order) (s : State) : State :=
  updOrder h (fun o => { o with etaDone := some (etaAtPick s o) })
    (updVehicle slot (fun v => { v with load := loadOfReport read })
      (freeSource o.source (updOrder h (fun o => { o with readTag := some (readOfReport read) }) s)))

/-- CARRIER_MISMATCH of an order just suspended (R55, R160). -/
def raiseMismatch (slot h : Nat) (o : Order) (s : State) : State :=
  raiseVehicle .carrierMismatch slot (some h) o.source none s

/-- Step 5 of R55. -/
def afterPick (slot h : Nat) (read : Option CarrierTag) (o : Order) (s : State) : State :=
  if tagMismatch o read then raiseMismatch slot h o (suspendOrder h .mismatch s)
  else setExam (moveOrder h id .carrying .none none s)

/-- What follows a PICK_END taken for a fault, in place of step 5 (R160). An order with no carrier tag whose read tag is
"unread" is suspended with FAULT, the model's reading (DEDUCED; log 38). -/
def afterPickUnderFault (slot h : Nat) (read : Option CarrierTag) (o : Order) (s : State) : State :=
  if tagMismatch o read ∧ lastFaultClass s slot = .recoverable then
    raiseMismatch slot h o (carrierInvolved slot h .mismatch s)
  else carrierInvolved slot h .fault s

/-- A PICK_END in TO_SOURCE, CANCELLING or PICKING (R55, R160). -/
def pickEnded (slot h : Nat) (read : Option CarrierTag) (v : Vehicle) (o : Order) (s : State) : State :=
  if o.state = .picking then afterPick slot h read o (picked slot h read o s)
  else if awaitsUnderFault v o then afterPickUnderFault slot h read o (picked slot h read o (beginPick h o s))
  else afterPick slot h read o (picked slot h read o (beginPick h o s))

/-- PICK_END (R55). -/
def reportPickEnd (slot : Nat) (r : PickEndRep) (s : State) : State :=
  onActive slot r.handle
    (fun v o s =>
      if o.state = .picking ∨ o.state = .toSource ∨ o.state = .cancelling then pickEnded slot r.handle r.tag v o s
      else s) s

/-! ## PLACE_BEGIN and PLACE_END (R56) -/

/-- Where a vehicle says it is placing, against its order (R56). -/
inductive PlaceAt where
  | dest
  | prior
  | other
deriving DecidableEq, Repr

/-- The destination a report names, against the order's (R56). -/
def placeAt (o : Order) (f : EndpointField) : PlaceAt :=
  match endpointOf f with
  | some e => if o.dest = some e then .dest else if o.prior = some e then .prior else .other
  | none => .other

/-- A CARRYING order goes to PLACING (R56): at its destination a prior destination is dropped; at its prior destination
the retarget is overtaken, and the order is marked to end with RETARGET_LATE. -/
def beginPlace (slot h : Nat) (o : Order) (f : EndpointField) (s : State) : State :=
  match placeAt o f with
  | .dest => moveOrder h (fun o => { o with prior := none }) .placing .none none (releaseInbound h o.prior s)
  | .prior =>
    moveOrder h (fun o => { o with dest := o.prior, prior := none, retargetLate := true }) .placing .none none s
  | .other => discard slot h none s

/-- PLACE_BEGIN (R56). -/
def reportPlaceBegin (slot : Nat) (r : PlaceRep) (s : State) : State :=
  onActive slot r.handle (fun _ o s => if o.state = .carrying then beginPlace slot r.handle o r.dest s else s) s

/-- The tag a placed carrier is recorded with (R56, step 1). -/
def placedTag (o : Order) : Option CarrierTag :=
  match o.readTag with
  | some (.tag t) => some t
  | some .unread => none
  | none => none

/-- A destination shelf becomes HELD (R56, step 1). -/
def fillDest (o : Order) (s : State) : State :=
  match o.dest with
  | some (.shelf k) => setShelf k ⟨.held, placedTag o, decide (o.kind = .returnEmpty), none⟩ s
  | _ => s

/-- A standing demand's instance has been delivered: SERVED and DEMAND_SERVED (R56, R63). -/
def serveDemand (h : Nat) (o : Order) (s : State) : State :=
  queueNotice (.demandServed h o.hostTag o.serveCount s.now o.readTag)
    (moveOrder h (fun o => { o with loc := none, prior := none }) .served .none (carrierId s o.loc)
      (leaveVehicle o.loc s))

/-- The next state of a placed order (R56, steps 3 and 4). -/
def afterPlace (h : Nat) (o : Order) (s : State) : State :=
  if o.retargetLate then endOrder h .done .retargetLate s
  else if o.trigger = .standing ∧ o.asserted = true then serveDemand h o s
  else endOrder h .done .completed s

/-- A placement counted by the idle survey (R56, step 5). -/
def surveyPlacement (s : State) : State := { s with iss := countPlacement s.iss }

/-- The effects of a PLACE_END that is taken in PLACING (R56). -/
def placed (slot h : Nat) (s : State) : State :=
  match tblGet s.ort.orders h with
  | some o =>
    surveyPlacement
      (afterPlace h o (updVehicle slot (fun v => { v with load := .empty }) (fillDest o s)))
  | none => s

/-- A PLACE_END in PLACING or CARRYING (R56). -/
def endPlace (slot h : Nat) (o : Order) (f : EndpointField) (s : State) : State :=
  match o.state, placeAt o f with
  | .placing, .dest => placed slot h s
  | .placing, .prior => discard slot h none s
  | .placing, .other => discard slot h none s
  | .carrying, .other => discard slot h none s
  | .carrying, .dest => placed slot h (beginPlace slot h o f s)
  | .carrying, .prior => placed slot h (beginPlace slot h o f s)
  | _, _ => s

/-- PLACE_END (R56). -/
def reportPlaceEnd (slot : Nat) (r : PlaceRep) (s : State) : State :=
  onActive slot r.handle (fun _ o s => endPlace slot r.handle o r.dest s) s

/-! ## ABORTED and ABORT_LATE (R57, R160) -/

/-- ABORTED (R57). -/
def reportAborted (slot h : Nat) (s : State) : State :=
  onActive slot h
    (fun _ o s =>
      if o.state = .cancelling then endOrder h .cancelled .cancelledByHost s
      else if o.state = .toSource ∧ o.abortPending = true then returnOrder h .queued s
      else s) s

/-- ABORT_LATE (R57, R160). -/
def reportAbortLate (slot h : Nat) (s : State) : State :=
  onActive slot h
    (fun v o s =>
      if o.state = .cancelling ∨ (o.state = .toSource ∧ o.abortPending = true) then pickBegun slot h v o s else s) s

/-! ## FAULT and READY (R158, R161) -/

/-- A severity other than RECOVERABLE is taken as FATAL (R158). -/
def severityOf (n : Nat) : FaultClass := if n = 0 then .recoverable else .fatal

/-- The incident class of a FAULT (R158). -/
def faultIncident : FaultClass → IncidentClass
  | .recoverable => .vehicleFaultR
  | .fatal => .vehicleFaultF

/-- A FAULT's effect on the ACTIVE order, by its state (R158, step 4). -/
def faultActive (slot : Nat) (s : State) : State :=
  match tblGet s.vht.vehicles slot with
  | some v =>
    match activeOrder s.ort v with
    | some (h, o) =>
      match o.state with
      | .toSource => requeueAbort slot h s
      | .picking => carrierInvolved slot h .fault s
      | .carrying => carrierInvolved slot h .fault s
      | .placing => carrierInvolved slot h .fault s
      | .suspended => carrierInvolved slot h .fault s
      | .cancelling => s
      | .queued => s | .held => s | .assigned => s | .served => s | .done => s | .failed => s | .cancelled => s
    | none => s
  | none => s

/-- FAULT from an ONLINE vehicle (R158). -/
def reportFault (slot : Nat) (r : FaultRep) (s : State) : State :=
  faultActive slot
    (recallStaged slot
      (raiseVehicle (faultIncident (severityOf r.severity)) slot (activeHandleAt s slot) none (some r.code.toNat)
        (setFaultStall slot (severityOf r.severity) (.vehicle r.code) s)))

/-- Whether the progress reports keep the load for the order on a vehicle's ACTIVE layer (R161, step 1). -/
def keepsLoad (t : OrderTable) (v : Vehicle) : Bool :=
  match activeOrder t v with
  | some (_, o) => decide (o.state ≠ .suspended)
  | none => false

/-- A reported carrier that no order accounts for (R161, step 1). -/
def strayReady (v : Vehicle) (load : Load) : Bool :=
  v.activeLayer.isNone && decide (v.load = .empty) && decide (load ≠ .empty)

/-- Auto-release (R161, step 3). -/
def autoReleases (v : Vehicle) : Bool :=
  v.faultStall && v.autoRelease &&
    (match v.lastFault with
      | some (.recoverable, _) => true
      | some (.fatal, _) => false
      | none => false)

/-- A suspended order compared with the reported load (R161, step 4). -/
def readySuspended (slot : Nat) (load : Load) (s : State) : State :=
  match tblGet s.vht.vehicles slot with
  | some v =>
    match activeOrder s.ort v with
    | some (h, o) =>
      if o.state ≠ .suspended ∨ load = .empty then s
      else if consistentLoad o load then
        issueTo slot (.retarget h (stopOf? s.lyt o.dest)) (resumeOnReport slot h load s)
      else if o.suspendReason = some .mismatch then s
      else mismatch slot h s
    | none => s
  | none => s

/-- Steps 2 to 4 of R161. -/
def readySteps (slot : Nat) (load : Load) (s : State) : State :=
  match tblGet s.vht.vehicles slot with
  | some v =>
    readySuspended slot load
      ((if autoReleases v then clearFaultStall slot else id)
        (updVehicle slot (fun v => { v with recovered := true }) s))
  | none => s

/-- READY from an ONLINE vehicle (R161). -/
def reportReady (slot : Nat) (load : Load) (s : State) : State :=
  match tblGet s.vht.vehicles slot with
  | some v =>
    if keepsLoad s.ort v then readySteps slot load s
    else if strayReady v load then
      recallStaged slot (strayLoad slot (updVehicle slot (fun v => { v with load := load }) s))
    else readySteps slot load (updVehicle slot (fun v => { v with load := load }) s)
  | none => s

/-! ## Rows -/

/-- HELLO (R93 to R96). -/
def execHello (s : State) : Host.Outcome State Fault Refusal := .next (takeFleet 0x51 decodeHello reportHello s)

/-- POS (R97). -/
def execPos (s : State) : Host.Outcome State Fault Refusal := .next (takeReport 0x52 decodePos reportPos s)

/-- TAKEN (R53). -/
def execTaken (s : State) : Host.Outcome State Fault Refusal := .next (takeReport 0x53 decodeTaken reportTaken s)

/-- PICK_BEGIN (R54). -/
def execPickBegin (s : State) : Host.Outcome State Fault Refusal :=
  .next (takeReport 0x54 decodeU8 reportPickBegin s)

/-- PICK_END (R55). -/
def execPickEnd (s : State) : Host.Outcome State Fault Refusal :=
  .next (takeReport 0x55 decodePickEnd reportPickEnd s)

/-- PLACE_BEGIN (R56). -/
def execPlaceBegin (s : State) : Host.Outcome State Fault Refusal :=
  .next (takeReport 0x56 decodePlace reportPlaceBegin s)

/-- PLACE_END (R56). -/
def execPlaceEnd (s : State) : Host.Outcome State Fault Refusal :=
  .next (takeReport 0x57 decodePlace reportPlaceEnd s)

/-- ABORTED (R57). -/
def execAborted (s : State) : Host.Outcome State Fault Refusal := .next (takeReport 0x58 decodeU8 reportAborted s)

/-- ABORT_LATE (R57). -/
def execAbortLate (s : State) : Host.Outcome State Fault Refusal :=
  .next (takeReport 0x59 decodeU8 reportAbortLate s)

/-- FAULT (R158). -/
def execFault (s : State) : Host.Outcome State Fault Refusal := .next (takeReport 0x5A decodeFault reportFault s)

/-- READY (R161). -/
def execReady (s : State) : Host.Outcome State Fault Refusal := .next (takeReport 0x5B decodeLoad reportReady s)

/-- ARRIVED (R112). -/
def execArrived (s : State) : Host.Outcome State Fault Refusal :=
  .next (takeReport 0x5E decodeFiller (fun slot _ s => endReposition slot s) s)

/-- BYE (R100). -/
def execBye (s : State) : Host.Outcome State Fault Refusal :=
  .next (takeReport 0x5F decodeFiller (fun slot _ s => byeVehicle slot s) s)

/-- Whether the next placement fires trigger B (R150). -/
def nextFires (i : Survey) : Bool :=
  countsPlacements i && decide (i.skipLeft = 0) && decide (i.everyM ≤ i.stepCount + 1)

/-- Whether a PLACE_END of the vehicle `v` is a placement (R56). -/
def isPlacement (t : OrderTable) (v : Vehicle) (r : PlaceRep) : Bool :=
  match tblGet t.orders r.handle with
  | some o =>
    decide (v.activeHandle = some r.handle) &&
      (match o.state, placeAt o r.dest with
        | .placing, .dest => true
        | .carrying, .dest => true
        | .carrying, .prior => true
        | _, _ => false)
  | none => false

/-- Whether the head of the fleet input queue is a PLACE_END that is a placement (R56, R98). -/
def placementWaits (s : State) : Bool :=
  match s.liu.fleetIn with
  | body :: _ =>
    match decodePlace (bodyPayload body), slotOf s.vht (bodyTag body) with
    | some r, some slot =>
      match tblGet s.vht.vehicles slot with
      | some v => decide (bodyKind body = 0x57) && v.online && isPlacement s.ort v r
      | none => false
    | _, _ => false
  | [] => false

/-- TRIGGER_B_FIRE (R150): where the step count stands at M, trigger B fires and the count returns to 0; and where the
PLACE_END at the head of the fleet input queue is the placement that fires it, that report is taken, and fires it
(log 6). -/
def execTriggerBFire (s : State) : Host.Outcome State Fault Refusal :=
  if countsPlacements s.iss ∧ s.iss.everyM ≤ s.iss.stepCount then
    .next { s with iss := fireTrigger { s.iss with stepCount := 0 } }
  else if nextFires s.iss ∧ placementWaits s then .next (takeReport 0x57 decodePlace reportPlaceEnd s)
  else .next s

end Sys2Proof.Machine
end

