-- ==== Sys2Proof/Machine/Shelves.lean ====
section
/-! DEFINITION. The host's shelf requests: reserves (R134), inventory declarations (R142) and shelf queries (R143), and
the shelf map's share of a RESTART (R145). -/
namespace Sys2Proof.Machine

open Sys2Proof

/-! ## RESERVE_SET (R134) -/

/-- How many shelves of these are in each state (R134). -/
def countShelves (m : ShelfMap) (ks : List Nat) : RegionCount :=
  { free := (ks.filter (fun k => decide ((shelfAt m k).state = .free))).length
    inbound := (ks.filter (fun k => decide ((shelfAt m k).state = .inbound))).length
    heldFull := (ks.filter (fun k => decide ((shelfAt m k).state = .held) && !(shelfAt m k).emptyFlag)).length
    heldEmpty := (ks.filter (fun k => decide ((shelfAt m k).state = .held) && (shelfAt m k).emptyFlag)).length
    outbound := (ks.filter (fun k => decide ((shelfAt m k).state = .outbound))).length }

/-- The reply of an accepted RESERVE_SET (R134): bay, N_b, the reserves and the lock as they now stand, and the counts
of the hot reserve, the empty reserve and general storage, in the order in which R133 lists the regions. -/
def reserveView (m : ShelfMap) (b : Nat) (bay : BayRec) : ReplyPayload :=
  .reserve b bay.rackCount (reserveOf m b).hot (reserveOf m b).empty (reserveOf m b).lock
    (countShelves m (regionShelves bay (reserveOf m b) .hotReserve))
    (countShelves m (regionShelves bay (reserveOf m b) .emptyReserve))
    (countShelves m (regionShelves bay (reserveOf m b) .general))

/-- The reserves an accepted RESERVE_SET leaves (R134, R135). -/
def putReserve (r : ReserveSetReq) (lock : Bool) (s : State) : State :=
  { s with shm := { s.shm with reserves := tblSet s.shm.reserves r.bay ⟨r.hot, r.empty, lock⟩ } }

/-- RESERVE_SET in RUNNING (R134). -/
def setReserve (r : ReserveSetReq) (s : State) : Answered :=
  match tblGet s.lyt.bays r.bay, flagOf r.lock with
  | some bay, some lock =>
    if s.lyt.bayCount ≤ r.bay ∨ 64 < r.hot ∨ 64 < r.empty then refuse s .badField
    else if (reserveOf s.shm r.bay).lock then refuse s .locked
    else if bay.rackCount < r.hot + r.empty then refuse s .badField
    else
      accept
        (setExamIf (decide ((reserveOf s.shm r.bay).hot ≠ r.hot) || decide ((reserveOf s.shm r.bay).empty ≠ r.empty))
          (putReserve r lock s))
        (reserveView (putReserve r lock s).shm r.bay bay)
  | _, _ => refuse s .badField

/-! ## Views (R143) -/

/-- The host tag of the order in an entry. -/
def hostTagAt (t : OrderTable) (h : Option Nat) : Option Nat :=
  match h with
  | some h => (tblGet t.orders h).map (fun o => o.hostTag)
  | none => none

/-- The record of a shelf as SHELF_QUERY and SHELF_SET give it (R142, R143). -/
def shelfView (s : State) (k : Nat) : ShelfView := ⟨shelfAt s.shm k, hostTagAt s.ort (shelfAt s.shm k).claim⟩

/-- The region of a bay's local index as the reserves now stand (R133). -/
def regionAt (s : State) (b : Nat) (bay : BayRec) (i : Nat) : Region :=
  regionOf bay.rackCount (reserveOf s.shm b).hot (reserveOf s.shm b).empty i

/-- The place of a racked pool index, none for an unracked one (R16, R143). -/
def rackPlace (s : State) (k : Nat) : Option RackPlace :=
  (rackOf s.lyt k).map (fun e =>
    { bay := e.1
      localIndex := k - e.2.rackBase
      region := regionAt s e.1 e.2 (k - e.2.rackBase)
      coord := e.2.rackFirst + (k - e.2.rackBase) * e.2.rackPitch
      handoff := e.2.rackHandoff })

/-! ## SHELF_SET (R142) -/

/-- The record a SHELF_SET declares: FREE takes no notice of the empty flag and the tag, HELD has its flag and tag
checked (R142, R186). -/
def declared (r : ShelfSetReq) : Option Shelf :=
  match r.state with
  | 0 => some freeShelf
  | 2 =>
    match flagOf r.emptyFlag with
    | some e =>
      if (match r.tag with
          | some t => tagValid t
          | none => true) then
        some ⟨.held, r.tag, e, none⟩
      else none
    | none => none
  | _ => none

/-- Whether another shelf, HELD or OUTBOUND, carries the declared tag (R142, case 4). -/
def tagOnOther (m : ShelfMap) (k : Nat) (tag : Option CarrierTag) : Bool :=
  tag.isSome &&
    m.shelves.any (fun e =>
      decide (e.1 ≠ k) && (decide (e.2.state = .held) || decide (e.2.state = .outbound)) && decide (e.2.tag = tag))

/-- SHELF_SET in RUNNING (R142). -/
def declareShelf (r : ShelfSetReq) (s : State) : Answered :=
  match declared r with
  | some sh =>
    if 1023 < r.index ∨ racked s.lyt r.index = false then refuse s .badField
    else if (shelfAt s.shm r.index).state = .inbound ∨ (shelfAt s.shm r.index).state = .outbound then
      refuse s .tooLate
    else if tagOnOther s.shm r.index sh.tag then refuse s .duplicate
    else accept (setShelf r.index sh s) (.shelfSet r.index (shelfView (setShelf r.index sh s) r.index))
  | none => refuse s .badField

/-! ## SHELF_QUERY (R143) -/

/-- SHELF_QUERY of a bay's rack (R143). -/
def rackView (s : State) (b : Nat) (bay : BayRec) : ReplyPayload :=
  .rack bay.rackCount bay.rackBase (reserveOf s.shm b).hot (reserveOf s.shm b).empty (reserveOf s.shm b).lock
    ((List.range bay.rackCount).map (fun i => (shelfView s (bay.rackBase + i), regionAt s b bay i)))

/-- SHELF_QUERY in RUNNING (R143), by pool index with selector 0 and by bay with selector 1. -/
def queryShelf (r : SelectReq) (s : State) : Answered :=
  match r.selector with
  | 0 => if r.number ≤ 1023 then accept s (.shelf (shelfView s r.number) (rackPlace s r.number)) else refuse s .badField
  | 1 =>
    match tblGet s.lyt.bays r.number with
    | some bay => accept s (rackView s r.number bay)
    | none => refuse s .badField
  | _ => refuse s .badField

/-! ## RESTART (R145) -/

/-- A shelf after a RESTART: INBOUND becomes FREE, OUTBOUND becomes HELD with its tag and empty flag kept (R145). -/
def unclaimed (sh : Shelf) : Shelf :=
  match sh.state with
  | .inbound => freeShelf
  | .outbound => { sh with state := .held, claim := none }
  | .free => sh
  | .held => sh

/-- The shelf map with every claim dropped (R145). -/
def dropClaims (m : ShelfMap) : ShelfMap :=
  { m with
    shelves := (m.shelves.map (fun e => (e.1, unclaimed e.2))).filter (fun e => decide (e.2 ≠ freeShelf)) }

/-! ## Rows -/

/-- RESERVE_SET (R134). -/
def execReserveSet (s : State) : Host.Outcome State Fault Refusal :=
  .next (takeRequest 0x11 decodeReserveSet (whenRunning setReserve) s)

/-- SHELF_SET (R142). -/
def execShelfSet (s : State) : Host.Outcome State Fault Refusal :=
  .next (takeRequest 0x38 decodeShelfSet (whenRunning declareShelf) s)

/-- SHELF_QUERY (R143). -/
def execShelfQuery (s : State) : Host.Outcome State Fault Refusal :=
  .next (takeRequest 0x39 decodeSelect (whenRunning queryShelf) s)

end Sys2Proof.Machine
end

