-- ==== Sys2Proof/Machine/SystemRows.lean ====
section
/-! DEFINITION. The resets and the pin GWRDY (R18, R166, R181), STATUS and the fault capture's requests (R170, R178),
and the expiries of the vehicles' and orders' timers (R99, R102, R107, R163). -/
namespace Sys2Proof.Machine

open Sys2Proof

/-! ## Power-on reset and RESTART (R18, R181) -/

/-- POWER_ON_RESET: every block at its power-on values (R18, R40, R68, R89, R114, R130, R144, R157, R171, R182) and
engine time 0. The pin GWRDY is read, not reset (R166; log 11); the queue of waiting commands is the outside's. -/
def execPowerOnReset (s : State) : Host.Outcome State Fault Refusal :=
  .next { State.reset with gwrdy := s.gwrdy, pending := s.pending, choices := s.choices }

/-- A bay after a RESTART: its admitted set and its queue emptied, its settings kept (R130). -/
def restartedBay (y : BayState) : BayState := { y with admitted := [], queue := [], yield := none }

/-- The sequencer after a RESTART (R157). -/
def restartedSurvey (i : Survey) : Survey :=
  { i with state := .idle, current := i.first, pendingStart := false, timer := none }

/-- The line interface after a RESTART (R181, R182). -/
def restartedLines (l : Lines) : Lines :=
  { l with
    hostQueue := [], restartPending := false, hostTx := none, notices := [], gapMark := false, fleetOut := [] }

/-- The effect of a RESTART on each block (R19, R69, R89, R114, R130, R145, R157, R171, R181). -/
def restarted (s : State) : State :=
  { s with
    liu := restartedLines s.liu
    ort := { s.ort with orders := [], batches := [], nextSeq := 1 }
    asa := { s.asa with examPending := false, rescan := none }
    vht := { s.vht with vehicles := [] }
    bac := { s.bac with bays := s.bac.bays.map (fun e => (e.1, restartedBay e.2)) }
    shm := dropClaims s.shm
    iss := restartedSurvey s.iss }

/-- RESTART_EFFECT (R181, step 4): the RESTART's reply has left. -/
def execRestartEffect (s : State) : Host.Outcome State Fault Refusal :=
  if s.liu.restartPending = true ∧ s.liu.replySlot = none then .next (restarted s) else .next s

/-- A RESTART taken in RUNNING (R181, steps 1 and 2): its reply is placed, and no further request is taken. -/
def restartAct (_ : Unit) (s : State) : Answered :=
  accept { s with liu := { s.liu with restartPending := true } } (.time s.now)

/-- RESTART (R181). -/
def execRestart (s : State) : Host.Outcome State Fault Refusal :=
  .next (takeRequest 0x3E decodeFiller (whenRunning restartAct) s)

/-! ## GWRDY (R166) -/

/-- The line interface as GWRDY falls (R166, R172, R177). -/
def droppedLines (l : Lines) : Lines := { l with fleetRx := [], fleetIn := [], fleetOut := [], fleetTx := none }

/-- A bay as the fleet line drops: queue entries and GRANTED entries removed together (R128). -/
def droppedBay (y : BayState) : BayState :=
  { y with admitted := y.admitted.filter (fun e => e.inside), queue := [], yield := none }

/-- Whether a bay's admitted set has a GRANTED entry. -/
def hasGranted (y : BayState) : Bool := y.admitted.any (fun e => !e.inside)

/-- Every bay's queue and GRANTED entries removed together, with no grant as a result (R128; log 23). -/
def dropPlaces (s : State) : State :=
  setExamIf (s.bac.bays.any (fun e => hasGranted e.2))
    { s with bac := { s.bac with bays := s.bac.bays.map (fun e => (e.1, droppedBay e.2)) } }

/-- The vehicles in these slots that are ONLINE go OFFLINE with LINE_DOWN, one after another (R166, step 3). -/
def loseOnline : List Nat → State → State
  | [], s => s
  | slot :: rest, s =>
    match tblGet s.vht.vehicles slot with
    | some v => loseOnline rest (if v.online then loseVehicle slot (dropLink slot .lineDown s) else s)
    | none => loseOnline rest s

/-- GWRDY going from high to low (R166). -/
def lineFall (s : State) : State :=
  loseOnline (s.vht.vehicles.map (fun e => e.1))
    (dropPlaces
      (raiseIncident ⟨.lineDown, s.now, none, none, none, none, none⟩
        { s with gwrdy := false, liu := droppedLines s.liu }))

/-- GWRDY_FALL (R166). -/
def execGwrdyFall (s : State) : Host.Outcome State Fault Refusal :=
  if s.gwrdy then .next (lineFall s) else .next s

/-- GWRDY_RISE (R166). -/
def execGwrdyRise (s : State) : Host.Outcome State Fault Refusal := .next { s with gwrdy := true }

/-! ## STATUS and the fault capture (R170, R178) -/

/-- The sequencer's state as STATUS gives it (R146, R178): outside RUNNING the survey counts, those of the B counter,
are 0. DEDUCED, log 37. -/
def statusSurvey (s : State) : SurveyView :=
  if s.lyt.opState = .running then surveyView s.iss else { surveyView s.iss with skipLeft := 0, stepCount := 0 }

/-- The STATUS reply (R178). -/
def statusView (s : State) : StatusView :=
  { time := s.now, opState := s.lyt.opState, lock := s.lyt.lock, bayCount := s.lyt.bayCount,
    portCount := s.lyt.portCount, expected := s.lyt.expected, gwrdy := s.gwrdy, almn := almnAsserted s,
    capture := s.fcr.capture, furtherRec := s.fcr.furtherRec, furtherFatal := s.fcr.furtherFatal,
    live := liveCount s.ort, queued := queuedCount s.ort.orders, free := 256 - s.ort.orders.length,
    gate := s.ort.gate, batches := s.ort.batches.length, vehicles := s.vht.vehicles.length,
    online := tblCount Vehicle.online s.vht.vehicles, survey := statusSurvey s, notices := s.liu.notices.length,
    gapMark := s.liu.gapMark }

/-- STATUS (R178): taken in every engine state. -/
def execStatus (s : State) : Host.Outcome State Fault Refusal :=
  .next (takeRequest 0x3D decodeFiller (fun _ s => accept s (.status (statusView s))) s)

/-- The capture record and the flags as a reply carries them (R170). -/
def captureView (f : FaultCapture) : ReplyPayload := .capture f.capture f.furtherRec f.furtherFatal

/-- CAPTURE_READ (R170): taken in every engine state. -/
def execCaptureRead (s : State) : Host.Outcome State Fault Refusal :=
  .next (takeRequest 0x3F decodeFiller (fun _ s => accept s (captureView s.fcr)) s)

/-- CAPTURE_CLEAR (R170): the record emptied and both flags cleared; the reply carries them as they stood. -/
def clearCapture (_ : Unit) (s : State) : Answered :=
  accept { s with fcr := { s.fcr with capture := none, furtherRec := false, furtherFatal := false } }
    (captureView s.fcr)

/-- CAPTURE_CLEAR (R170): taken in every engine state. -/
def execCaptureClear (s : State) : Host.Outcome State Fault Refusal :=
  .next (takeRequest 0x37 decodeFiller clearCapture s)

/-! ## The take timer (R107) -/

/-- Step 5 of R107: at three consecutive no-takes the vehicle is fault-stalled RECOVERABLE with NO_TAKE. -/
def noTakeStall (slot : Nat) (s : State) : State :=
  match tblGet s.vht.vehicles slot with
  | some v => if 3 ≤ v.noTakes then setFaultStall slot .recoverable .noTake s else s
  | none => s

/-- The expiry of a vehicle's take timer (R107). -/
def takeExpiry (slot : Nat) (s : State) : State :=
  match tblGet s.vht.vehicles slot with
  | some v =>
    match v.stagedLayer with
    | some (h, _) =>
      noTakeStall slot
        (raiseVehicle .noTake slot (some h) none none
          (updVehicle slot (fun v => { v with noTakes := min 3 (v.noTakes + 1) }) (recallStaged slot s)))
    | none => updVehicle slot (fun v => { v with takeTimer := none }) s
  | none => s

/-- Whether a vehicle's take timer is due. -/
def takeDue (s : State) (slot : Nat) : Bool :=
  match tblGet s.vht.vehicles slot with
  | some v => timerDue v.takeTimer s.now
  | none => false

/-- TAKE_TIMER_EXPIRY (R107). -/
def execTakeTimerExpiry (slot : Nat) (s : State) : Host.Outcome State Fault Refusal :=
  if takeDue s slot then .next (takeExpiry slot s) else .next s

/-- NO_TAKE_LIMIT (R107, step 5): where three consecutive no-takes stand and the fault stall is clear, the stall is set;
and where the take timer is due after two no-takes, its expiry is the third and is taken (log 6). -/
def execNoTakeLimit (slot : Nat) (s : State) : Host.Outcome State Fault Refusal :=
  match tblGet s.vht.vehicles slot with
  | some v =>
    if 3 ≤ v.noTakes ∧ v.faultStall = false then .next (noTakeStall slot s)
    else if v.noTakes = 2 ∧ takeDue s slot = true then .next (takeExpiry slot s)
    else .next s
  | none => .next s

/-! ## Silence and idle levels (R99, R102) -/

/-- The expiry of a vehicle's silence timer (R99). -/
def silenceExpiry (slot : Nat) (s : State) : State :=
  loseVehicle slot (raiseVehicle .vehicleSilent slot (activeHandleAt s slot) none none (dropLink slot .silent s))

/-- Whether a vehicle's silence timer is due. -/
def silenceDue (s : State) (slot : Nat) : Bool :=
  match tblGet s.vht.vehicles slot with
  | some v => timerDue v.silence s.now
  | none => false

/-- SILENCE_TIMER_EXPIRY (R99). -/
def execSilenceTimerExpiry (slot : Nat) (s : State) : Host.Outcome State Fault Refusal :=
  if silenceDue s slot then .next (silenceExpiry slot s) else .next s

/-- PARK_STEP (R102). -/
def execParkStep (slot : Nat) (s : State) : Host.Outcome State Fault Refusal :=
  match tblGet s.vht.vehicles slot with
  | some v =>
    if parkDue s.vht s.now v then .next (updVehicle slot (fun v => { v with idleLevel := .parked }) s) else .next s
  | none => .next s

/-- DORMANT_STEP (R102). -/
def execDormantStep (slot : Nat) (s : State) : Host.Outcome State Fault Refusal :=
  match tblGet s.vht.vehicles slot with
  | some v =>
    if dormDue s.vht s.now v then .next (updVehicle slot (fun v => { v with idleLevel := .dormant }) s) else .next s
  | none => .next s

/-! ## Orphans (R163) and batches (R67) -/

/-- A vehicle that may carry a carrier no order accounts for is fault-stalled (R163, step 3). -/
def orphanStall (slot : Nat) (s : State) : State :=
  match tblGet s.vht.vehicles slot with
  | some v => if v.load = .empty then s else setFaultStall slot .fatal .strayLoad s
  | none => s

/-- The expiry of an order's orphan timer (R163). -/
def orphanExpiry (h : Nat) (s : State) : State :=
  match tblGet s.ort.orders h with
  | some o =>
    match o.loc with
    | some (slot, _) =>
      orphanStall slot
        (raiseVehicle .orphanExpired slot (some h) o.dest none (endOrder h .failed .orphaned s))
    | none => endOrder h .failed .orphaned s
  | none => s

/-- Whether an order's orphan timer is due. -/
def orphanDue (s : State) (h : Nat) : Bool :=
  match tblGet s.ort.orders h with
  | some o => timerDue o.orphan s.now
  | none => false

/-- ORPHAN_TIMER_EXPIRY (R163). -/
def execOrphanTimerExpiry (handle : Nat) (s : State) : Host.Outcome State Fault Refusal :=
  if orphanDue s handle then .next (orphanExpiry handle s) else .next s

/-- BATCH_DONE (R67): where a batch entry's open count stands at 0, the notice is queued and the entry freed. The end of
an order makes this itself, as a part of its own event (log 6). -/
def execBatchDone (tag : Nat) (s : State) : Host.Outcome State Fault Refusal := .next (closeBatch tag s)

end Sys2Proof.Machine
end

