-- ==== Sys2Proof/Machine/Tuning.lean ====
section
/-! DEFINITION. Class weights (R34), the fifteen timing settings (R39, R88, R113, R129, R163, R179), incident routes
(R169) and the intake gate (R46, R180). -/
namespace Sys2Proof.Machine

open Sys2Proof

/-! ## CLASS_WEIGHTS (R34) -/

/-- One class's weight written. -/
def Weights.put (w : Weights) : OrderClass → Weight → Weights
  | .bulk, x => { w with bulk := x }
  | .normal, x => { w with normal := x }
  | .expedite, x => { w with expedite := x }
  | .hot, x => { w with hot := x }

/-- The table with an entry's class written. -/
def putWeight (w : Weights) (e : WeightEntry) : Weights :=
  match orderClassOf e.cls with
  | some c => w.put c ⟨e.base, e.rate⟩
  | none => w

/-- A list of entries each naming its own known number, of 1 to `most` entries. -/
def entriesFit (known : Nat → Bool) (most : Nat) (names : List Nat) : Bool :=
  decide (1 ≤ names.length) && decide (names.length ≤ most) && names.all known && noRepeat names

/-- CLASS_WEIGHTS in RUNNING (R34). -/
def setWeights (es : List WeightEntry) (s : State) : Answered :=
  if entriesFit (fun c => (orderClassOf c).isSome) 4 (es.map (fun e => e.cls)) then
    accept (setExam { s with ort := { s.ort with weights := es.foldl putWeight s.ort.weights } })
      (.weights (es.foldl putWeight s.ort.weights))
  else refuse s .badField

/-! ## TIMING_SET (R179) -/

/-- A value stored under a setting's code, clamped to the setting's range (R39, R88, R113, R129, R163, R186); an enable
of 0 is off and any other value on. -/
def storeSetting (s : State) (e : Nat × Nat) : State :=
  match e.1 with
  | 1 => { s with asa := { s.asa with wPark := clamp 0 1000 e.2 } }
  | 2 => { s with asa := { s.asa with wDorm := clamp 0 1000 e.2 } }
  | 3 => { s with asa := { s.asa with wC := clamp 0 255 e.2 } }
  | 4 => { s with asa := { s.asa with tRescan := clamp 1 100 e.2 } }
  | 5 => { s with asa := { s.asa with chainDepth := clamp 1 2 e.2 } }
  | 6 => { s with vht := { s.vht with tTake := clamp 5 600 e.2 } }
  | 7 => { s with vht := { s.vht with tSilent := clamp 10 600 e.2 } }
  | 8 => { s with vht := { s.vht with tPark := clamp 10 36000 e.2 } }
  | 9 => { s with vht := { s.vht with tDorm := clamp 10 36000 e.2 } }
  | 10 => { s with vht := { s.vht with parkOn := decide (e.2 ≠ 0) } }
  | 11 => { s with vht := { s.vht with dormOn := decide (e.2 ≠ 0) } }
  | 12 => { s with bac := { s.bac with tGrant := clamp 10 1200 e.2 } }
  | 13 => { s with bac := { s.bac with tYield := clamp 10 3000 e.2 } }
  | 14 => { s with bac := { s.bac with tEntry := clamp 50 18000 e.2 } }
  | 15 => { s with fcr := { s.fcr with tOrphan := clamp 100 36000 e.2 } }
  | _ => s

/-- All fifteen settings as they stand, in increasing setting code (R179, R185). -/
def settings (s : State) : List (Nat × Nat) :=
  [(1, s.asa.wPark), (2, s.asa.wDorm), (3, s.asa.wC), (4, s.asa.tRescan), (5, s.asa.chainDepth), (6, s.vht.tTake),
    (7, s.vht.tSilent), (8, s.vht.tPark), (9, s.vht.tDorm), (10, if s.vht.parkOn then 1 else 0),
    (11, if s.vht.dormOn then 1 else 0), (12, s.bac.tGrant), (13, s.bac.tYield), (14, s.bac.tEntry),
    (15, s.fcr.tOrphan)]

/-- Whether new settings of the arbiter are a change of a grant input (R39, R70, R88). -/
def grantSettingsChanged (old new : Arbiter) : Bool :=
  decide (old.wPark ≠ new.wPark) || decide (old.wDorm ≠ new.wDorm) || decide (old.wC ≠ new.wC) ||
    decide (old.chainDepth < new.chainDepth)

/-- Whether the settings of the idle levels changed (R102). -/
def idleSettingsChanged (old new : VehicleTable) : Bool :=
  decide (old.tPark ≠ new.tPark) || decide (old.tDorm ≠ new.tDorm) || decide (old.parkOn ≠ new.parkOn) ||
    decide (old.dormOn ≠ new.dormOn)

/-- The idle levels of every vehicle retimed (R102). -/
def retimeAll (s : State) : State :=
  { s with vht := { s.vht with vehicles := tblMap (fun _ v => retimed s.vht s.now v) s.vht.vehicles } }

/-- Stored values act as their owners' rules state (R39, R88, R102): `old` is the state before them. -/
def settingsAct (old new : State) : State :=
  setExamIf (grantSettingsChanged old.asa new.asa) (if idleSettingsChanged old.vht new.vht then retimeAll new else new)

/-- TIMING_SET in RUNNING (R179). -/
def setTimings (es : List (Nat × Nat)) (s : State) : Answered :=
  if entriesFit (fun c => decide (1 ≤ c) && decide (c ≤ 15)) 15 (es.map (fun e => e.1)) then
    accept (settingsAct s (es.foldl storeSetting s)) (.timing (settings (es.foldl storeSetting s)))
  else refuse s .badField

/-! ## INCIDENT_ROUTE (R169) -/

/-- The routes with an entry's class written. -/
def putRoute (routes : List NoticeSeverity) (e : Nat × Nat) : List NoticeSeverity :=
  match incidentClassOf e.1, noticeSeverityOf e.2 with
  | some c, some sev => routes.set (c.code - 1) sev
  | _, _ => routes

/-- INCIDENT_ROUTE in RUNNING (R169). -/
def setRoutes (es : List (Nat × Nat)) (s : State) : Answered :=
  if entriesFit (fun c => (incidentClassOf c).isSome) 12 (es.map (fun e => e.1)) &&
      es.all (fun e => (noticeSeverityOf e.2).isSome) then
    accept { s with fcr := { s.fcr with routes := es.foldl putRoute s.fcr.routes } }
      (.routes (es.foldl putRoute s.fcr.routes))
  else refuse s .badField

/-! ## INTAKE_GATE (R180) -/

/-- INTAKE_GATE in RUNNING (R180). -/
def setGate (g : Nat) (s : State) : Answered :=
  if g ≤ 7 then
    accept { s with ort := { s.ort with gate := g } } (.gate g (liveCount s.ort) (!intakeClosed g (liveCount s.ort)))
  else refuse s .badField

/-! ## Rows -/

/-- CLASS_WEIGHTS (R34). -/
def execClassWeights (s : State) : Host.Outcome State Fault Refusal :=
  .next (takeRequest 0x13 decodeClassWeights (whenRunning setWeights) s)

/-- TIMING_SET (R179). -/
def execTimingSet (s : State) : Host.Outcome State Fault Refusal :=
  .next (takeRequest 0x14 decodeTimingSet (whenRunning setTimings) s)

/-- INCIDENT_ROUTE (R169). -/
def execIncidentRoute (s : State) : Host.Outcome State Fault Refusal :=
  .next (takeRequest 0x15 decodeIncidentRoute (whenRunning setRoutes) s)

/-- INTAKE_GATE (R180). -/
def execIntakeGate (s : State) : Host.Outcome State Fault Refusal :=
  .next (takeRequest 0x16 decodeU8 (whenRunning setGate) s)

end Sys2Proof.Machine
end

