-- ==== Sys2Proof/Machine/Vehicles.lean ====
section
/-! DEFINITION. The host's vehicle requests (R101, R103, R105, R106, R109, R110). -/
namespace Sys2Proof.Machine

open Sys2Proof

/-- A request that names a vehicle by fleet id: BAD_FIELD for 0 and 65535, NOT_FOUND where the map does not hold it. -/
def onVehicle (fleetId : Nat) (act : Nat → Vehicle → State → Answered) (s : State) : Answered :=
  if fleetIdValid fleetId then
    match slotOf s.vht fleetId with
    | some slot =>
      match tblGet s.vht.vehicles slot with
      | some v => act slot v s
      | none => refuse s .notFound
    | none => refuse s .notFound
  else refuse s .badField

/-- VEHICLE_STALL (R103): the host stall, STALLED, and the recall of a staged order. -/
def stallVehicle (slot : Nat) (v : Vehicle) (s : State) : Answered :=
  if v.hostStall then accept s .none
  else
    accept
      (recallStaged slot (vehicleNotice slot .stalled (updVehicle slot (fun v => { v with hostStall := true }) s)))
      .none

/-- VEHICLE_UNSTALL (R103): RELEASED and the examination-pending flag. -/
def unstallVehicle (slot : Nat) (v : Vehicle) (s : State) : Answered :=
  if v.hostStall then
    accept (setExam (vehicleNotice slot .released (updVehicle slot (fun v => { v with hostStall := false }) s))) .none
  else accept s .none

/-- A carrier on board with no ACTIVE layer (R106, check 4). -/
def Vehicle.unaccounted (v : Vehicle) : Bool := decide (v.load ≠ .empty) && v.activeLayer.isNone

/-- VEHICLE_CLEARFAULT (R106). -/
def clearFault (slot : Nat) (v : Vehicle) (s : State) : Answered :=
  if !v.faultStall then accept s .none
  else if v.unaccounted then refuse s .wrongState
  else accept (clearFaultStall slot s) .none

/-- VEHICLE_AUTORELEASE of a vehicle in the map (R105). -/
def setAutoRelease (value : Bool) (slot : Nat) (v : Vehicle) (s : State) : Answered :=
  if value && v.faultStall then refuse s .wrongState
  else accept (updVehicle slot (fun v => { v with autoRelease := value }) s) .none

/-- VEHICLE_AUTORELEASE (R105): a value other than ON and OFF is refused before the map is read. -/
def autoRelease (r : VehicleNumReq) (s : State) : Answered :=
  match flagOf r.value with
  | some value => onVehicle r.fleetId (setAutoRelease value) s
  | none => refuse s .badField

/-- VEHICLE_GROUPS (R109): a change of mask is a change of a grant input. -/
def setGroups (mask : BitVec 8) (slot : Nat) (v : Vehicle) (s : State) : Answered :=
  accept (setExamIf (decide (v.groupMask ≠ mask)) (updVehicle slot (fun v => { v with groupMask := mask }) s))
    (.groups mask)

/-- The state of the order a layer holds. -/
def layerOrder (t : OrderTable) : Layer → Option OrderState
  | .empty => none
  | .staged h => (tblGet t.orders h).map (fun o => o.state)
  | .active h => (tblGet t.orders h).map (fun o => o.state)

/-- The record of a held slot as VEHICLE_QUERY gives it (R110). -/
def vehicleView (slot : Nat) (v : Vehicle) (s : State) : ReplyPayload :=
  .vehicle slot v (layerOrder s.ort v.layer0) (layerOrder s.ort v.layer1)

/-- VEHICLE_QUERY (R110), by fleet id with selector 0 and by slot with selector 1. -/
def queryVehicle (r : SelectReq) (s : State) : Answered :=
  match r.selector with
  | 0 => onVehicle r.number (fun slot v s => accept s (vehicleView slot v s)) s
  | 1 =>
    if r.number < 64 then
      match tblGet s.vht.vehicles r.number with
      | some v => accept s (vehicleView r.number v s)
      | none => accept s (.vehicleFree r.number)
    else refuse s .badField
  | _ => refuse s .badField

/-- The slot of a retired vehicle is freed; its places in bay admission are removed, and each bay grants from its queue
(R101). -/
def freeSlot (slot : Nat) (s : State) : State :=
  leaveBaysGranting (admittedBays s.bac slot) slot
    { s with vht := { s.vht with vehicles := tblErase s.vht.vehicles slot } }

/-- VEHICLE_RETIRE of a vehicle in the map (R101). -/
def retireVehicle (slot : Nat) (v : Vehicle) (s : State) : Answered :=
  if v.online then refuse s .wrongState
  else if !v.bothEmpty then refuse s .tooLate
  else accept (freeSlot slot s) .none

/-! ## Rows -/

/-- VEHICLE_STALL (R103). -/
def execVehicleStall (s : State) : Host.Outcome State Fault Refusal :=
  .next (takeRequest 0x30 decodeU16 (whenRunning (fun f => onVehicle f stallVehicle)) s)

/-- VEHICLE_UNSTALL (R103). -/
def execVehicleUnstall (s : State) : Host.Outcome State Fault Refusal :=
  .next (takeRequest 0x31 decodeU16 (whenRunning (fun f => onVehicle f unstallVehicle)) s)

/-- VEHICLE_CLEARFAULT (R106). -/
def execVehicleClearfault (s : State) : Host.Outcome State Fault Refusal :=
  .next (takeRequest 0x32 decodeU16 (whenRunning (fun f => onVehicle f clearFault)) s)

/-- VEHICLE_AUTORELEASE (R105). -/
def execVehicleAutorelease (s : State) : Host.Outcome State Fault Refusal :=
  .next (takeRequest 0x33 decodeVehicleNum (whenRunning autoRelease) s)

/-- VEHICLE_GROUPS (R109). -/
def execVehicleGroups (s : State) : Host.Outcome State Fault Refusal :=
  .next (takeRequest 0x34 decodeVehicleNum
    (whenRunning (fun r => onVehicle r.fleetId (setGroups (BitVec.ofNat 8 r.value)))) s)

/-- VEHICLE_QUERY (R110). -/
def execVehicleQuery (s : State) : Host.Outcome State Fault Refusal :=
  .next (takeRequest 0x35 decodeSelect (whenRunning queryVehicle) s)

/-- VEHICLE_RETIRE (R101). -/
def execVehicleRetire (s : State) : Host.Outcome State Fault Refusal :=
  .next (takeRequest 0x36 decodeU16 (whenRunning (fun f => onVehicle f retireVehicle)) s)

end Sys2Proof.Machine
end

