-- ==== Sys2Proof/Machine/Dispatch.lean ====
section
/-! DEFINITION. The meaning of each row of the table. -/
namespace Sys2Proof.Machine

open Sys2Proof

def exec (i : Instr) (s : State) : Host.Outcome State Fault Refusal :=
  match i with
  | .powerOnReset => Sys2Proof.Machine.execPowerOnReset s
  | .gwrdyFall => Sys2Proof.Machine.execGwrdyFall s
  | .gwrdyRise => Sys2Proof.Machine.execGwrdyRise s
  | .hostFrameReceived bytes => Sys2Proof.Machine.execHostFrameReceived bytes s
  | .busyMarkReply => Sys2Proof.Machine.execBusyMarkReply s
  | .badKind => Sys2Proof.Machine.execBadKind s
  | .replyTransmit => Sys2Proof.Machine.execReplyTransmit s
  | .noticeTransmit => Sys2Proof.Machine.execNoticeTransmit s
  | .layoutOpen => Sys2Proof.Machine.execLayoutOpen s
  | .loopDef => Sys2Proof.Machine.execLoopDef s
  | .bayDef => Sys2Proof.Machine.execBayDef s
  | .portDef => Sys2Proof.Machine.execPortDef s
  | .layoutClose => Sys2Proof.Machine.execLayoutClose s
  | .layoutLock => Sys2Proof.Machine.execLayoutLock s
  | .portState => Sys2Proof.Machine.execPortState s
  | .bayTune => Sys2Proof.Machine.execBayTune s
  | .reserveSet => Sys2Proof.Machine.execReserveSet s
  | .classWeights => Sys2Proof.Machine.execClassWeights s
  | .timingSet => Sys2Proof.Machine.execTimingSet s
  | .incidentRoute => Sys2Proof.Machine.execIncidentRoute s
  | .intakeGate => Sys2Proof.Machine.execIntakeGate s
  | .orderPlace => Sys2Proof.Machine.execOrderPlace s
  | .orderHold => Sys2Proof.Machine.execOrderHold s
  | .orderRelease => Sys2Proof.Machine.execOrderRelease s
  | .orderCancel => Sys2Proof.Machine.execOrderCancel s
  | .orderRetarget => Sys2Proof.Machine.execOrderRetarget s
  | .orderResource => Sys2Proof.Machine.execOrderResource s
  | .orderQuery => Sys2Proof.Machine.execOrderQuery s
  | .orderClear => Sys2Proof.Machine.execOrderClear s
  | .demandAck => Sys2Proof.Machine.execDemandAck s
  | .demandDrop => Sys2Proof.Machine.execDemandDrop s
  | .batchQuery => Sys2Proof.Machine.execBatchQuery s
  | .vehicleStall => Sys2Proof.Machine.execVehicleStall s
  | .vehicleUnstall => Sys2Proof.Machine.execVehicleUnstall s
  | .vehicleClearfault => Sys2Proof.Machine.execVehicleClearfault s
  | .vehicleAutorelease => Sys2Proof.Machine.execVehicleAutorelease s
  | .vehicleGroups => Sys2Proof.Machine.execVehicleGroups s
  | .vehicleQuery => Sys2Proof.Machine.execVehicleQuery s
  | .vehicleRetire => Sys2Proof.Machine.execVehicleRetire s
  | .shelfSet => Sys2Proof.Machine.execShelfSet s
  | .shelfQuery => Sys2Proof.Machine.execShelfQuery s
  | .surveySetup => Sys2Proof.Machine.execSurveySetup s
  | .surveyStart => Sys2Proof.Machine.execSurveyStart s
  | .surveyStop => Sys2Proof.Machine.execSurveyStop s
  | .status => Sys2Proof.Machine.execStatus s
  | .restart => Sys2Proof.Machine.execRestart s
  | .restartEffect => Sys2Proof.Machine.execRestartEffect s
  | .captureRead => Sys2Proof.Machine.execCaptureRead s
  | .captureClear => Sys2Proof.Machine.execCaptureClear s
  | .fleetFrameReceived bytes => Sys2Proof.Machine.execFleetFrameReceived bytes s
  | .fleetFrameDrop => Sys2Proof.Machine.execFleetFrameDrop s
  | .fleetCommandTransmit => Sys2Proof.Machine.execFleetCommandTransmit s
  | .hello => Sys2Proof.Machine.execHello s
  | .pos => Sys2Proof.Machine.execPos s
  | .taken => Sys2Proof.Machine.execTaken s
  | .pickBegin => Sys2Proof.Machine.execPickBegin s
  | .pickEnd => Sys2Proof.Machine.execPickEnd s
  | .placeBegin => Sys2Proof.Machine.execPlaceBegin s
  | .placeEnd => Sys2Proof.Machine.execPlaceEnd s
  | .triggerBFire => Sys2Proof.Machine.execTriggerBFire s
  | .batchDone tag => Sys2Proof.Machine.execBatchDone tag s
  | .aborted => Sys2Proof.Machine.execAborted s
  | .abortLate => Sys2Proof.Machine.execAbortLate s
  | .fault => Sys2Proof.Machine.execFault s
  | .ready => Sys2Proof.Machine.execReady s
  | .entryAsk => Sys2Proof.Machine.execEntryAsk s
  | .exit => Sys2Proof.Machine.execExit s
  | .arrived => Sys2Proof.Machine.execArrived s
  | .bye => Sys2Proof.Machine.execBye s
  | .grantStep => Sys2Proof.Machine.execGrantStep s
  | .rescanTimerExpiry => Sys2Proof.Machine.execRescanTimerExpiry s
  | .takeTimerExpiry slot => Sys2Proof.Machine.execTakeTimerExpiry slot s
  | .noTakeLimit slot => Sys2Proof.Machine.execNoTakeLimit slot s
  | .silenceTimerExpiry slot => Sys2Proof.Machine.execSilenceTimerExpiry slot s
  | .parkStep slot => Sys2Proof.Machine.execParkStep slot s
  | .dormantStep slot => Sys2Proof.Machine.execDormantStep slot s
  | .lapseTimerExpiry bay slot => Sys2Proof.Machine.execLapseTimerExpiry bay slot s
  | .yieldTimerExpiry bay => Sys2Proof.Machine.execYieldTimerExpiry bay s
  | .starvationTimerExpiry bay slot => Sys2Proof.Machine.execStarvationTimerExpiry bay slot s
  | .surveyTimerExpiry => Sys2Proof.Machine.execSurveyTimerExpiry s
  | .surveyBayStep => Sys2Proof.Machine.execSurveyBayStep s
  | .orphanTimerExpiry handle => Sys2Proof.Machine.execOrphanTimerExpiry handle s

end Sys2Proof.Machine
end

