-- ==== Sys2Proof/Machine/Idle.lean ====
section
/-! DEFINITION. What the engine does when no command waits (00 section 4.6; logs 2 and 3): the steps its blocks take of
their own accord, the timers that expire, and the passage of engine time. -/
namespace Sys2Proof.Machine

open Sys2Proof

/-! ## The steps that are due -/

/-- A step, where its condition holds. -/
def stepIf (b : Bool) (i : Instr) : List Instr := if b then [i] else []

/-- The row that takes the head of the host input queue (R173, R174). -/
def hostStep (s : State) : List Instr :=
  match hostHead s with
  | some (.mark _) => [.busyMarkReply]
  | some (.frame body) =>
    match hostRow (bodyKind body) with
    | some i => [i]
    | none => [.badKind]
  | none => []

/-- The row that takes the head of the fleet input queue (R177). -/
def fleetStep (s : State) : List Instr :=
  match s.liu.fleetIn with
  | body :: _ =>
    match fleetRow (bodyKind body) (bodyPayload body) with
    | some i => [i]
    | none => [.fleetFrameDrop]
  | [] => []

/-- The line interface's steps (R174, R175, R177, R181). -/
def lineSteps (s : State) : List Instr :=
  hostStep s ++ fleetStep s ++ stepIf s.liu.replySlot.isSome .replyTransmit ++
    stepIf (mayTake s && !s.liu.notices.isEmpty) .noticeTransmit ++
    stepIf (s.gwrdy && !s.liu.fleetOut.isEmpty) .fleetCommandTransmit ++
    stepIf (s.liu.restartPending && decide (s.liu.replySlot = none)) .restartEffect

/-- The steps the blocks take of their own accord, each at a moment the manual leaves open: the line interface's, the
arbiter's and the sequencer's (R71, R152). -/
def ownSteps (s : State) : List Instr :=
  lineSteps s ++ stepIf (decide (s.lyt.opState = .running) && s.asa.examPending) .grantStep ++
    stepIf (decide (s.iss.state = .surveying)) .surveyBayStep

/-- The arbiter's and the sequencer's timers (R72, R149). -/
def blockTimers (s : State) : List Instr :=
  stepIf (timerDue s.asa.rescan s.now) .rescanTimerExpiry ++ stepIf (timerDue s.iss.timer s.now) .surveyTimerExpiry

/-- The timers of one vehicle (R99, R102, R107). -/
def vehicleSteps (s : State) (slot : Nat) (v : Vehicle) : List Instr :=
  stepIf (timerDue v.takeTimer s.now) (.takeTimerExpiry slot) ++
    stepIf (timerDue v.silence s.now) (.silenceTimerExpiry slot) ++
    stepIf (parkDue s.vht s.now v) (.parkStep slot) ++ stepIf (dormDue s.vht s.now v) (.dormantStep slot)

/-- The timers of one bay (R122, R125, R127). -/
def baySteps (s : State) (b : Nat) (y : BayState) : List Instr :=
  (y.admitted.filter (fun e => !e.inside && timerDue e.lapse s.now)).map (fun e => .lapseTimerExpiry b e.slot) ++
    stepIf (timerDue y.yield s.now) (.yieldTimerExpiry b) ++
    (y.queue.filter (fun w => timerDue w.starve s.now)).map (fun w => .starvationTimerExpiry b w.slot)

/-- The timers that expire at engine time now (R1). -/
def timerSteps (s : State) : List Instr :=
  blockTimers s ++ (s.vht.vehicles.map (fun e => vehicleSteps s e.1 e.2)).flatten ++
    (s.bac.bays.map (fun e => baySteps s e.1 e.2)).flatten ++
    (s.ort.orders.filter (fun e => timerDue e.2.orphan s.now)).map (fun e => .orphanTimerExpiry e.1)

/-- The steps that are due at engine time now. -/
def dueSteps (s : State) : List Instr := ownSteps s ++ timerSteps s

/-! ## Idling -/

/-- The one of these steps that is taken at this choice: the manual gives no order among them (log 3). -/
def pickStep (choice : Nat) (steps : List Instr) : List Instr :=
  (steps.drop (Config.stepPick choice % steps.length)).take 1

/-- Engine time advances by one decisecond, up to its largest value (00 section 4.2); the frames that were being sent
have left (log 7). -/
def tick (s : State) : State :=
  { s with now := satTime (s.now + 1), liu := { s.liu with hostTx := none, fleetTx := none } }

/-- Whether engine time passes before the steps that are due: where none is, and, as this choice has it, where no timer
is (R71, R152: other events may come between two steps; log 2). -/
def waits (s : State) : Bool :=
  (dueSteps s).isEmpty || ((timerSteps s).isEmpty && Config.timePasses s.choices)

/-- No command waits: engine time advances, or one of the steps that are due is queued (log 2). -/
def idle (s : State) : State :=
  if waits s then { tick s with choices := s.choices + 1 }
  else { s with pending := pickStep s.choices (dueSteps s), choices := s.choices + 1 }

end Sys2Proof.Machine
end

