-- ==== Sys2Proof/Machine/Step.lean ====
section
/-! DEFINITION. One step of the engine: the command at the front of the queue, or the engine's own time. -/
namespace Sys2Proof.Machine

open Sys2Proof

/-- One step: the command at the front of the queue is executed with the queue's rest; on an empty queue the engine
takes what is due, or lets engine time pass (log 2). -/
def step (s : State) : Host.Outcome State Fault Refusal :=
  match s.pending with
  | c :: rest => exec c { s with pending := rest }
  | [] => .next (idle s)

/-- The state with the command that a word spells put at the front of its queue; unchanged where it spells none
(log 8). -/
def State.withFetchWord (s : State) (nbits w : Nat) : State :=
  match decodeTableWord nbits w with
  | some c => { s with pending := c :: s.pending }
  | none => s

end Sys2Proof.Machine
end

