-- ==== Sys2Proof/Safety.lean ====
section
/-! DEFINITION. The terms that statements use: what waits on a line, what an answered request or a taken report leaves,
the states that are safe, and the payloads of the forms with optional fields. -/
namespace Sys2Proof.Machine

open Sys2Proof

/-! ## Requests -/

/-- A request frame of this kind, frame tag and payload is at the head of the host input queue, the reply slot is empty
and no RESTART awaits its effect (R174). -/
def requestWaits (s : State) (kind tag : Nat) (payload : List Byte) : Prop :=
  s.liu.replySlot = none ∧ s.liu.restartPending = false ∧
    ∃ (k t0 t1 : Byte) (rest : List HostItem),
      s.liu.hostQueue = .frame (k :: t0 :: t1 :: payload) :: rest ∧ u8 k = kind ∧ u16 t0 t1 = tag

/-- The same in RUNNING. -/
def askedRunning (s : State) (kind tag : Nat) (payload : List Byte) : Prop :=
  s.lyt.opState = .running ∧ requestWaits s kind tag payload

/-- The head of the host input queue gone, and this reply in the reply slot: its kind is the request's plus 0x80 (R175,
R185). -/
def replied (kind tag : Nat) (status : Status) (payload : ReplyPayload) (s : State) : State :=
  { s with
    liu := { s.liu with
      hostQueue := s.liu.hostQueue.tail
      replySlot := some { kind := kind + 0x80, tag := tag, status := status, payload := payload } } }

/-- How many request frames wait in the host input queue (R174). -/
def waitingFrames (q : List HostItem) : Nat :=
  (q.filter (fun i => match i with | .frame _ => true | .mark _ => false)).length

/-- How many BUSY marks the host input queue holds (R174). -/
def heldMarks (q : List HostItem) : Nat :=
  (q.filter (fun i => match i with | .frame _ => false | .mark _ => true)).length

/-- Whether a payload has the form of its request kind (R184, R186, section 11.3). -/
def requestFits (kind : Nat) (payload : List Byte) : Bool :=
  match kind with
  | 0x01 => (decodeLayoutOpen payload).isSome | 0x02 => (decodeLoopDef payload).isSome
  | 0x03 => (decodeBayDef payload).isSome | 0x04 => (decodePortDef payload).isSome
  | 0x05 => (decodeFiller payload).isSome | 0x06 => (decodeFiller payload).isSome
  | 0x10 => (decodeBayTune payload).isSome | 0x11 => (decodeReserveSet payload).isSome
  | 0x12 => (decodePortState payload).isSome | 0x13 => (decodeClassWeights payload).isSome
  | 0x14 => (decodeTimingSet payload).isSome | 0x15 => (decodeIncidentRoute payload).isSome
  | 0x16 => (decodeU8 payload).isSome | 0x20 => (decodeOrderPlace payload).isSome
  | 0x21 => (decodeOrderRef payload).isSome | 0x22 => (decodeOrderRef payload).isSome
  | 0x23 => (decodeOrderRef payload).isSome | 0x24 => (decodeOrderRetarget payload).isSome
  | 0x25 => (decodeOrderResource payload).isSome | 0x26 => (decodeOrderRef payload).isSome
  | 0x27 => (decodeOrderRef payload).isSome | 0x28 => (decodeDemandAck payload).isSome
  | 0x29 => (decodeOrderRef payload).isSome | 0x2A => (decodeU16 payload).isSome
  | 0x30 => (decodeU16 payload).isSome | 0x31 => (decodeU16 payload).isSome | 0x32 => (decodeU16 payload).isSome
  | 0x33 => (decodeVehicleNum payload).isSome | 0x34 => (decodeVehicleNum payload).isSome
  | 0x35 => (decodeSelect payload).isSome | 0x36 => (decodeU16 payload).isSome
  | 0x37 => (decodeFiller payload).isSome | 0x38 => (decodeShelfSet payload).isSome
  | 0x39 => (decodeSelect payload).isSome | 0x3A => (decodeSurveySetup payload).isSome
  | 0x3B => (decodeFiller payload).isSome | 0x3C => (decodeFiller payload).isSome
  | 0x3D => (decodeFiller payload).isSome | 0x3E => (decodeFiller payload).isSome
  | 0x3F => (decodeFiller payload).isSome
  | _ => false

/-- How long the payload of a request kind of fixed size is (R184, R186, section 11.3); none for the kinds with optional
fields or a list. -/
def fixedSize (kind : Nat) : Option Nat :=
  match kind with
  | 0x01 => some 3 | 0x02 => some 3 | 0x03 => some 20 | 0x04 => some 8 | 0x05 => some 1 | 0x06 => some 1
  | 0x11 => some 4 | 0x12 => some 3 | 0x16 => some 1 | 0x21 => some 5 | 0x22 => some 5 | 0x23 => some 5
  | 0x24 => some 8 | 0x25 => some 7 | 0x26 => some 5 | 0x27 => some 5 | 0x28 => some 6 | 0x29 => some 5
  | 0x2A => some 2 | 0x30 => some 2 | 0x31 => some 2 | 0x32 => some 2 | 0x33 => some 3 | 0x34 => some 3
  | 0x35 => some 3 | 0x36 => some 2 | 0x37 => some 1 | 0x39 => some 3 | 0x3A => some 9 | 0x3B => some 1
  | 0x3C => some 1 | 0x3D => some 1 | 0x3E => some 1 | 0x3F => some 1
  | _ => none

/-- The requests that R4 does not refuse outside RUNNING: the layout records, CAPTURE_CLEAR, STATUS and
CAPTURE_READ. -/
def takenInEveryState (kind : Nat) : Bool := [0x01, 0x02, 0x03, 0x04, 0x05, 0x37, 0x3D, 0x3F].contains kind

/-- The layout record a request is, other than LAYOUT_OPEN, with the number it carries (R5). -/
def recordOf (kind : Nat) (payload : List Byte) : Option LayoutRecord :=
  match kind with
  | 0x02 => some .loopDef
  | 0x03 => some (.bayDef (u8 (payload.getD 0 0#8)))
  | 0x04 => some (.portDef (u16 (payload.getD 0 0#8) (payload.getD 1 0#8)))
  | 0x05 => some .layoutClose
  | _ => none

/-- A setting by its code (R179, R186): an enable as 1 for on and 0 for off. -/
def settingOf (s : State) (code : Nat) : Nat :=
  match code with
  | 1 => s.asa.wPark | 2 => s.asa.wDorm | 3 => s.asa.wC | 4 => s.asa.tRescan | 5 => s.asa.chainDepth
  | 6 => s.vht.tTake | 7 => s.vht.tSilent | 8 => s.vht.tPark | 9 => s.vht.tDorm
  | 10 => if s.vht.parkOn then 1 else 0 | 11 => if s.vht.dormOn then 1 else 0
  | 12 => s.bac.tGrant | 13 => s.bac.tYield | 14 => s.bac.tEntry | 15 => s.fcr.tOrphan
  | _ => 0

/-- The lower and the upper end of a setting's range (R39, R88, R113, R129, R163). -/
def settingRange (code : Nat) : Nat × Nat :=
  match code with
  | 1 => (0, 1000) | 2 => (0, 1000) | 3 => (0, 255) | 4 => (1, 100) | 5 => (1, 2) | 6 => (5, 600) | 7 => (10, 600)
  | 8 => (10, 36000) | 9 => (10, 36000) | 10 => (0, 1) | 11 => (0, 1) | 12 => (10, 1200) | 13 => (10, 3000)
  | 14 => (50, 18000) | 15 => (100, 36000)
  | _ => (0, 0)

/-- A value as it is stored under a setting's code: below the range the lower end, above it the upper end. -/
def clampSetting (code value : Nat) : Nat :=
  if value < (settingRange code).1 then (settingRange code).1
  else if (settingRange code).2 < value then (settingRange code).2
  else value

/-- The shelf record a SHELF_SET declares, none where its state, flag or tag is refused (R142): FREE takes no notice of
flag and tag. -/
def declaredShelf (r : ShelfSetReq) : Option Shelf :=
  if r.state = 0 then some { state := .free, tag := none, emptyFlag := false, claim := none }
  else if r.state = 2 ∧ r.emptyFlag ≤ 1 ∧ (∀ t ∈ r.tag, tagValid t = true) then
    some { state := .held, tag := r.tag, emptyFlag := decide (r.emptyFlag = 1), claim := none }
  else none

/-- The idle level of a vehicle after a TIMING_SET that has left the vehicle table's settings as in `t`, those before
being those of `old` (R102): with no change of T_park, T_dorm or an enable the level it has, and otherwise a step whose
new time is at or before now is taken. -/
def retimedLevel (old t : VehicleTable) (now : Nat) (v : Vehicle) : IdleLevel :=
  if t.tPark = old.tPark ∧ t.tDorm = old.tDorm ∧ t.parkOn = old.parkOn ∧ t.dormOn = old.dormOn then v.idleLevel
  else if v.activity = .idle ∧ t.dormOn = true ∧ min 4294967295 (v.idleSince + t.tPark + t.tDorm) ≤ now then .dormant
  else if v.activity = .idle ∧ t.parkOn = true ∧ v.idleLevel = .ready ∧ min 4294967295 (v.idleSince + t.tPark) ≤ now then
    .parked
  else v.idleLevel

/-! ## Reports -/

/-- A report frame of this kind and payload is at the head of the fleet input queue, from the vehicle `v` in `slot`,
which is ONLINE (R98, R177). -/
def reportWaits (s : State) (kind slot : Nat) (v : Vehicle) (payload : List Byte) : Prop :=
  (∃ (k f0 f1 : Byte) (rest : List (List Byte)),
    s.liu.fleetIn = (k :: f0 :: f1 :: payload) :: rest ∧ u8 k = kind ∧ slotOf s.vht (u16 f0 f1) = some slot) ∧
  tblGet s.vht.vehicles slot = some v ∧ v.link = .online

/-- The vehicle as a frame from it has been taken: its silence timer restarted for T_silent (R99). -/
def heardVehicle (s : State) (v : Vehicle) : Vehicle :=
  { v with silence := some { start := s.now, expiry := min 4294967295 (s.now + s.vht.tSilent) } }

/-- The head of the fleet input queue gone and the record of the vehicle in `slot` now `v`. -/
def reported (slot : Nat) (v : Vehicle) (s : State) : State :=
  { s with
    liu := { s.liu with fleetIn := s.liu.fleetIn.tail }
    vht := { s.vht with vehicles := tblSet s.vht.vehicles slot v } }

/-! ## Frames of an event -/

/-- What no event about orders and vehicles touches: time, the pin, the layout, the sequencer, the settings, the routes,
the reserves, the model's own fields, and of the lines everything but the notice queue and the fleet output queue. -/
structure Framed (s t : State) : Prop where
  now : t.now = s.now
  gwrdy : t.gwrdy = s.gwrdy
  lyt : t.lyt = s.lyt
  iss : t.iss = s.iss
  pending : t.pending = s.pending
  choices : t.choices = s.choices
  lines : t.liu =
    { s.liu with notices := t.liu.notices, gapMark := t.liu.gapMark, fleetOut := t.liu.fleetOut }
  ort : t.ort = { s.ort with orders := t.ort.orders, batches := t.ort.batches }
  asa : t.asa = { s.asa with examPending := t.asa.examPending, rescan := t.asa.rescan }
  vht : t.vht = { s.vht with vehicles := t.vht.vehicles }
  bac : t.bac = { s.bac with bays := t.bac.bays }
  reserves : t.shm.reserves = s.shm.reserves
  routes : t.fcr.routes = s.fcr.routes
  tOrphan : t.fcr.tOrphan = s.fcr.tOrphan

/-- Every order but the one in entry `h` is as it was. -/
def otherOrdersKept (h : Nat) (s t : State) : Prop := ∀ k, k ≠ h → tblGet t.ort.orders k = tblGet s.ort.orders k

/-- Every vehicle but the one in `slot` is as it was. -/
def otherVehiclesKept (slot : Nat) (s t : State) : Prop :=
  ∀ k, k ≠ slot → tblGet t.vht.vehicles k = tblGet s.vht.vehicles k

/-- Every bay but `b` has its places as they were. -/
def otherBaysKept (b : Nat) (s t : State) : Prop := ∀ c, c ≠ b → tblGet t.bac.bays c = tblGet s.bac.bays c

/-! ## Orders -/

/-- A request of this kind in RUNNING names the order `o` in entry `h` by handle and host tag (R48); `extra` is what
follows in its payload. -/
def asksOrder (s : State) (kind tag h : Nat) (o : Order) (extra : List Byte) : Prop :=
  ∃ b t0 t1 t2 t3 : Byte, askedRunning s kind tag (b :: t0 :: t1 :: t2 :: t3 :: extra) ∧ u8 b = h ∧
    tblGet s.ort.orders h = some o ∧ o.hostTag = u32 t0 t1 t2 t3

/-- The fields of an ORDER_PLACE are in their ranges and allowed for its kind (R42, R43, check 2 of R44). -/
structure PlaceFieldsAllowed (l : Layout) (r : OrderPlaceReq) : Prop where
  codes : r.kind ≤ 4 ∧ r.trigger ≤ 1 ∧ r.cls ≤ 3
  targeting : (r.targeting = 0 ∧ 1 ≤ r.target ∧ r.target ≤ 65534) ∨ (r.targeting = 1 ∧ r.target % 256 ≠ 0)
  portSource : r.kind = 0 ∨ r.kind = 1 ∨ r.kind = 4 → r.source.type = 0 ∧ r.source.number < l.portCount
  noSource : r.kind = 2 ∨ r.kind = 3 → r.source.type = 0xFF
  portDest : r.kind = 0 ∨ r.kind = 2 ∨ r.kind = 3 → r.dest.type = 0 ∧ r.dest.number < l.portCount
  bayDest : r.kind = 1 → r.dest.type = 2 ∧ r.dest.number < l.bayCount
  noDest : r.kind = 4 → r.dest.type = 0xFF
  differ : r.kind = 0 → r.source.number ≠ r.dest.number
  tagGiven : r.kind ≤ 2 → r.carrierTag ≠ none
  noTag : r.kind = 3 → r.carrierTag = none
  tagForm : ∀ t, r.carrierTag = some t → tagValid t = true
  standing : r.trigger = 1 → r.kind = 3 ∧ r.batchTag = none
  limit : r.reachLimit ≠ some 0

/-- A live order has the host tag or the carrier tag of an ORDER_PLACE (check 3 of R44). -/
def placeRepeats (s : State) (r : OrderPlaceReq) : Prop :=
  ∃ e ∈ s.ort.orders, e.2.state.live = true ∧
    (e.2.hostTag = r.hostTag ∨ (r.carrierTag ≠ none ∧ e.2.carrierTag = r.carrierTag))

/-- A RETRIEVE names a tag that no HELD shelf holds, or a DIRECT order a fleet id not in the map (check 4 of R44). -/
def placeUnknown (s : State) (r : OrderPlaceReq) : Prop :=
  (r.kind = 2 ∧ ∀ e ∈ s.shm.shelves, e.2.state = .held → e.2.tag ≠ r.carrierTag) ∨
    (r.targeting = 0 ∧ slotOf s.vht r.target = none)

/-- The order is BULK and the gate closes intake (R46, check 5 of R44). -/
def placeGated (s : State) (r : OrderPlaceReq) : Prop :=
  r.cls = 0 ∧ 0 < s.ort.gate ∧ s.ort.gate * 32 ≤ (s.ort.orders.filter (fun e => e.2.state.live)).length

/-- No entry is free and none holds a terminal order, or no batch entry is free for a new batch tag (checks 6 and 7 of
R44). -/
def placeNoRoom (s : State) (r : OrderPlaceReq) : Prop :=
  ((∀ h, h < 256 → tblGet s.ort.orders h ≠ none) ∧ ∀ e ∈ s.ort.orders, e.2.state.live = true) ∨
    ∃ b, r.batchTag = some b ∧ tblGet s.ort.batches b = none ∧ 32 ≤ s.ort.batches.length

/-- The entry an accepted order takes (R45, step 1): the lowest free one; with none free, that of the terminal order with
the oldest ended-at, the lower handle between equals. -/
def entryTaken (s : State) (h : Nat) : Prop :=
  (tblGet s.ort.orders h = none ∧ h < 256 ∧ ∀ k, k < h → tblGet s.ort.orders k ≠ none) ∨
    ((∀ k, k < 256 → tblGet s.ort.orders k ≠ none) ∧
      ∃ o, tblGet s.ort.orders h = some o ∧ o.state.live = false ∧
        ∀ k p, tblGet s.ort.orders k = some p → p.state.live = false →
          o.endedAt.getD 0 < p.endedAt.getD 0 ∨ (o.endedAt.getD 0 = p.endedAt.getD 0 ∧ h ≤ k))

/-- The record a vehicle is left with when its order leaves layer `i` (R51). -/
def leftVehicle (now tTake : Nat) (i : LayerId) (v : Vehicle) : Vehicle :=
  match v.layer i, v.layer i.other with
  | .empty, _ => v
  | .staged _, .active _ => { v.withLayer i .empty with takeTimer := none }
  | .staged _, _ =>
    if v.activity = .repositioning then { v.withLayer i .empty with takeTimer := none }
    else
      { v.withLayer i .empty with activity := .idle, idleLevel := .ready, idleSince := now, takeTimer := none }
  | .active _, .staged _ =>
    { v.withLayer i .empty with takeTimer := some { start := now, expiry := min 4294967295 (now + tTake) } }
  | .active _, _ => { v.withLayer i .empty with activity := .idle, idleLevel := .ready, idleSince := now }

/-- Every vehicle is as it was, but that the one an order's record names has lost that order's layer (R51). -/
def layerLeft (loc : Option (Nat × LayerId)) (s t : State) : Prop :=
  ∀ k, tblGet t.vht.vehicles k =
    (tblGet s.vht.vehicles k).map (fun v =>
      match loc with
      | some (slot, i) => if k = slot then leftVehicle s.now s.vht.tTake i v else v
      | none => v)

/-- The fleet id of the vehicle an order's record names. -/
def vehicleOf (s : State) (o : Order) : Option Nat :=
  match o.loc with
  | some (slot, _) => (tblGet s.vht.vehicles slot).map (fun v => v.fleetId)
  | none => none

/-- An order's record back from its vehicle in QUEUED or HELD (R32, R50). -/
def returnedOrder (now : Nat) (st : OrderState) (o : Order) : Order :=
  { o with
    state := st
    queuedSince := if st = .queued then some now else o.queuedSince
    waitReason := if st = .queued then none else o.waitReason
    source :=
      match o.kind, o.source with
      | .supplyEmpty, some (.shelf _) => none
      | _, e => e
    dest :=
      match o.kind, o.dest with
      | .store, some (.shelf _) => none
      | .returnEmpty, some (.shelf _) => none
      | _, e => e
    prior := none, loc := none, etaPick := none, etaDone := none, abortPending := false, suspendReason := none
    orphan := none }

/-- Shelf `k` once the grant-time claims of order `h` are released (R50). -/
def returnedShelf (h : Nat) (o : Order) (k : Nat) (sh : Shelf) : Shelf :=
  if sh.state = .inbound ∧ sh.claim = some h ∧
      (o.prior = some (.shelf k) ∨ (o.dest = some (.shelf k) ∧ (o.kind = .store ∨ o.kind = .returnEmpty))) then
    { state := .free, tag := none, emptyFlag := false, claim := none }
  else if sh.state = .outbound ∧ sh.claim = some h ∧ o.source = some (.shelf k) ∧ o.kind = .supplyEmpty then
    { sh with state := .held, claim := none }
  else sh

/-- Shelf `k` once every claim of order `h` is released (R52). -/
def endedShelf (h : Nat) (o : Order) (k : Nat) (sh : Shelf) : Shelf :=
  if sh.state = .inbound ∧ sh.claim = some h ∧ (o.prior = some (.shelf k) ∨ o.dest = some (.shelf k)) then
    { state := .free, tag := none, emptyFlag := false, claim := none }
  else if sh.state = .outbound ∧ sh.claim = some h ∧ o.source = some (.shelf k) then
    { sh with state := .held, claim := none }
  else sh

/-- Shelf `k` once a source shelf that order `h` still claims, and a prior destination shelf, have become FREE (R162,
R164). -/
def vacatedShelf (h : Nat) (o : Order) (k : Nat) (sh : Shelf) : Shelf :=
  if sh.claim = some h ∧
      ((sh.state = .outbound ∧ o.source = some (.shelf k)) ∨ (sh.state = .inbound ∧ o.prior = some (.shelf k))) then
    { state := .free, tag := none, emptyFlag := false, claim := none }
  else sh

/-- The batch entry that the end of an order closes, with its record before (R67). -/
def batchClosed (s : State) (o : Order) : Option (Nat × Batch) :=
  match o.batchTag with
  | some k =>
    match tblGet s.ort.batches k with
    | some b => if b.openCount ≤ 1 then some (k, b) else none
    | none => none
  | none => none

/-- A batch entry counted down for the end of an order (R67). -/
def batchCounted (st : OrderState) (b : Batch) : Batch :=
  { b with openCount := b.openCount - 1, failed := if st = .failed then b.failed + 1 else b.failed }

/-- The notices of the end of an order: its ORDER_STATE, and then the BATCH_DONE of an entry it closes (R49, R67). -/
def endNotices (h : Nat) (o : Order) (st : OrderState) (why : EndReason) (s : State) : State :=
  (match batchClosed s o with
    | some (k, b) => queueNotice (.batchDone k b.total (batchCounted st b).failed)
    | none => id)
    (queueNotice (.orderState h o.hostTag o.state st s.now (.ended why) (vehicleOf s o)) s)

/-- Order `h`, with record `o`, has returned from its vehicle to QUEUED or HELD (R50, R51): this and nothing else. -/
structure OrderReturned (h : Nat) (o : Order) (st : OrderState) (s t : State) : Prop where
  framed : Framed s t
  record : tblGet t.ort.orders h = some (returnedOrder s.now st o)
  others : otherOrdersKept h s t
  vehicles : layerLeft o.loc s t
  shelves : ∀ k, shelfAt t.shm k = returnedShelf h o k (shelfAt s.shm k)
  lines : t.liu = (queueNotice (.orderState h o.hostTag o.state st s.now .none (vehicleOf s o)) s).liu
  kept : t.ort.batches = s.ort.batches ∧ t.bac = s.bac ∧ t.fcr = s.fcr
  exam : s.asa.examPending = true ∨ st = .queued → t.asa.examPending = true

/-- Order `h`, with record `o`, has entered DONE, FAILED or CANCELLED (R52, R67): this and nothing else. -/
structure OrderEnded (h : Nat) (o : Order) (st : OrderState) (why : EndReason) (s t : State) : Prop where
  framed : Framed s t
  record : tblGet t.ort.orders h =
    some { o with
      state := st, storedAge := ageAt o s.now, waitReason := if o.state = .queued then none else o.waitReason
      endedAt := some s.now, endReason := some why, loc := none, prior := none, abortPending := false
      suspendReason := none, orphan := none }
  others : otherOrdersKept h s t
  vehicles : layerLeft o.loc s t
  shelves : ∀ k, shelfAt t.shm k = endedShelf h o k (shelfAt s.shm k)
  batches : ∀ k, tblGet t.ort.batches k =
    if o.batchTag = some k then
      match tblGet s.ort.batches k with
      | some b => if b.openCount ≤ 1 then none else some (batchCounted st b)
      | none => none
    else tblGet s.ort.batches k
  lines : t.liu = (endNotices h o st why s).liu
  kept : t.bac = s.bac ∧ t.fcr = s.fcr
  exam : s.asa.examPending = true → t.asa.examPending = true

/-- Order `h` alone has gone from the record `o` to the record `p`, with its ORDER_STATE notice (R49): nothing else but
the rescan timer and the examination-pending flag has changed. -/
structure OrderStepped (h : Nat) (o p : Order) (reason : OrderReason) (s t : State) : Prop where
  framed : Framed s t
  record : tblGet t.ort.orders h = some p
  others : otherOrdersKept h s t
  lines : t.liu = (queueNotice (.orderState h o.hostTag o.state p.state s.now reason (vehicleOf s o)) s).liu
  kept : t.ort.batches = s.ort.batches ∧ t.vht = s.vht ∧ t.bac = s.bac ∧ t.shm = s.shm ∧ t.fcr = s.fcr
  exam : t.asa.examPending = (s.asa.examPending || decide (p.state = .queued))

/-! ## Vehicles and the survey -/

/-- A request of this kind in RUNNING names the vehicle `v` in `slot` by its fleet id; `extra` is what follows in its
payload. -/
def asksVehicle (s : State) (kind tag slot : Nat) (v : Vehicle) (extra : List Byte) : Prop :=
  ∃ f0 f1 : Byte, askedRunning s kind tag (f0 :: f1 :: extra) ∧ 0 < u16 f0 f1 ∧ u16 f0 f1 < 65535 ∧
    slotOf s.vht (u16 f0 f1) = some slot ∧ tblGet s.vht.vehicles slot = some v

/-- The record of the vehicle in `slot` is now `v`. -/
def withVehicle (slot : Nat) (v : Vehicle) (s : State) : State :=
  { s with vht := { s.vht with vehicles := tblSet s.vht.vehicles slot v } }

/-- The sequencer after a firing of a trigger (R151, R152). -/
def triggered (i : Survey) : Survey :=
  match i.state with
  | .idle => i
  | .armed => { i with state := .surveying, current := i.first, moves := 0, short := [] }
  | .surveying => { i with pendingStart := true }

/-- A donor for bay `b` (R154, step 3). -/
def Donor (s : State) (b : Nat) (v : Vehicle) : Prop :=
  v.link = .online ∧ v.hostStall = false ∧ v.faultStall = false ∧ v.activity = .idle ∧ v.layer0 = .empty ∧
    v.layer1 = .empty ∧
    (v.position.zone = 255 ∨
      (v.position.zone ≠ b ∧ quotaOf s.bac v.position.zone < supply s.vht v.position.zone))

/-- The sequencer after the step for its current bay: the next bay, or the end of the pass (R152, R155). -/
def passAdvanced (i : Survey) : Survey :=
  if i.current < i.last then { i with current := i.current + 1 }
  else
    match i.mode with
    | .singleOnce => { i with state := .idle, current := i.first, pendingStart := false, timer := none }
    | .rangeOnce => { i with state := .idle, current := i.first, pendingStart := false, timer := none }
    | .singleRepeat =>
      if i.pendingStart then
        { i with state := .surveying, current := i.first, pendingStart := false, moves := 0, short := [] }
      else { i with state := .armed, current := i.first }
    | .rangeRepeat =>
      if i.pendingStart then
        { i with state := .surveying, current := i.first, pendingStart := false, moves := 0, short := [] }
      else { i with state := .armed, current := i.first }

/-- The SURVEY_DONE notice of the last bay's step (R155). -/
def passNotice (i : Survey) (s : State) : State :=
  if i.current < i.last then s else queueNotice (.surveyDone i.mode i.first i.last s.now i.moves i.short) s

/-! ## Reports and what follows them -/

/-- A HELLO of fleet id `f` that reports `r` is at the head of the fleet input queue, in RUNNING. -/
def helloWaits (s : State) (f : Nat) (r : HelloRep) : Prop :=
  s.lyt.opState = .running ∧
    ∃ (k f0 f1 : Byte) (payload : List Byte) (rest : List (List Byte)),
      s.liu.fleetIn = (k :: f0 :: f1 :: payload) :: rest ∧ u8 k = 0x51 ∧ u16 f0 f1 = f ∧
        decodeHello payload = some r

/-- The head of the fleet input queue gone. -/
def heard (s : State) : State := { s with liu := { s.liu with fleetIn := s.liu.fleetIn.tail } }

/-- A report of this kind and payload waits from the ONLINE vehicle `v` in `slot`, whose one ACTIVE layer holds order
`h`, whose record is `o`. -/
def reportsActive (s : State) (kind slot : Nat) (v : Vehicle) (payload : List Byte) (h : Nat) (o : Order) : Prop :=
  reportWaits s kind slot v payload ∧ tblGet s.ort.orders h = some o ∧
    ∃ i, v.layer i = .active h ∧ (∀ g, v.layer i.other ≠ .active g) ∧ o.loc = some (slot, i)

/-- The state once a report from the vehicle in `slot` has been taken and nothing has come of it yet. -/
def taken (s : State) (slot : Nat) (v : Vehicle) : State := reported slot (heardVehicle s v) s

/-- Only shelves have changed, each as `f` says, and perhaps the examination-pending flag has been set. -/
structure ShelvesBecome (f : Nat → Shelf → Shelf) (s t : State) : Prop where
  only : t =
    { s with
      shm := { s.shm with shelves := t.shm.shelves }
      asa := { s.asa with examPending := t.asa.examPending } }
  each : ∀ k, shelfAt t.shm k = f k (shelfAt s.shm k)
  exam : s.asa.examPending = true → t.asa.examPending = true

/-- A timer started now for `t` (R1). -/
def timerFrom (s : State) (t : Nat) : Timer := { start := s.now, expiry := min 4294967295 (s.now + t) }

/-- An order's record as it goes to SUSPENDED (R163). -/
def suspendedOrder (s : State) (why : SuspendReason) (o : Order) : Order :=
  { o with state := .suspended, suspendReason := some why, orphan := some (timerFrom s s.fcr.tOrphan) }

/-- Carrier-involved handling, by the class of the vehicle's last fault, takes `s` to `t` (R159): under a RECOVERABLE one
the order is SUSPENDED, if it is not already; under a FATAL one it has FAILED and the load is LOADED with tag unknown. -/
def CarrierInvolved (slot h : Nat) (o : Order) (why : SuspendReason) (c : FaultClass) (s t : State) : Prop :=
  match c with
  | .recoverable =>
    if o.state = .suspended then t = s else OrderStepped h o (suspendedOrder s why o) (.suspend why) s t
  | .fatal =>
    ∃ u w, OrderEnded h o .failed .carrierLost s u ∧ tblGet u.vht.vehicles slot = some w ∧
      t = withVehicle slot { w with load := .unknown } u

/-- The class of a vehicle's last fault; RECOVERABLE where it has none. -/
def faultClassOf (v : Vehicle) : FaultClass :=
  match v.lastFault with
  | some (c, _) => c
  | none => .recoverable

/-- A PICK_BEGIN, or an ABORT_LATE that is awaited, takes `s` to `t` for an order in TO_SOURCE or CANCELLING (R54, R57,
R160): it goes to PICKING, with carrier-involved handling where it awaited an answer under a fault. -/
def PickBegins (slot h : Nat) (v : Vehicle) (o : Order) (s t : State) : Prop :=
  ∃ u, OrderStepped h o { o with state := .picking, abortPending := false }
      (if o.state = .cancelling then .cancelLate else .none) s u ∧
    (if v.faultStall = true ∧ (o.state = .cancelling ∨ o.abortPending = true) then
      CarrierInvolved slot h { o with state := .picking, abortPending := false } .fault (faultClassOf v) u t
    else t = u)

/-- The incident CARRIER_MISMATCH of order `h` on the vehicle `v` (R167). -/
def mismatchIncident (s : State) (v : Vehicle) (h : Nat) (o : Order) : Incident :=
  { cls := .carrierMismatch, time := s.now, fleetId := some v.fleetId, handle := some h, place := o.source,
    position := some (v.position.zone, v.position.coord), code := none }

/-- Steps 1 to 4 of R55 take `s` to `t`: the read tag, the source shelf, the load and eta done. -/
structure PickStored (slot h : Nat) (read : Option CarrierTag) (o : Order) (s t : State) : Prop where
  framed : Framed s t
  record : tblGet t.ort.orders h =
    some { o with
      readTag := some (match read with | some r => .tag r | none => .unread)
      etaDone :=
        some (min 4294967295
          (s.now + travelBetween s.lyt (stopOf? s.lyt o.source) (stopOf? s.lyt o.dest) +
            handoffOf (stopOf? s.lyt o.dest))) }
  others : otherOrdersKept h s t
  vehicle : tblGet t.vht.vehicles slot =
    (tblGet s.vht.vehicles slot).map
      (fun v => { v with load := match read with | some r => .tagged r | none => .unknown })
  vehicles : otherVehiclesKept slot s t
  shelves : ∀ k, shelfAt t.shm k = if o.source = some (.shelf k) then freeShelf else shelfAt s.shm k
  kept : t.liu = s.liu ∧ t.ort.batches = s.ort.batches ∧ t.bac = s.bac ∧ t.fcr = s.fcr
  exam : s.asa.examPending = true → t.asa.examPending = true

/-- A placement of order `h` takes `s` to `t` (R56, steps 1 to 4): the destination shelf filled, the load EMPTY, and the
order DONE, or SERVED for a standing demand that is asserted. -/
def PlaceTaken (slot h : Nat) (o : Order) (s t : State) : Prop :=
  ∃ u v, ShelvesBecome
      (fun k sh =>
        if o.dest = some (.shelf k) then
          { state := .held
            tag := match o.readTag with
              | some (.tag r) => some r
              | _ => none
            emptyFlag := decide (o.kind = .returnEmpty), claim := none }
        else sh) s u ∧
    tblGet u.vht.vehicles slot = some v ∧
    (if o.retargetLate = true then
      OrderEnded h o .done .retargetLate (withVehicle slot { v with load := .empty } u) t
    else if o.trigger = .standing ∧ o.asserted = true then
      Framed u t ∧ tblGet t.ort.orders h = some { o with state := .served, loc := none, prior := none } ∧
        otherOrdersKept h u t ∧ layerLeft o.loc (withVehicle slot { v with load := .empty } u) t ∧
        t.liu =
          (queueNotice (.demandServed h o.hostTag o.serveCount s.now o.readTag)
            (queueNotice (.orderState h o.hostTag o.state .served s.now .none (vehicleOf s o)) u)).liu ∧
        t.ort.batches = u.ort.batches ∧ t.shm = u.shm ∧ t.bac = u.bac ∧ t.fcr = u.fcr
    else OrderEnded h o .done .completed (withVehicle slot { v with load := .empty } u) t)

/-- A PLACE_BEGIN that names the order's destination or its prior one takes `s` to `t`, the record becoming `p` (R56). -/
def PlaceBegins (h : Nat) (o : Order) (e : Endpoint) (p : Order) (s t : State) : Prop :=
  (o.dest = some e ∧ p = { o with state := .placing, prior := none } ∧
    ∃ u, ShelvesBecome
        (fun k sh =>
          if sh.state = .inbound ∧ sh.claim = some h ∧ o.prior = some (.shelf k) then freeShelf else sh) s u ∧
      OrderStepped h o p .none u t) ∨
  (o.dest ≠ some e ∧ o.prior = some e ∧
    p = { o with state := .placing, dest := o.prior, prior := none, retargetLate := true } ∧
    OrderStepped h o p .none s t)

/-- A vehicle's last fault after an event of class `c` and code `k` (R104). -/
def lastFaultThen (v : Vehicle) (c : FaultClass) (k : FaultCode) : Option (FaultClass × FaultCode) :=
  if v.faultStall = true ∧ faultClassOf v = .fatal ∧ c = .recoverable then v.lastFault else some (c, k)

/-- A vehicle's record at the end of a reposition; as it was where it has no target (R112). -/
def repositionEnded (now : Nat) (v : Vehicle) : Vehicle :=
  if v.target = none then v
  else if v.layer0 = .empty ∧ v.layer1 = .empty then
    { v with activity := .idle, idleLevel := .ready, idleSince := now, target := none }
  else { v with activity := .working, target := none }

/-- A vehicle's record as its fault stall is set (R104). -/
def faultStalled (now : Nat) (c : FaultClass) (k : FaultCode) (v : Vehicle) : Vehicle :=
  repositionEnded now { v with faultStall := true, lastFault := lastFaultThen v c k, recovered := false }

/-- The fault stall of the vehicle `v` in `slot` is set (R104): STALLED is sent where the flag was clear, and a vehicle
that ends a reposition IDLE sets the examination-pending flag (log 33). -/
def stallSet (slot : Nat) (c : FaultClass) (k : FaultCode) (v : Vehicle) (s : State) : State :=
  (if v.faultStall = true then id
    else queueNotice (.vehicleState v.fleetId slot .stalled v.link v.hostStall true (lastFaultThen v c k)))
    (setExamIf (decide (v.target ≠ none ∧ v.layer0 = .empty ∧ v.layer1 = .empty))
      (withVehicle slot (faultStalled s.now c k v) s))

/-- An incident about the vehicle `v` with no place (R167). -/
def vehicleIncident (s : State) (c : IncidentClass) (v : Vehicle) (handle code : Option Nat) : Incident :=
  { cls := c, time := s.now, fleetId := some v.fleetId, handle := handle, place := none,
    position := some (v.position.zone, v.position.coord), code := code }

/-- The vehicle `v` in `slot` holds a STAGED order, which returns to QUEUED between `s` and `t`, with RECALL where one is
sent; without a STAGED order nothing changes (R50). -/
def StagedReturned (slot : Nat) (v : Vehicle) (told : Bool) (s t : State) : Prop :=
  ((∀ i h, v.layer i ≠ .staged h) → t = s) ∧
    ∀ i h o, v.layer i = .staged h → (∀ g, v.layer i.other ≠ .staged g) → tblGet s.ort.orders h = some o →
      o.state = .assigned → o.loc = some (slot, i) →
      OrderReturned h o .queued (if told = true then issue v.fleetId (.recall h i) s else s) t

/-- Beside its ACTIVE order `h` in layer `i`, a vehicle's other layer is EMPTY or holds an ASSIGNED order. -/
def otherLayerWaits (s : State) (slot : Nat) (v : Vehicle) (i : LayerId) (h : Nat) : Prop :=
  v.layer i.other = .empty ∨
    ∃ g o, v.layer i.other = .staged g ∧ g ≠ h ∧ tblGet s.ort.orders g = some o ∧ o.state = .assigned ∧
      o.loc = some (slot, i.other)

/-! ## Places in bays (chapter 6) -/

/-- What bay admission holds for bay `b` is now `y`. -/
def withBay (b : Nat) (y : BayState) (s : State) : State :=
  { s with bac := { s.bac with bays := tblSet s.bac.bays b y } }

/-- The vehicle in `slot` has no entry in any admitted set. -/
def notAdmitted (s : State) (slot : Nat) : Prop := ∀ e ∈ s.bac.bays, ∀ a ∈ e.2.admitted, a.slot ≠ slot

/-- The vehicle in `slot` stands in no queue. -/
def notWaiting (s : State) (slot : Nat) : Prop := ∀ e ∈ s.bac.bays, ∀ w ∈ e.2.queue, w.slot ≠ slot

/-- A GRANTED entry made now (R118). -/
def grantedEntry (s : State) (slot : Nat) : Admitted :=
  { slot := slot, inside := false, entryTime := s.now, lapse := some (timerFrom s s.bac.tGrant) }

/-- How many vehicles a bay grants from its queue at once (R118). -/
def grantCount (y : BayState) : Nat :=
  if y.isOpen then min y.queue.length (y.capacity - y.admitted.length) else 0

/-- The ENTRY_GRANTs of these queue entries, in order. -/
def grantsSent (b : Nat) : List Waiting → State → State
  | [], s => s
  | w :: ws, s => grantsSent b ws (issueTo w.slot (.entryGrant b) s)

/-- A place in bay `b` has been given up, which left the bay as `y`, and the bay has granted from its queue (R118): this
and nothing else, but for yield timers. `void` is what was sent first. -/
structure PlaceGivenUp (b : Nat) (y : BayState) (void : State → State) (s t : State) : Prop where
  framed : Framed s t
  bay : ∃ z, tblGet t.bac.bays b = some z ∧ z.capacity = y.capacity ∧ z.soft = y.soft ∧ z.quota = y.quota ∧
    z.isOpen = y.isOpen ∧
    z.admitted = y.admitted ++ (y.queue.take (grantCount y)).map (fun w => grantedEntry s w.slot) ∧
    z.queue = y.queue.drop (grantCount y)
  bays : otherBaysKept b s t
  lines : t.liu = (grantsSent b (y.queue.take (grantCount y)) (void s)).liu
  exam : t.asa.examPending = true
  kept : t.ort = s.ort ∧ t.vht = s.vht ∧ t.shm = s.shm ∧ t.fcr = s.fcr

/-- The vehicle `v` in `slot` may be evicted from the bay `y` (R126). -/
def Evictable (y : BayState) (slot : Nat) (v : Vehicle) : Prop :=
  (∃ a, y.admitted.find? (fun e => e.slot == slot) = some a ∧ a.inside = true) ∧ v.link = .online ∧
    v.hostStall = false ∧ v.faultStall = false ∧ v.activity = .idle ∧ v.layer0 = .empty ∧ v.layer1 = .empty

/-- Bay `c` may be the target of an eviction from bay `b` (R126). -/
def EvictionTarget (s : State) (b c : Nat) : Prop :=
  c ≠ b ∧ ∃ y, tblGet s.bac.bays c = some y ∧ y.isOpen = true ∧ y.admitted.length < y.capacity

/-- The vehicle in `slot` has joined the bay it reported between `s` and `u` (R124): an INSIDE entry made now, whatever
the places held, with the yield timer as R125 has it; on the interbay loop there is none to join. -/
def JoinedInside (slot zone : Nat) (s u : State) : Prop :=
  (zone = 255 → u.bac = s.bac) ∧
    ∀ y, zone ≠ 255 → tblGet s.bac.bays zone = some y →
      u.bac = { s.bac with
        bays := tblSet s.bac.bays zone
          { y with
            admitted := y.admitted ++ [{ slot := slot, inside := true, entryTime := s.now, lapse := none }]
            yield :=
              if y.isOpen = true ∧ y.capacity ≤ y.admitted.length + 1 ∧ y.queue ≠ [] then
                if y.capacity ≤ y.admitted.length then y.yield else some (timerFrom s s.bac.tYield)
              else none } }

/-- The places of the re-enrolled vehicle in `slot` have gone between `s` and `u` as R124 has it: an INSIDE entry in the
bay it reports is kept; with no entry it joins that bay; and an entry in another bay is given up first, that bay granting
from its queue. The ENTRY_GRANTs that this sends are the only commands. -/
structure HelloPlaced (slot zone : Nat) (s u : State) : Prop where
  kept : ∀ a, zone ≠ 255 → entryIn s.bac zone slot = some a → a.inside = true →
    u.bac = s.bac ∧ u.liu.fleetOut = s.liu.fleetOut
  joined : notAdmitted s slot → JoinedInside slot zone s u ∧ u.liu.fleetOut = s.liu.fleetOut
  moved : ∀ b y, b ≠ zone → tblWf s.bac.bays = true → tblGet s.bac.bays b = some y →
    (∃ a ∈ y.admitted, a.slot = slot) → (∀ e ∈ s.bac.bays, e.1 ≠ b → ∀ a ∈ e.2.admitted, a.slot ≠ slot) →
    ∃ x, PlaceGivenUp b { y with admitted := y.admitted.filter (fun a => a.slot != slot) } id s x ∧
      JoinedInside slot zone x u ∧ u.liu.fleetOut = x.liu.fleetOut

/-- What is told as a HELLO from the vehicle with record `w` is taken: POSITION_CLAMPED where the coordinate reported
was too large, and then ENROLLED (R93 to R95, R97; log 19). -/
def helloTold (slot : Nat) (r : HelloRep) (w : Vehicle) (s : State) : State :=
  queueNotice (.vehicleState w.fleetId slot .enrolled w.link w.hostStall w.faultStall w.lastFault)
    (if zoneLength s.lyt r.zone ≤ r.coord then raiseIncident (vehicleIncident s .positionClamped w none none) s else s)

/-- A stray load told: the fault stall with its STALLED notice, and then the incident (R94, R96, R104). -/
def strayTold (slot : Nat) (w : Vehicle) (s : State) : State :=
  raiseIncident (vehicleIncident s .strayLoad w none none) (stallSet slot .fatal .strayLoad w s)

/-- The notices of `u`, and its capture, are those of `e`. -/
def toldAs (u e : State) : Prop :=
  u.liu.notices = e.liu.notices ∧ u.liu.gapMark = e.liu.gapMark ∧ u.fcr = e.fcr

/-- The fleet id under which a bay's lists carry the vehicle in `slot`; 0 for a free slot, which no run lists. -/
def memberId (s : State) (slot : Nat) : Nat := ((tblGet s.vht.vehicles slot).map (fun v => v.fleetId)).getD 0

/-! ## Ranks (R73) -/

/-- Order `p` in entry `k` is met before order `o` in entry `h` (R33, R73). -/
def RanksBefore (s : State) (k : Nat) (p : Order) (h : Nat) (o : Order) : Prop :=
  priority s.ort.weights o s.now < priority s.ort.weights p s.now ∨
    (priority s.ort.weights o s.now = priority s.ort.weights p s.now ∧
      (p.seq < o.seq ∨ (p.seq = o.seq ∧ k < h)))

/-! ## Safe states -/

/-- The queues of the line interface within their sizes (R172, R174, R176, R177). -/
structure LinesBounded (l : Lines) : Prop where
  frames : waitingFrames l.hostQueue ≤ 8
  marks : heldMarks l.hostQueue ≤ 8
  notices : l.notices.length ≤ 64
  fleetIn : l.fleetIn.length ≤ 32
  fleetOut : l.fleetOut.length ≤ 32
  hostRx : l.hostRx.length ≤ 1028
  fleetRx : l.fleetRx.length ≤ 1028

/-- The tables in canonical form, each number within its table: 256 orders, 32 batch entries, 64 vehicles, shelves of the
pool that differ from a FREE one (R41, R66, R90, R131). -/
structure TablesCanonical (s : State) : Prop where
  orders : tblWf s.ort.orders = true ∧ ∀ e ∈ s.ort.orders, e.1 < 256
  batches : tblWf s.ort.batches = true ∧ s.ort.batches.length ≤ 32
  vehicles : tblWf s.vht.vehicles = true ∧ ∀ e ∈ s.vht.vehicles, e.1 < 64
  layout : tblWf s.lyt.bays = true ∧ tblWf s.lyt.ports = true
  bays : tblWf s.bac.bays = true
  shelves : tblWf s.shm.shelves = true ∧ ∀ e ∈ s.shm.shelves, e.2 ≠ freeShelf

/-- What the capture record may become while no CAPTURE_CLEAR and no power-on reset is taken (R168): an EMPTY one
anything, a RECOVERABLE one FATAL, a FATAL one nothing else; a further-seen flag that is set stays set. -/
def captureGrows (f g : FaultCapture) : Prop :=
  (match captureStateOf f.capture with
    | .empty => True
    | .recoverable => g.capture = f.capture ∨ captureStateOf g.capture = .fatal
    | .fatal => g.capture = f.capture) ∧
  (f.furtherRec = true → g.furtherRec = true) ∧ (f.furtherFatal = true → g.furtherFatal = true)

/-- Every setting within the range its rule gives it (R39, R46, R88, R113, R116, R129, R134, R146, R163). -/
structure SettingsInRange (s : State) : Prop where
  reach : s.asa.wPark ≤ 1000 ∧ s.asa.wDorm ≤ 1000 ∧ s.asa.wC ≤ 255
  arbiter : 1 ≤ s.asa.tRescan ∧ s.asa.tRescan ≤ 100 ∧ 1 ≤ s.asa.chainDepth ∧ s.asa.chainDepth ≤ 2
  take : 5 ≤ s.vht.tTake ∧ s.vht.tTake ≤ 600
  silent : 10 ≤ s.vht.tSilent ∧ s.vht.tSilent ≤ 600
  levels : 10 ≤ s.vht.tPark ∧ s.vht.tPark ≤ 36000 ∧ 10 ≤ s.vht.tDorm ∧ s.vht.tDorm ≤ 36000
  grant : 10 ≤ s.bac.tGrant ∧ s.bac.tGrant ≤ 1200
  yield : 10 ≤ s.bac.tYield ∧ s.bac.tYield ≤ 3000
  entry : 50 ≤ s.bac.tEntry ∧ s.bac.tEntry ≤ 18000
  orphan : 100 ≤ s.fcr.tOrphan ∧ s.fcr.tOrphan ≤ 36000
  gate : s.ort.gate ≤ 7
  bays : ∀ e ∈ s.bac.bays,
    1 ≤ e.2.capacity ∧ e.2.capacity ≤ 32 ∧ 1 ≤ e.2.soft ∧ e.2.soft ≤ e.2.capacity ∧ e.2.quota ≤ e.2.capacity
  reserves : ∀ e ∈ s.shm.reserves, e.2.hot ≤ 64 ∧ e.2.empty ≤ 64
  survey : s.iss.skipN ≤ 15 ∧ s.iss.skipLeft ≤ s.iss.skipN ∧ 1 ≤ s.iss.everyM ∧ s.iss.everyM ≤ 16 ∧
    s.iss.stepCount < s.iss.everyM

/-- The states of an order that is on a vehicle (R41, R49). -/
def OrderState.onVehicle : OrderState → Bool
  | .assigned => true | .toSource => true | .picking => true | .carrying => true | .placing => true
  | .cancelling => true | .suspended => true
  | .queued => false | .held => false | .served => false | .done => false | .failed => false | .cancelled => false

/-- Each vehicle has at most one ACTIVE and at most one STAGED layer and 0 to 3 consecutive no-takes (R90, R91), no two
slots hold the same fleet id (R90), and layers and orders agree both ways (R41, R91): a filled layer names an order whose
record names that layer, ASSIGNED exactly where the layer is STAGED; an order's record names a layer exactly in the
states on a vehicle; and the layer it names holds the order. -/
structure FleetConsistent (s : State) : Prop where
  oneActive : ∀ e ∈ s.vht.vehicles, ∀ h g, ¬(e.2.layer0 = .active h ∧ e.2.layer1 = .active g)
  oneStaged : ∀ e ∈ s.vht.vehicles, ∀ h g, ¬(e.2.layer0 = .staged h ∧ e.2.layer1 = .staged g)
  noTakes : ∀ e ∈ s.vht.vehicles, e.2.noTakes ≤ 3
  distinctIds : (s.vht.vehicles.map (fun e => e.2.fleetId)).Nodup
  layers : ∀ e ∈ s.vht.vehicles, ∀ i h, e.2.layer i = .staged h ∨ e.2.layer i = .active h →
    ∃ o, tblGet s.ort.orders h = some o ∧ o.loc = some (e.1, i) ∧ (o.state = .assigned ↔ e.2.layer i = .staged h)
  places : ∀ e ∈ s.ort.orders, e.2.loc ≠ none ↔ e.2.state.onVehicle = true
  located : ∀ e ∈ s.ort.orders, ∀ slot i, e.2.loc = some (slot, i) →
    ∃ v, tblGet s.vht.vehicles slot = some v ∧ (v.layer i = .staged e.1 ∨ v.layer i = .active e.1)

/-- The rescan timer runs exactly while an order is QUEUED (R72), in an order table in canonical form. -/
structure RescanFollowsQueue (s : State) : Prop where
  orders : tblWf s.ort.orders = true
  rescan : s.asa.rescan.isSome = true ↔ ∃ e ∈ s.ort.orders, e.2.state = .queued

/-- The timers of vehicles, orders, places and the survey run exactly under their conditions: a take timer while a layer
is STAGED and none ACTIVE (R107), a silence timer while the vehicle is ONLINE (R99), an orphan timer while the order is
SUSPENDED (R163), a lapse timer with a GRANTED entry (R122), a starvation timer until the entry has starved (R127), and
the survey timer while trigger A is on and the sequencer ARMED or SURVEYING (R149). -/
structure TimersRun (s : State) : Prop where
  take : ∀ e ∈ s.vht.vehicles,
    e.2.takeTimer.isSome = true ↔ (∃ i h, e.2.layer i = .staged h) ∧ ∀ i h, e.2.layer i ≠ .active h
  silence : ∀ e ∈ s.vht.vehicles, e.2.silence.isSome = true ↔ e.2.link = .online
  orphan : ∀ e ∈ s.ort.orders, e.2.orphan.isSome = true ↔ e.2.state = .suspended
  lapse : ∀ e ∈ s.bac.bays, ∀ a ∈ e.2.admitted, a.lapse.isSome = true ↔ a.inside = false
  starve : ∀ e ∈ s.bac.bays, ∀ w ∈ e.2.queue, w.starve.isSome = true ↔ w.starved = false
  survey : s.iss.timer.isSome = true ↔ s.iss.aOn = true ∧ s.iss.state ≠ .idle

/-- A bay's yield timer runs exactly while the bay is open, held_b ≥ capacity_b and its queue is not empty (R125). -/
def YieldFollowsPressure (s : State) : Prop :=
  ∀ e ∈ s.bac.bays,
    e.2.yield.isSome = true ↔
      e.2.isOpen = true ∧ e.2.capacity ≤ e.2.admitted.length ∧ e.2.queue ≠ []

/-- The sequencer in IDLE has no pending start and no timer running (R149, R156), and outside RUNNING it is IDLE (R11,
R13). -/
structure SurveyAtRest (s : State) : Prop where
  idle : s.iss.state = .idle → s.iss.timer = none ∧ s.iss.pendingStart = false
  outside : s.lyt.opState ≠ .running → s.iss.state = .idle

/-! ## The layout (R10) -/

/-- Two racks share a pool index. -/
def racksShare (a b : BayRec) : Prop :=
  ∃ k, a.rackBase ≤ k ∧ k < a.rackBase + a.rackCount ∧ b.rackBase ≤ k ∧ k < b.rackBase + b.rackCount

/-- The seven checks of a LAYOUT_CLOSE (R10). -/
structure LayoutValid (l : Layout) : Prop where
  junctions : ∀ e ∈ l.bays, e.2.entryJ < loopLength l ∧ e.2.exitJ < loopLength l
  distinct : ((l.bays.map (fun e => [e.2.entryJ, e.2.exitJ])).flatten).Nodup
  exits : ∀ e ∈ l.bays, 1 ≤ e.2.exit ∧ e.2.exit < e.2.length
  parks : ∀ e ∈ l.bays, e.2.park < e.2.length
  ports : ∀ e ∈ l.ports, e.2.coord < zoneLength l e.2.bay
  racks : ∀ e ∈ l.bays, 1 ≤ e.2.rackCount → e.2.rackFirst + (e.2.rackCount - 1) * e.2.rackPitch < e.2.length
  pool : ∀ e ∈ l.bays, 1 ≤ e.2.rackCount → e.2.rackBase + e.2.rackCount ≤ 1024
  apart : l.bays.Pairwise (fun a b => ¬racksShare a.2 b.2)

/-- The bay or port `n` fails check `code` of a LAYOUT_CLOSE (R10). -/
def checkFails (l : Layout) (code n : Nat) : Prop :=
  match code with
  | 1 => ∃ y, tblGet l.bays n = some y ∧ (loopLength l ≤ y.entryJ ∨ loopLength l ≤ y.exitJ)
  | 2 => ∃ y, tblGet l.bays n = some y ∧
    (y.entryJ = y.exitJ ∨ ∃ b z, b < n ∧ tblGet l.bays b = some z ∧
      (y.entryJ = z.entryJ ∨ y.entryJ = z.exitJ ∨ y.exitJ = z.entryJ ∨ y.exitJ = z.exitJ))
  | 3 => ∃ y, tblGet l.bays n = some y ∧ (y.exit < 1 ∨ y.length ≤ y.exit)
  | 4 => ∃ y, tblGet l.bays n = some y ∧ y.length ≤ y.park
  | 5 => ∃ p, tblGet l.ports n = some p ∧ zoneLength l p.bay ≤ p.coord
  | 6 => ∃ y, tblGet l.bays n = some y ∧ 1 ≤ y.rackCount ∧
    y.length ≤ y.rackFirst + (y.rackCount - 1) * y.rackPitch
  | 7 => ∃ y, tblGet l.bays n = some y ∧ 1 ≤ y.rackCount ∧
    (1024 < y.rackBase + y.rackCount ∨ ∃ b z, b < n ∧ tblGet l.bays b = some z ∧ racksShare z y)
  | _ => False

/-- Check `code` is the first that fails, and `n` the lowest bay or port for which it does (R10). -/
def firstFailure (l : Layout) (code n : Nat) : Prop :=
  checkFails l code n ∧ (∀ m, m < n → ¬checkFails l code m) ∧ ∀ c m, c < code → ¬checkFails l c m

/-! ## The steps that are due (R1, 00 section 4.6) -/

/-- A timer runs, and engine time has reached its expiry after its start (R1). -/
def expired (t : Option Timer) (now : Nat) : Prop := ∃ x, t = some x ∧ x.expiry ≤ now ∧ x.start < x.expiry

/-- A step of vehicle `v`'s idle level timed at `time` is due (R102). -/
def levelDue (v : Vehicle) (time now : Nat) : Prop :=
  v.activity = .idle ∧ min 4294967295 time ≤ now ∧ v.idleSince < min 4294967295 time

/-- The row takes the head of the host input queue, or that of the fleet input queue (R173, R174, R177). -/
def takesHead (s : State) (c : Instr) : Prop :=
  (s.liu.replySlot = none ∧ s.liu.restartPending = false ∧
    ∃ body rest, s.liu.hostQueue = .frame body :: rest ∧ hostRow (bodyKind body) = some c) ∨
  ∃ body rest, s.liu.fleetIn = body :: rest ∧ fleetRow (bodyKind body) (bodyPayload body) = some c

/-- The step is due: its block would take it of its own accord, or its timer expires, at engine time now (R71, R72, R99,
R102, R107, R122, R125, R127, R149, R152, R163, R173 to R177, R181). What comes from outside never is, nor is a moment
inside another step (log 6). -/
def DueNow (s : State) (c : Instr) : Prop :=
  match c with
  | .replyTransmit => s.liu.replySlot ≠ none
  | .noticeTransmit => s.liu.replySlot = none ∧ s.liu.restartPending = false ∧ s.liu.notices ≠ []
  | .fleetCommandTransmit => s.gwrdy = true ∧ s.liu.fleetOut ≠ []
  | .restartEffect => s.liu.restartPending = true ∧ s.liu.replySlot = none
  | .busyMarkReply =>
    s.liu.replySlot = none ∧ s.liu.restartPending = false ∧ ∃ tag rest, s.liu.hostQueue = .mark tag :: rest
  | .badKind =>
    s.liu.replySlot = none ∧ s.liu.restartPending = false ∧
      ∃ body rest, s.liu.hostQueue = .frame body :: rest ∧ hostRow (bodyKind body) = none
  | .fleetFrameDrop =>
    ∃ body rest, s.liu.fleetIn = body :: rest ∧ fleetRow (bodyKind body) (bodyPayload body) = none
  | .grantStep => s.lyt.opState = .running ∧ s.asa.examPending = true
  | .surveyBayStep => s.iss.state = .surveying
  | .rescanTimerExpiry => expired s.asa.rescan s.now
  | .surveyTimerExpiry => expired s.iss.timer s.now
  | .takeTimerExpiry k => ∃ v, (k, v) ∈ s.vht.vehicles ∧ expired v.takeTimer s.now
  | .silenceTimerExpiry k => ∃ v, (k, v) ∈ s.vht.vehicles ∧ expired v.silence s.now
  | .parkStep k =>
    ∃ v, (k, v) ∈ s.vht.vehicles ∧ s.vht.parkOn = true ∧ v.idleLevel = .ready ∧
      levelDue v (v.idleSince + s.vht.tPark) s.now
  | .dormantStep k =>
    ∃ v, (k, v) ∈ s.vht.vehicles ∧ s.vht.dormOn = true ∧ v.idleLevel ≠ .dormant ∧
      levelDue v (v.idleSince + s.vht.tPark + s.vht.tDorm) s.now
  | .lapseTimerExpiry b k =>
    ∃ y a, (b, y) ∈ s.bac.bays ∧ a ∈ y.admitted ∧ a.slot = k ∧ a.inside = false ∧ expired a.lapse s.now
  | .yieldTimerExpiry b => ∃ y, (b, y) ∈ s.bac.bays ∧ expired y.yield s.now
  | .starvationTimerExpiry b k => ∃ y w, (b, y) ∈ s.bac.bays ∧ w ∈ y.queue ∧ w.slot = k ∧ expired w.starve s.now
  | .orphanTimerExpiry h => ∃ o, (h, o) ∈ s.ort.orders ∧ expired o.orphan s.now
  | .powerOnReset | .gwrdyFall | .gwrdyRise | .hostFrameReceived _ | .fleetFrameReceived _ => False
  | .triggerBFire | .batchDone _ | .noTakeLimit _ => False
  | c => takesHead s c

/-- The rows that are expiries of timers: engine time does not pass over them (R1). -/
def isExpiry (c : Instr) : Bool :=
  match c with
  | .rescanTimerExpiry | .surveyTimerExpiry | .takeTimerExpiry _ | .silenceTimerExpiry _ | .parkStep _ => true
  | .dormantStep _ | .lapseTimerExpiry _ _ | .yieldTimerExpiry _ | .starvationTimerExpiry _ _ => true
  | .orphanTimerExpiry _ => true
  | _ => false

/-! ## Shelves (R133, R138 to R140) -/

/-- Of a rack's shelves with local index from `lo` to below `hi`, `k` is the pool index of the first that satisfies
`p`. -/
def FirstShelf (s : State) (y : BayRec) (lo hi : Nat) (p : Shelf → Prop) (k : Nat) : Prop :=
  ∃ i, lo ≤ i ∧ i < hi ∧ k = y.rackBase + i ∧ p (shelfAt s.shm k) ∧
    ∀ j, lo ≤ j → j < i → ¬p (shelfAt s.shm (y.rackBase + j))

/-- None of a rack's shelves with local index from `lo` to below `hi` satisfies `p`. -/
def NoShelf (s : State) (y : BayRec) (lo hi : Nat) (p : Shelf → Prop) : Prop :=
  ∀ i, lo ≤ i → i < hi → ¬p (shelfAt s.shm (y.rackBase + i))

/-- Where a bay's empty reserve begins, its general region ending there (R133). -/
def emptyFrom (s : State) (b : Nat) (y : BayRec) : Nat :=
  y.rackCount - (reserveOf s.shm b).hot - (reserveOf s.shm b).empty

/-- Where a bay's hot reserve begins, its empty reserve ending there (R133). -/
def hotFrom (s : State) (b : Nat) (y : BayRec) : Nat := y.rackCount - (reserveOf s.shm b).hot

/-- How many of a rack's shelves with local index from `lo` to below `hi` satisfy `p`. -/
def shelvesWith (s : State) (y : BayRec) (lo hi : Nat) (p : Shelf → Bool) : Nat :=
  ((List.range hi).filter (fun i => decide (lo ≤ i) && p (shelfAt s.shm (y.rackBase + i)))).length

/-- The counts of a region, its shelves those with local index from `lo` to below `hi` (R134). -/
def countsOf (s : State) (y : BayRec) (lo hi : Nat) : RegionCount :=
  { free := shelvesWith s y lo hi (fun sh => decide (sh.state = .free))
    inbound := shelvesWith s y lo hi (fun sh => decide (sh.state = .inbound))
    heldFull := shelvesWith s y lo hi (fun sh => decide (sh.state = .held ∧ sh.emptyFlag = false))
    heldEmpty := shelvesWith s y lo hi (fun sh => decide (sh.state = .held ∧ sh.emptyFlag = true))
    outbound := shelvesWith s y lo hi (fun sh => decide (sh.state = .outbound)) }

/-- A FREE shelf. -/
def isFree (sh : Shelf) : Prop := sh.state = .free

/-- A HELD shelf with its empty flag set. -/
def holdsEmpty (sh : Shelf) : Prop := sh.state = .held ∧ sh.emptyFlag = true

/-- Bay `c` offers shelf `k` to a RETURN_EMPTY: open, and `k` the first FREE shelf of its empty reserve (R139). -/
def OffersReturn (s : State) (c k : Nat) : Prop :=
  bayOpen s.bac c = true ∧ ∃ y, tblGet s.lyt.bays c = some y ∧ FirstShelf s y (emptyFrom s c y) (hotFrom s c y) isFree k

/-- Bay `c` offers shelf `k` to a SUPPLY_EMPTY: open, and `k` the first HELD shelf with its empty flag set in its empty
reserve, or, with none there, in its general region (R140). -/
def OffersSupply (s : State) (c k : Nat) : Prop :=
  bayOpen s.bac c = true ∧ ∃ y, tblGet s.lyt.bays c = some y ∧
    (FirstShelf s y (emptyFrom s c y) (hotFrom s c y) holdsEmpty k ∨
      (NoShelf s y (emptyFrom s c y) (hotFrom s c y) holdsEmpty ∧ FirstShelf s y 0 (emptyFrom s c y) holdsEmpty k))

/-- The claiming order's host tag of a shelf record (R143). -/
def claimTagOf (s : State) (sh : Shelf) : Option Nat :=
  match sh.claim with
  | some h => (tblGet s.ort.orders h).map (fun o => o.hostTag)
  | none => none

/-! ## Payloads with optional fields (R184, R186, section 11.3) -/

/-- The presence bits of up to four optional fields, field 0 in the lowest bit. -/
def presenceByte (p0 p1 p2 p3 : Bool) : Byte :=
  BitVec.ofNat 8
    ((if p0 then 1 else 0) + (if p1 then 2 else 0) + (if p2 then 4 else 0) + (if p3 then 8 else 0))

/-- The bytes of an optional field. -/
def optionalBytes {α : Type} (f : α → List Byte) : Option α → List Byte
  | some a => f a
  | none => []

/-- A carrier tag's field: its length and its characters. -/
def tagField (t : CarrierTag) : List Byte := BitVec.ofNat 8 t.length :: t

/-- The payload of an ORDER_PLACE. -/
def encodeOrderPlace (r : OrderPlaceReq) : List Byte :=
  b4 r.hostTag ++ b1 r.kind ++ b1 r.trigger ++ b1 r.cls ++ b1 r.targeting ++ b2 r.target ++ b1 r.source.type ++
    b2 r.source.number ++ b1 r.dest.type ++ b2 r.dest.number ++
    [presenceByte r.carrierTag.isSome r.reachLimit.isSome r.batchTag.isSome r.hold] ++
    optionalBytes tagField r.carrierTag ++ optionalBytes b2 r.reachLimit ++ optionalBytes b2 r.batchTag

/-- Whether an ORDER_PLACE's fields fit their sizes. -/
structure OrderPlaceSized (r : OrderPlaceReq) : Prop where
  hostTag : r.hostTag < 4294967296
  codes : r.kind < 256 ∧ r.trigger < 256 ∧ r.cls < 256 ∧ r.targeting < 256 ∧ r.target < 65536
  source : r.source.type < 256 ∧ r.source.number < 65536
  dest : r.dest.type < 256 ∧ r.dest.number < 65536
  carrierTag : ∀ t, r.carrierTag = some t → 1 ≤ t.length ∧ t.length ≤ 12
  reachLimit : ∀ n, r.reachLimit = some n → n < 65536
  batchTag : ∀ n, r.batchTag = some n → n < 65536

/-- The payload of a BAY_TUNE. -/
def encodeBayTune (r : BayTuneReq) : List Byte :=
  b1 r.bay ++ [presenceByte r.capacity.isSome r.soft.isSome r.quota.isSome r.openFlag.isSome] ++
    optionalBytes b1 r.capacity ++ optionalBytes b1 r.soft ++ optionalBytes b1 r.quota ++ optionalBytes b1 r.openFlag

/-- Whether a BAY_TUNE's fields fit their sizes. -/
structure BayTuneSized (r : BayTuneReq) : Prop where
  bay : r.bay < 256
  capacity : ∀ n, r.capacity = some n → n < 256
  soft : ∀ n, r.soft = some n → n < 256
  quota : ∀ n, r.quota = some n → n < 256
  openFlag : ∀ n, r.openFlag = some n → n < 256

/-- The payload of a SHELF_SET. -/
def encodeShelfSet (r : ShelfSetReq) : List Byte :=
  b2 r.index ++ b1 r.state ++ b1 r.emptyFlag ++ [presenceByte r.tag.isSome false false false] ++
    optionalBytes tagField r.tag

/-- The payload of a PICK_END. -/
def encodePickEnd (r : PickEndRep) : List Byte :=
  b1 r.handle ++ [presenceByte r.tag.isSome false false false] ++ optionalBytes tagField r.tag

/-- A load as HELLO and READY carry it. -/
def encodeLoad : Load → List Byte
  | .empty => [0#8, 0#8]
  | .tagged t => [1#8, 1#8] ++ tagField t
  | .unknown => [2#8, 0#8]

/-- A list's payload: its count and its entries (R184). -/
def encodeList {α : Type} (entry : α → List Byte) (es : List α) : List Byte := b1 es.length ++ (es.map entry).flatten

/-- An entry of CLASS_WEIGHTS, of TIMING_SET and of INCIDENT_ROUTE (R186). -/
def weightField (e : WeightEntry) : List Byte := b1 e.cls ++ b2 e.base ++ b1 e.rate
def timingField (e : Nat × Nat) : List Byte := b1 e.1 ++ b2 e.2
def routeField (e : Nat × Nat) : List Byte := b1 e.1 ++ b1 e.2

end Sys2Proof.Machine
end

