-- ==== Sys2Proof/Certificates/Slice0/Obligations.lean ====
section
/-! DEFINITION. The statements for the provers: the command queue, the resets and pins, the lines, the layout, the
settings, the orders, the vehicles and their reports, bay admission, the shelves, the survey, the faults, and the
invariants that every command keeps. The terms they use are Machine/*.lean's own and those of Safety.lean. -/

open Sys2Proof Sys2Proof.Machine

/-! ## The command queue -/

/-- A step runs the command at the front of the queue on the state with the queue's rest. -/
def Obligations.StepRunsTheFrontCommand : Prop :=
  ∀ (c : Instr) (rest : List Instr) (s : State),
    s.pending = c :: rest → step s = exec c { s with pending := rest }

/-- What a step does on an empty queue. The steps that are due are the ones the rules name (R1, R71, R72, R99, R102,
R107, R122, R125, R127, R149, R152, R163, R173 to R177, R181). The rest is the model's choice (logs 2, 3, 6 and 7):
with none due engine time advances by one decisecond, up to its largest value; where a timer expires, one of the due
steps is queued; and where only steps that a block takes of its own accord are due, one of them is queued or engine
time advances first. -/
def Obligations.EmptyQueueTakesWhatIsDue : Prop :=
  (∀ s c, c ∈ dueSteps s ↔ DueNow s c) ∧
  (∀ s t, s.pending = [] →
    t = { s with
      now := min 4294967295 (s.now + 1), choices := s.choices + 1
      liu := { s.liu with hostTx := none, fleetTx := none } } →
    ((∀ c, ¬DueNow s c) → step s = .next t) ∧
    ((∃ c, DueNow s c ∧ isExpiry c = true) →
      ∃ c, DueNow s c ∧ step s = .next { s with pending := [c], choices := s.choices + 1 }) ∧
    ((∃ c, DueNow s c) → (∀ c, DueNow s c → isExpiry c = false) →
      step s = .next t ∨ ∃ c, DueNow s c ∧ step s = .next { s with pending := [c], choices := s.choices + 1 }))

/-! ## Resets and pins -/

/-- A power-on reset puts every block at its power-on values, whatever it held (R18, R40, R68, R89, R114, R130, R144,
R157, R171, R182). -/
def Obligations.PowerOnResetSetsEveryBlock : Prop :=
  ∀ s : State, ∃ t, exec .powerOnReset s = .next t ∧ t.now = 0 ∧
    t.lyt =
      { opState := .unloaded, bayCount := 0, portCount := 0, expected := some .layoutOpen, loop := none, bays := []
        ports := [], lock := false } ∧
    t.ort =
      { orders := [], batches := [], nextSeq := 1, gate := 0
        weights := { bulk := ⟨0, 2⟩, normal := ⟨1000, 10⟩, expedite := ⟨4000, 20⟩, hot := ⟨12000, 50⟩ } } ∧
    t.asa =
      { examPending := false, rescan := none, tRescan := 10, chainDepth := 2, wPark := 20, wDorm := 150, wC := 30 } ∧
    t.vht =
      { vehicles := [], tTake := 30, tSilent := 50, tPark := 300, tDorm := 1800, parkOn := true, dormOn := true } ∧
    t.bac = { bays := [], tGrant := 100, tYield := 150, tEntry := 600 } ∧
    t.shm = { shelves := [], reserves := [] } ∧
    (t.iss.mode = .singleOnce ∧ t.iss.first = 0 ∧ t.iss.last = 0 ∧ t.iss.aOn = false ∧ t.iss.aPeriod = 600 ∧
      t.iss.bOn = false ∧ t.iss.skipN = 0 ∧ t.iss.everyM = 4 ∧ t.iss.skipLeft = 0 ∧ t.iss.stepCount = 0 ∧
      t.iss.state = .idle ∧ t.iss.current = 0 ∧ t.iss.pendingStart = false ∧ t.iss.timer = none) ∧
    t.fcr =
      { capture := none, furtherRec := false, furtherFatal := false, tOrphan := 3000
        routes := [.note, .note, .alarm, .note, .note, .note, .note, .note, .note, .alarm, .alarm, .note] } ∧
    almnAsserted t = false ∧
    (t.liu.hostRx = [] ∧ t.liu.hostQueue = [] ∧ t.liu.replySlot = none ∧ t.liu.restartPending = false ∧
      t.liu.hostTx = none ∧ t.liu.notices = [] ∧ t.liu.gapMark = false ∧ t.liu.fleetRx = [] ∧ t.liu.fleetIn = [] ∧
      t.liu.fleetOut = [])

/-- A RESTART in RUNNING replies with engine time and stops the taking of requests; its effect, once the reply has
left, resets each block as R19, R69, R89, R114, R130, R145, R157, R171 and R181 state, and before that it has none.
That the reply has left is what the command RESTART_EFFECT says, the model's choice (log 7). -/
def Obligations.RestartRepliesThenResets : Prop :=
  (∀ s tag b, askedRunning s 0x3E tag [b] →
    exec .restart s =
      .next (replied 0x3E tag .ok (.time s.now) { s with liu := { s.liu with restartPending := true } })) ∧
  (∀ s, s.liu.restartPending = true → s.liu.replySlot = none → tblWf s.shm.shelves = true →
    ∃ t, exec .restartEffect s = .next t ∧ t.now = s.now ∧ t.gwrdy = s.gwrdy ∧ t.lyt = s.lyt ∧ t.fcr = s.fcr ∧
      t.pending = s.pending ∧ t.choices = s.choices ∧
      t.ort = { s.ort with orders := [], batches := [], nextSeq := 1 } ∧
      t.asa = { s.asa with examPending := false, rescan := none } ∧
      t.vht = { s.vht with vehicles := [] } ∧
      t.bac = { s.bac with bays := t.bac.bays } ∧
      (∀ b, tblGet t.bac.bays b =
        (tblGet s.bac.bays b).map (fun y => { y with admitted := [], queue := [], yield := none })) ∧
      t.shm.reserves = s.shm.reserves ∧
      (∀ k, shelfAt t.shm k =
        match (shelfAt s.shm k).state with
        | .inbound => { state := .free, tag := none, emptyFlag := false, claim := none }
        | .outbound => { shelfAt s.shm k with state := .held, claim := none }
        | .held => shelfAt s.shm k
        | .free => shelfAt s.shm k) ∧
      t.iss = { s.iss with state := .idle, current := s.iss.first, pendingStart := false, timer := none } ∧
      t.liu = { s.liu with
        hostQueue := [], restartPending := false, hostTx := none, notices := [], gapMark := false, fleetOut := [] }) ∧
  (∀ s, ¬(s.liu.restartPending = true ∧ s.liu.replySlot = none) → exec .restartEffect s = .next s)

/-- GWRDY falling discards the fleet frames, raises LINE_DOWN once and takes every ONLINE vehicle OFFLINE with
LINE_DOWN; no queue entry and no GRANTED entry is left in any bay; the layout and the sequencer are untouched (R19,
R128, R157, R166). Where layers and orders agree and no vehicle has two STAGED or two ACTIVE layers (R41, R91), the
order staged on such a vehicle returns to QUEUED, its ACTIVE order goes by its state, and no other order changes (R50,
R52, R163, R165, R166). A rise changes the pin alone (R166). That the command of a fall has no effect while the pin is
low is the model's choice (log 4). -/
def Obligations.GwrdyFallLosesEveryVehicle : Prop :=
  (∀ s, s.gwrdy = true →
    ∃ t, exec .gwrdyFall s = .next t ∧ t.gwrdy = false ∧ t.now = s.now ∧ t.lyt = s.lyt ∧ t.iss = s.iss ∧
      t.liu = { s.liu with
        fleetRx := [], fleetIn := [], fleetOut := [], fleetTx := none, notices := t.liu.notices,
        gapMark := t.liu.gapMark } ∧
      t.fcr = captureOffer s.fcr
        { cls := .lineDown, time := s.now, fleetId := none, handle := none, place := none, position := none,
          code := none } ∧
      (∀ k v, tblGet s.vht.vehicles k = some v →
        ∃ w, tblGet t.vht.vehicles k = some w ∧
          w.link = (if v.link = .online then .offline .lineDown else v.link) ∧ w.fleetId = v.fleetId ∧
          w.load = v.load ∧ w.position = v.position ∧ w.hostStall = v.hostStall ∧ w.faultStall = v.faultStall ∧
          (v.link = .online → w.silence = none)) ∧
      (∀ e ∈ t.bac.bays, e.2.queue = [] ∧ ∀ a ∈ e.2.admitted, a.inside = true) ∧
      (TablesCanonical s → FleetConsistent s →
        (∀ h o k i v, tblGet s.ort.orders h = some o → o.loc = some (k, i) → tblGet s.vht.vehicles k = some v →
          v.link = .online →
          (v.layer i = .staged h → tblGet t.ort.orders h = some (returnedOrder s.now .queued o)) ∧
          (v.layer i = .active h →
            (o.state = .toSource → tblGet t.ort.orders h = some (returnedOrder s.now .queued o)) ∧
            (o.state = .cancelling →
              tblGet t.ort.orders h =
                some { o with
                  state := .cancelled, endedAt := some s.now, endReason := some .cancelledByHost, loc := none
                  prior := none, abortPending := false, suspendReason := none, orphan := none }) ∧
            (o.state = .picking ∨ o.state = .carrying ∨ o.state = .placing →
              tblGet t.ort.orders h = some (suspendedOrder s .lost o)) ∧
            (o.state = .suspended → tblGet t.ort.orders h = some { o with suspendReason := some .lost }))) ∧
        (∀ h,
          (∀ k i v, tblGet s.vht.vehicles k = some v → v.link = .online →
            v.layer i ≠ .staged h ∧ v.layer i ≠ .active h) →
          tblGet t.ort.orders h = tblGet s.ort.orders h))) ∧
  (∀ s, s.gwrdy = false → exec .gwrdyFall s = .next s) ∧
  (∀ s, exec .gwrdyRise s = .next { s with gwrdy := true })

/-! ## The lines -/

/-- A frame laid out by R183 around a body of 4 to 1024 bytes, after any bytes that hold no start byte, is received
whole by a receiver that hunts: on the host line it is placed by R174, on the fleet line, while GWRDY is high, by
R177; while GWRDY is low the fleet receiver takes nothing. -/
def Obligations.FramesAreReceivedWhole : Prop :=
  (∀ (s : State) (noise body : List Byte), s.liu.hostRx = [] → 0xA5#8 ∉ noise → 4 ≤ body.length →
    body.length ≤ 1024 →
    exec (.hostFrameReceived (noise ++ frameOf body)) s =
      .next { s with
        liu := { s.liu with
          hostQueue :=
            if waitingFrames s.liu.hostQueue < 8 then s.liu.hostQueue ++ [.frame body]
            else if heldMarks s.liu.hostQueue < 8 then
              s.liu.hostQueue ++ [.mark (u16 (body.getD 1 0#8) (body.getD 2 0#8))]
            else s.liu.hostQueue } }) ∧
  (∀ (s : State) (noise body : List Byte), s.liu.fleetRx = [] → s.gwrdy = true → 0xA5#8 ∉ noise →
    4 ≤ body.length → body.length ≤ 1024 →
    exec (.fleetFrameReceived (noise ++ frameOf body)) s =
      .next { s with
        liu := { s.liu with
          fleetIn := if s.liu.fleetIn.length < 32 then s.liu.fleetIn ++ [body] else s.liu.fleetIn } }) ∧
  (∀ (s : State) (bytes : List Byte), s.gwrdy = false → exec (.fleetFrameReceived bytes) s = .next s)

/-- How the bytes of a line are cut into arrivals makes no difference (R172). -/
def Obligations.ReceiversIgnoreHowBytesAreCut : Prop :=
  (∀ (s t : State) (early late : List Byte), exec (.hostFrameReceived early) s = .next t →
    exec (.hostFrameReceived late) t = exec (.hostFrameReceived (early ++ late)) s) ∧
  (∀ (s t : State) (early late : List Byte), exec (.fleetFrameReceived early) s = .next t →
    exec (.fleetFrameReceived late) t = exec (.fleetFrameReceived (early ++ late)) s)

/-- Messages leave in the order they came. The free transmitters send the reply in the slot, otherwise the oldest
notice, and the oldest fleet command; a notice waits while a reply is in the slot or a RESTART awaits its effect
(R175, R176, R177, R181). A notice joins the queue of 64 with the GAP flag of the gap mark, which it clears; with 64
waiting it is discarded and the mark is set (R176). A fleet command joins the queue of 32, and is discarded while 32
wait or GWRDY is low (R166, R177). That the transmitter is free is what the command says, the model's choice (log 7).
-/
def Obligations.MessagesLeaveInOrder : Prop :=
  (∀ s r, s.liu.replySlot = some r →
    exec .replyTransmit s =
      .next { s with liu := { s.liu with replySlot := none, hostTx := some (frameOf (replyBody r)) } }) ∧
  (∀ s n rest, s.liu.replySlot = none → s.liu.restartPending = false → s.liu.notices = n :: rest →
    exec .noticeTransmit s =
      .next { s with liu := { s.liu with notices := rest, hostTx := some (frameOf (noticeBody n)) } }) ∧
  (∀ s, s.liu.replySlot ≠ none ∨ s.liu.restartPending = true → exec .noticeTransmit s = .next s) ∧
  (∀ s c rest, s.gwrdy = true → s.liu.fleetOut = c :: rest →
    exec .fleetCommandTransmit s =
      .next { s with liu := { s.liu with fleetOut := rest, fleetTx := some (frameOf (commandBody c)) } }) ∧
  (∀ (n : Notice) (s : State), s.liu.notices.length < 64 →
    queueNotice n s =
      { s with
        liu := { s.liu with
          notices := s.liu.notices ++ [{ gap := s.liu.gapMark, notice := n }], gapMark := false } }) ∧
  (∀ (n : Notice) (s : State), 64 ≤ s.liu.notices.length →
    queueNotice n s = { s with liu := { s.liu with gapMark := true } }) ∧
  (∀ (f : Nat) (b : CommandBody) (s : State), s.gwrdy = true → s.liu.fleetOut.length < 32 →
    issue f b s = { s with liu := { s.liu with fleetOut := s.liu.fleetOut ++ [{ fleetId := f, body := b }] } }) ∧
  (∀ (f : Nat) (b : CommandBody) (s : State), s.gwrdy = false ∨ 32 ≤ s.liu.fleetOut.length → issue f b s = s)

/-- The screening of the heads of the input queues (R173, R174, R175, R177): a BUSY mark and a kind that is no request
are answered with the general reply kind, a malformed request is answered BAD_FIELD by its own row, a report of
another kind or form is dropped, and nothing is taken from the host input queue while the reply slot is full or a
RESTART awaits its effect. Outside RUNNING every well-formed request but the layout records, STATUS, CAPTURE_READ and
CAPTURE_CLEAR is answered WRONG_STATE and changes nothing, and a HELLO is answered WELCOME with NOT_READY (R4). A
well-formed report other than HELLO from a fleet id not in the map, or from a record that is not ONLINE, is dropped and
changes nothing (R98, R177). That a request's form is screened before R4 is read is the model's choice (log 13). -/
def Obligations.HeadsAreScreened : Prop :=
  (∀ s tag rest, s.liu.replySlot = none → s.liu.restartPending = false → s.liu.hostQueue = .mark tag :: rest →
    exec .busyMarkReply s =
      .next { s with
        liu := { s.liu with
          hostQueue := rest
          replySlot := some { kind := 0x80, tag := tag, status := .busy, payload := .none } } }) ∧
  (∀ s kind tag payload, requestWaits s kind tag payload → hostRow kind = none →
    exec .badKind s =
      .next { s with
        liu := { s.liu with
          hostQueue := s.liu.hostQueue.tail
          replySlot := some { kind := 0x80, tag := tag, status := .badKind, payload := .none } } }) ∧
  (∀ s kind tag payload i, requestWaits s kind tag payload → hostRow kind = some i →
    requestFits kind payload = false → exec i s = .next (replied kind tag .badField .none s)) ∧
  (∀ s body rest, s.liu.fleetIn = body :: rest →
    fleetRow (u8 (body.getD 0 0#8)) (body.drop 3) = none →
    exec .fleetFrameDrop s = .next { s with liu := { s.liu with fleetIn := rest } }) ∧
  (∀ s kind i, s.liu.replySlot ≠ none ∨ s.liu.restartPending = true → hostRow kind = some i →
    exec i s = .next s ∧ exec .busyMarkReply s = .next s ∧ exec .badKind s = .next s) ∧
  (∀ s kind tag payload i, requestWaits s kind tag payload → hostRow kind = some i → takenInEveryState kind = false →
    requestFits kind payload = true → s.lyt.opState ≠ .running →
    exec i s = .next (replied kind tag .wrongState .none s)) ∧
  (∀ (s : State) (k f0 f1 : Byte) (payload : List Byte) (rest : List (List Byte)),
    s.liu.fleetIn = (k :: f0 :: f1 :: payload) :: rest → u8 k = 0x51 → (decodeHello payload).isSome = true →
    0 < u16 f0 f1 → u16 f0 f1 < 65535 → s.lyt.opState ≠ .running →
    exec .hello s =
      .next (issue (u16 f0 f1) (.welcome .notReady 0 none) { s with liu := { s.liu with fleetIn := rest } })) ∧
  (∀ (s : State) (k f0 f1 : Byte) (payload : List Byte) (rest : List (List Byte)) (i : Instr),
    s.liu.fleetIn = (k :: f0 :: f1 :: payload) :: rest → fleetRow (u8 k) payload = some i → i ≠ .hello →
    slotOf s.vht (u16 f0 f1) = none ∨
      (∃ slot v, slotOf s.vht (u16 f0 f1) = some slot ∧ tblGet s.vht.vehicles slot = some v ∧ v.link ≠ .online) →
    exec i s = .next { s with liu := { s.liu with fleetIn := rest } })

/-- A request kind of fixed size takes exactly the payloads of its size, and its fields stand where R186 has them; the
lists and the payloads with optional fields are read as they are laid out: every field of every value that its size
admits comes back (R173, R184, R186, section 11.3). A load code that section 11.3 does not list is not malformed
(R184); which load it stands for is a free value (log 34). -/
def Obligations.PayloadsAreReadAsLaidOut : Prop :=
  (∀ kind n payload, fixedSize kind = some n → (requestFits kind payload = true ↔ payload.length = n)) ∧
  (∀ r, OrderPlaceSized r → decodeOrderPlace (encodeOrderPlace r) = some r) ∧
  (∀ r, BayTuneSized r → decodeBayTune (encodeBayTune r) = some r) ∧
  (∀ r : ShelfSetReq, r.index < 65536 → r.state < 256 → r.emptyFlag < 256 →
    (∀ t, r.tag = some t → 1 ≤ t.length ∧ t.length ≤ 12) → decodeShelfSet (encodeShelfSet r) = some r) ∧
  (∀ r : PickEndRep, r.handle < 256 → (∀ t, r.tag = some t → 1 ≤ t.length ∧ t.length ≤ 12) →
    decodePickEnd (encodePickEnd r) = some r) ∧
  (∀ l : Load, (∀ t, l = .tagged t → 1 ≤ t.length ∧ t.length ≤ 12) → decodeLoad (encodeLoad l) = some l) ∧
  (∀ c : Byte, 3 ≤ u8 c → decodeLoad [c, 0#8] = some .empty ∨ decodeLoad [c, 0#8] = some .unknown) ∧
  (∀ es : List WeightEntry, es.length < 256 → (∀ e ∈ es, e.cls < 256 ∧ e.base < 65536 ∧ e.rate < 256) →
    decodeClassWeights (encodeList weightField es) = some es) ∧
  (∀ es : List (Nat × Nat), es.length < 256 → (∀ e ∈ es, e.1 < 256 ∧ e.2 < 65536) →
    decodeTimingSet (encodeList timingField es) = some es) ∧
  (∀ es : List (Nat × Nat), es.length < 256 → (∀ e ∈ es, e.1 < 256 ∧ e.2 < 256) →
    decodeIncidentRoute (encodeList routeField es) = some es) ∧
  (∀ r : LayoutOpenReq, r.bays < 256 → r.ports < 65536 → decodeLayoutOpen (b1 r.bays ++ b2 r.ports) = some r) ∧
  (∀ r : LoopDefReq, r.length < 65536 → r.speed < 256 → decodeLoopDef (b2 r.length ++ b1 r.speed) = some r) ∧
  (∀ r : BayDefReq, r.bay < 256 → r.length < 65536 → r.speed < 256 → r.exit < 65536 → r.entryJ < 65536 →
    r.exitJ < 65536 → r.park < 65536 → r.rackCount < 256 → r.rackBase < 65536 → r.rackFirst < 65536 →
    r.rackPitch < 256 → r.rackHandoff < 65536 →
    decodeBayDef
      (b1 r.bay ++ b2 r.length ++ b1 r.speed ++ b2 r.exit ++ b2 r.entryJ ++ b2 r.exitJ ++ b2 r.park ++
        b1 r.rackCount ++ b2 r.rackBase ++ b2 r.rackFirst ++ b1 r.rackPitch ++ b2 r.rackHandoff) = some r) ∧
  (∀ r : PortDefReq, r.port < 65536 → r.bay < 256 → r.coord < 65536 → r.handoff < 65536 → r.kind < 256 →
    decodePortDef (b2 r.port ++ b1 r.bay ++ b2 r.coord ++ b2 r.handoff ++ b1 r.kind) = some r) ∧
  (∀ r : PortStateReq, r.port < 65536 → r.state < 256 → decodePortState (b2 r.port ++ b1 r.state) = some r) ∧
  (∀ r : ReserveSetReq, r.bay < 256 → r.hot < 256 → r.empty < 256 → r.lock < 256 →
    decodeReserveSet (b1 r.bay ++ b1 r.hot ++ b1 r.empty ++ b1 r.lock) = some r) ∧
  (∀ r : OrderRef, r.handle < 256 → r.hostTag < 4294967296 →
    decodeOrderRef (b1 r.handle ++ b4 r.hostTag) = some r ∧
    (∀ e : EndpointField, e.type < 256 → e.number < 65536 →
      decodeOrderRetarget (b1 r.handle ++ b4 r.hostTag ++ b1 e.type ++ b2 e.number) =
        some { order := r, dest := e }) ∧
    (∀ n, n < 65536 →
      decodeOrderResource (b1 r.handle ++ b4 r.hostTag ++ b2 n) = some { order := r, value := n }) ∧
    (∀ n, n < 256 → decodeDemandAck (b1 r.handle ++ b4 r.hostTag ++ b1 n) = some { order := r, value := n })) ∧
  (∀ n, n < 256 → decodeU8 (b1 n) = some n) ∧
  (∀ n, n < 65536 → decodeU16 (b2 n) = some n) ∧
  (∀ r : VehicleNumReq, r.fleetId < 65536 → r.value < 256 → decodeVehicleNum (b2 r.fleetId ++ b1 r.value) = some r) ∧
  (∀ r : SelectReq, r.selector < 256 → r.number < 65536 → decodeSelect (b1 r.selector ++ b2 r.number) = some r) ∧
  (∀ r : SurveySetupReq, r.mode < 256 → r.first < 256 → r.last < 256 → r.aEnable < 256 → r.period < 65536 →
    r.bEnable < 256 → r.skipN < 256 → r.everyM < 256 →
    decodeSurveySetup
      (b1 r.mode ++ b1 r.first ++ b1 r.last ++ b1 r.aEnable ++ b2 r.period ++ b1 r.bEnable ++ b1 r.skipN ++
        b1 r.everyM) = some r) ∧
  (∀ r : HelloRep, r.zone < 256 → r.coord < 65536 → (∀ t, r.load = .tagged t → 1 ≤ t.length ∧ t.length ≤ 12) →
    decodeHello (b1 r.zone ++ b2 r.coord ++ encodeLoad r.load) = some r) ∧
  (∀ r : PointRep, r.zone < 256 → r.coord < 65536 → decodePos (b1 r.zone ++ b2 r.coord) = some r) ∧
  (∀ r : TakenRep, r.handle < 256 → r.layer < 256 → decodeTaken (b1 r.handle ++ b1 r.layer) = some r) ∧
  (∀ r : PlaceRep, r.handle < 256 → r.dest.type < 256 → r.dest.number < 65536 →
    decodePlace (b1 r.handle ++ b1 r.dest.type ++ b2 r.dest.number) = some r) ∧
  (∀ r : FaultRep, r.severity < 256 → decodeFault (b1 r.severity ++ [r.code]) = some r)

/-! ## The layout -/

/-- LAYOUT_OPEN in each engine state (R5, R6, R12, R13): in UNLOADED the counts are checked and the load begins; in
LOADING it is out of order and abandons the load; in RUNNING the lock, the live orders and the counts are checked in
that order, and an accepted one empties the blocks that depend on the layout. -/
def Obligations.LayoutOpenByEngineState : Prop :=
  ∀ (s : State) (tag : Nat) (b p0 p1 : Byte), requestWaits s 0x01 tag [b, p0, p1] →
    (s.lyt.opState = .unloaded → 1 ≤ u8 b ∧ u8 b ≤ 32 ∧ u16 p0 p1 ≤ 512 →
      exec .layoutOpen s =
        .next (replied 0x01 tag .ok .none { s with
          lyt :=
            { opState := .loading, bayCount := u8 b, portCount := u16 p0 p1, expected := some .loopDef, loop := none
              bays := [], ports := [], lock := s.lyt.lock } })) ∧
    (s.lyt.opState = .unloaded → ¬(1 ≤ u8 b ∧ u8 b ≤ 32 ∧ u16 p0 p1 ≤ 512) →
      exec .layoutOpen s = .next (replied 0x01 tag .badField .none s)) ∧
    (∀ r, s.lyt.opState = .loading → s.lyt.expected = some r →
      exec .layoutOpen s =
        .next (replied 0x01 tag .orderSeq (.expected r) { s with
          lyt :=
            { opState := .unloaded, bayCount := 0, portCount := 0, expected := some .layoutOpen, loop := none
              bays := [], ports := [], lock := s.lyt.lock } })) ∧
    (s.lyt.opState = .running → s.lyt.lock = true →
      exec .layoutOpen s = .next (replied 0x01 tag .locked .none s)) ∧
    (s.lyt.opState = .running → s.lyt.lock = false → (∃ e ∈ s.ort.orders, e.2.state.live = true) →
      exec .layoutOpen s = .next (replied 0x01 tag .wrongState .none s)) ∧
    (s.lyt.opState = .running → s.lyt.lock = false → (∀ e ∈ s.ort.orders, e.2.state.live = false) →
      ¬(1 ≤ u8 b ∧ u8 b ≤ 32 ∧ u16 p0 p1 ≤ 512) →
      exec .layoutOpen s = .next (replied 0x01 tag .badField .none s)) ∧
    (s.lyt.opState = .running → s.lyt.lock = false → (∀ e ∈ s.ort.orders, e.2.state.live = false) →
      1 ≤ u8 b ∧ u8 b ≤ 32 ∧ u16 p0 p1 ≤ 512 →
      exec .layoutOpen s =
        .next (replied 0x01 tag .ok .none { s with
          lyt :=
            { opState := .loading, bayCount := u8 b, portCount := u16 p0 p1, expected := some .loopDef, loop := none
              bays := [], ports := [], lock := false }
          ort := { s.ort with orders := [] }
          asa := { s.asa with examPending := false, rescan := none }
          vht := { s.vht with vehicles := [] }
          bac := { s.bac with bays := [] }
          shm := { shelves := [], reserves := [] }
          iss := { s.iss with
            state := .idle, first := 0, last := 0, current := 0, pendingStart := false, timer := none } }))

/-- A matching LOOP_DEF is checked and stored (R7). -/
def Obligations.MatchingLoopDefIsStored : Prop :=
  ∀ (s : State) (tag : Nat) (l0 l1 v : Byte), requestWaits s 0x02 tag [l0, l1, v] → s.lyt.opState = .loading →
    s.lyt.expected = some .loopDef →
    (64 ≤ u16 l0 l1 ∧ 1 ≤ u8 v ∧ u8 v ≤ 120 →
      exec .loopDef s =
        .next (replied 0x02 tag .ok .none { s with
          lyt := { s.lyt with
            loop := some { length := u16 l0 l1, speed := u8 v }, expected := some (.bayDef 0) } })) ∧
    (¬(64 ≤ u16 l0 l1 ∧ 1 ≤ u8 v ∧ u8 v ≤ 120) → exec .loopDef s = .next (replied 0x02 tag .badField .none s))

/-- A matching BAY_DEF and a matching PORT_DEF are checked and stored, and the next record is expected (R5, R8, R9).
The four records after LAYOUT_OPEN, out of order: in UNLOADED they are answered ORDER_SEQ and change nothing, in
RUNNING WRONG_STATE, and in LOADING one that is not the expected record abandons the load (R5). -/
def Obligations.LayoutRecordsAreTakenInOrder : Prop :=
  (∀ (s : State) (tag : Nat) (b l0 l1 v x0 x1 e0 e1 j0 j1 p0 p1 n c0 c1 f0 f1 h t0 t1 : Byte),
    requestWaits s 0x03 tag [b, l0, l1, v, x0, x1, e0, e1, j0, j1, p0, p1, n, c0, c1, f0, f1, h, t0, t1] →
    s.lyt.opState = .loading → s.lyt.expected = some (.bayDef (u8 b)) →
    (16 ≤ u16 l0 l1 ∧ 1 ≤ u8 v ∧ u8 v ≤ 60 ∧ u8 n ≤ 64 ∧ u16 c0 c1 ≤ 1023 ∧ 1 ≤ u8 h ∧ 1 ≤ u16 t0 t1 ∧
        u16 t0 t1 ≤ 600 →
      exec .bayDef s =
        .next (replied 0x03 tag .ok .none { s with
          lyt := { s.lyt with
            bays :=
              tblSet s.lyt.bays (u8 b)
                { length := u16 l0 l1, speed := u8 v, exit := u16 x0 x1, entryJ := u16 e0 e1, exitJ := u16 j0 j1
                  park := u16 p0 p1, rackCount := u8 n, rackBase := u16 c0 c1, rackFirst := u16 f0 f1
                  rackPitch := u8 h, rackHandoff := u16 t0 t1 }
            expected :=
              some
                (if u8 b + 1 < s.lyt.bayCount then .bayDef (u8 b + 1)
                else if s.lyt.portCount = 0 then .layoutClose
                else .portDef 0) } })) ∧
    (¬(16 ≤ u16 l0 l1 ∧ 1 ≤ u8 v ∧ u8 v ≤ 60 ∧ u8 n ≤ 64 ∧ u16 c0 c1 ≤ 1023 ∧ 1 ≤ u8 h ∧ 1 ≤ u16 t0 t1 ∧
        u16 t0 t1 ≤ 600) →
      exec .bayDef s = .next (replied 0x03 tag .badField .none s))) ∧
  (∀ (s : State) (tag : Nat) (p0 p1 b c0 c1 h0 h1 k : Byte),
    requestWaits s 0x04 tag [p0, p1, b, c0, c1, h0, h1, k] → s.lyt.opState = .loading →
    s.lyt.expected = some (.portDef (u16 p0 p1)) →
    (∀ kind, u8 b < s.lyt.bayCount ∧ 1 ≤ u16 h0 h1 ∧ u16 h0 h1 ≤ 600 →
      (u8 k = 0 ∧ kind = .tool ∨ u8 k = 1 ∧ kind = .stocker) →
      exec .portDef s =
        .next (replied 0x04 tag .ok .none { s with
          lyt := { s.lyt with
            ports :=
              tblSet s.lyt.ports (u16 p0 p1)
                { bay := u8 b, coord := u16 c0 c1, handoff := u16 h0 h1, kind := kind, isOpen := true }
            expected :=
              some (if u16 p0 p1 + 1 < s.lyt.portCount then .portDef (u16 p0 p1 + 1) else .layoutClose) } })) ∧
    (¬(u8 b < s.lyt.bayCount ∧ 1 ≤ u16 h0 h1 ∧ u16 h0 h1 ≤ 600 ∧ u8 k ≤ 1) →
      exec .portDef s = .next (replied 0x04 tag .badField .none s))) ∧
  (∀ (s : State) (kind tag : Nat) (payload : List Byte) (i : Instr) (rec : LayoutRecord),
    requestWaits s kind tag payload → hostRow kind = some i → requestFits kind payload = true →
    recordOf kind payload = some rec →
    (s.lyt.opState = .unloaded → s.lyt.expected = some .layoutOpen →
      exec i s = .next (replied kind tag .orderSeq (.expected .layoutOpen) s)) ∧
    (s.lyt.opState = .running → exec i s = .next (replied kind tag .wrongState .none s)) ∧
    (∀ r, s.lyt.opState = .loading → s.lyt.expected = some r → r ≠ rec →
      exec i s =
        .next (replied kind tag .orderSeq (.expected r) { s with
          lyt :=
            { opState := .unloaded, bayCount := 0, portCount := 0, expected := some .layoutOpen, loop := none
              bays := [], ports := [], lock := s.lyt.lock } })))

/-- A matching LAYOUT_CLOSE is accepted exactly when the loaded layout passes the seven checks of R10, and the blocks
then start as R11 states; otherwise it is answered LAYOUT_INVALID with the code of the first check that fails and the
lowest bay or port for which it does, and the load is discarded. That no record is expected in RUNNING is the model's
choice (log 27). -/
def Obligations.LayoutCloseAcceptsExactlyValidLayouts : Prop :=
  ∀ (s : State) (tag : Nat) (b : Byte), requestWaits s 0x05 tag [b] → s.lyt.opState = .loading →
    s.lyt.expected = some .layoutClose →
    (LayoutValid s.lyt →
      ∃ t, exec .layoutClose s = .next t ∧
        t.lyt = { s.lyt with opState := .running, expected := none, ports := t.lyt.ports } ∧
        (∀ p, tblGet t.lyt.ports p = (tblGet s.lyt.ports p).map (fun r => { r with isOpen := true })) ∧
        t.bac = { s.bac with bays := t.bac.bays } ∧
        (∀ c, tblGet t.bac.bays c =
          (tblGet s.lyt.bays c).map (fun _ =>
            { capacity := 8, soft := 6, quota := 1, isOpen := true, admitted := [], queue := [], yield := none })) ∧
        (∀ k, shelfAt t.shm k = { state := .free, tag := none, emptyFlag := false, claim := none }) ∧
        (∀ c, reserveOf t.shm c = { hot := 0, empty := 0, lock := false }) ∧
        t.vht = { s.vht with vehicles := [] } ∧ t.ort = { s.ort with orders := [], batches := [] } ∧
        t.iss = { s.iss with state := .idle } ∧ t.asa = { s.asa with rescan := none } ∧ t.fcr = s.fcr ∧
        t.liu = (replied 0x05 tag .ok .none s).liu ∧ t.now = s.now ∧ t.gwrdy = s.gwrdy) ∧
    (¬LayoutValid s.lyt →
      ∃ code number, 1 ≤ code ∧ code ≤ 7 ∧ (TablesCanonical s → firstFailure s.lyt code number) ∧
        exec .layoutClose s =
          .next (replied 0x05 tag .layoutInvalid (.invalid code number) { s with
            lyt :=
              { opState := .unloaded, bayCount := 0, portCount := 0, expected := some .layoutOpen, loop := none
                bays := [], ports := [], lock := s.lyt.lock } }))

/-! ## Settings -/

/-- CLASS_WEIGHTS in RUNNING (R34): a list of one to four entries, each naming its own class, sets those classes and
keeps the others, and sets the examination-pending flag; any other list is refused and changes nothing. -/
def Obligations.ClassWeightsAreSetTogether : Prop :=
  ∀ (s : State) (tag : Nat) (payload : List Byte) (es : List WeightEntry), askedRunning s 0x13 tag payload →
    decodeClassWeights payload = some es →
    (1 ≤ es.length ∧ es.length ≤ 4 ∧ (∀ e ∈ es, e.cls ≤ 3) ∧ (es.map (fun e => e.cls)).Nodup →
      ∃ w : Weights,
        (∀ e ∈ es, ∀ c, orderClassOf e.cls = some c → w.of c = { base := e.base, rate := e.rate }) ∧
        (∀ c, (∀ e ∈ es, orderClassOf e.cls ≠ some c) → w.of c = s.ort.weights.of c) ∧
        exec .classWeights s =
          .next (replied 0x13 tag .ok (.weights w) { s with
            ort := { s.ort with weights := w }, asa := { s.asa with examPending := true } })) ∧
    (¬(1 ≤ es.length ∧ es.length ≤ 4 ∧ (∀ e ∈ es, e.cls ≤ 3) ∧ (es.map (fun e => e.cls)).Nodup) →
      exec .classWeights s = .next (replied 0x13 tag .badField .none s))

/-- TIMING_SET in RUNNING (R39, R88, R102, R113, R129, R163, R179): a list of one to fifteen entries, each naming its
own setting, is accepted; every value is stored clamped to its setting's range, the settings not named are kept, and
the reply carries all fifteen. A change of T_park, T_dorm or an enable retimes the idle level of every vehicle at
once. Nothing else is touched but the examination-pending flag, which is set when W_park, W_dorm or W_c changes or the
chaining depth rises. Any other list is refused and changes nothing. -/
def Obligations.TimingsAreClampedAndStored : Prop :=
  ∀ (s : State) (tag : Nat) (payload : List Byte) (es : List (Nat × Nat)), askedRunning s 0x14 tag payload →
    decodeTimingSet payload = some es →
    (1 ≤ es.length ∧ es.length ≤ 15 ∧ (∀ e ∈ es, 1 ≤ e.1 ∧ e.1 ≤ 15) ∧ (es.map (fun e => e.1)).Nodup →
      ∃ t, exec .timingSet s = .next t ∧
        (∀ e ∈ es, settingOf t e.1 = clampSetting e.1 e.2) ∧
        (∀ c, (∀ e ∈ es, e.1 ≠ c) → settingOf t c = settingOf s c) ∧
        t.liu = (replied 0x14 tag .ok (.timing ((List.range 15).map (fun c => (c + 1, settingOf t (c + 1))))) s).liu ∧
        t.now = s.now ∧ t.gwrdy = s.gwrdy ∧ t.pending = s.pending ∧ t.choices = s.choices ∧ t.lyt = s.lyt ∧
        t.ort = s.ort ∧ t.bac.bays = s.bac.bays ∧ t.shm = s.shm ∧ t.iss = s.iss ∧ t.asa.rescan = s.asa.rescan ∧
        t.fcr = { s.fcr with tOrphan := t.fcr.tOrphan } ∧
        (∀ k, tblGet t.vht.vehicles k =
          (tblGet s.vht.vehicles k).map (fun v => { v with idleLevel := retimedLevel s.vht t.vht s.now v })) ∧
        t.asa.examPending =
          (s.asa.examPending || decide (t.asa.wPark ≠ s.asa.wPark) || decide (t.asa.wDorm ≠ s.asa.wDorm) ||
            decide (t.asa.wC ≠ s.asa.wC) || decide (s.asa.chainDepth < t.asa.chainDepth))) ∧
    (¬(1 ≤ es.length ∧ es.length ≤ 15 ∧ (∀ e ∈ es, 1 ≤ e.1 ∧ e.1 ≤ 15) ∧ (es.map (fun e => e.1)).Nodup) →
      exec .timingSet s = .next (replied 0x14 tag .badField .none s))

/-- Single settings in RUNNING. LAYOUT_LOCK sets the lock (R14), and PORT_STATE a port's open flag, whether or not the
lock is set; opening a port that was closed sets the examination-pending flag (R17, R70). INCIDENT_ROUTE: a list of
one to twelve entries, each naming its own class and a severity, sets those routes and keeps the others; any other
list is refused and changes nothing (R169). INTAKE_GATE stores the gate and replies with it, the count of live orders
and whether BULK intake is open at that count; a value above 7 is refused (R46, R180). A raised incident sends one
notice with its class's route, and none by SILENT (R169). -/
def Obligations.LockPortsRoutesAndGateAreSet : Prop :=
  (∀ (s : State) (tag : Nat) (b : Byte), askedRunning s 0x06 tag [b] →
    exec .layoutLock s = .next (replied 0x06 tag .ok .none { s with lyt := { s.lyt with lock := true } })) ∧
  (∀ (s : State) (tag : Nat) (p0 p1 v : Byte) (r : PortRec) (isOpen : Bool),
    askedRunning s 0x12 tag [p0, p1, v] → tblGet s.lyt.ports (u16 p0 p1) = some r →
    (u8 v = 0 ∧ isOpen = false ∨ u8 v = 1 ∧ isOpen = true) →
    exec .portState s =
      .next (replied 0x12 tag .ok (.port (u16 p0 p1) { r with isOpen := isOpen }) { s with
        lyt := { s.lyt with ports := tblSet s.lyt.ports (u16 p0 p1) { r with isOpen := isOpen } }
        asa := { s.asa with examPending := s.asa.examPending || (isOpen && !r.isOpen) } })) ∧
  (∀ (s : State) (tag : Nat) (p0 p1 v : Byte), askedRunning s 0x12 tag [p0, p1, v] →
    tblGet s.lyt.ports (u16 p0 p1) = none ∨ 2 ≤ u8 v →
    exec .portState s = .next (replied 0x12 tag .badField .none s)) ∧
  (∀ (s : State) (tag : Nat) (payload : List Byte) (es : List (Nat × Nat)), askedRunning s 0x15 tag payload →
    s.fcr.routes.length = 12 → decodeIncidentRoute payload = some es →
    (1 ≤ es.length ∧ es.length ≤ 12 ∧ (∀ e ∈ es, 1 ≤ e.1 ∧ e.1 ≤ 12 ∧ e.2 ≤ 3) ∧ (es.map (fun e => e.1)).Nodup →
      ∃ routes : List NoticeSeverity, routes.length = 12 ∧
        (∀ e ∈ es, ∀ c, incidentClassOf e.1 = some c →
          some (routeOf { s.fcr with routes := routes } c) = noticeSeverityOf e.2) ∧
        (∀ c : IncidentClass, (∀ e ∈ es, e.1 ≠ c.code) →
          routeOf { s.fcr with routes := routes } c = routeOf s.fcr c) ∧
        exec .incidentRoute s =
          .next (replied 0x15 tag .ok (.routes routes) { s with fcr := { s.fcr with routes := routes } })) ∧
    (¬(1 ≤ es.length ∧ es.length ≤ 12 ∧ (∀ e ∈ es, 1 ≤ e.1 ∧ e.1 ≤ 12 ∧ e.2 ≤ 3) ∧
        (es.map (fun e => e.1)).Nodup) →
      exec .incidentRoute s = .next (replied 0x15 tag .badField .none s))) ∧
  (∀ (s : State) (tag : Nat) (g : Byte), askedRunning s 0x16 tag [g] →
    (u8 g ≤ 7 →
      exec .intakeGate s =
        .next (replied 0x16 tag .ok
          (.gate (u8 g) (s.ort.orders.filter (fun e => e.2.state.live)).length
            (decide (u8 g = 0 ∨ (s.ort.orders.filter (fun e => e.2.state.live)).length < u8 g * 32)))
          { s with ort := { s.ort with gate := u8 g } })) ∧
    (7 < u8 g → exec .intakeGate s = .next (replied 0x16 tag .badField .none s))) ∧
  (∀ (i : Incident) (s : State),
    (routeOf s.fcr i.cls = .silent → raiseIncident i s = { s with fcr := captureOffer s.fcr i }) ∧
    (routeOf s.fcr i.cls ≠ .silent →
      raiseIncident i s =
        queueNotice (.incident (routeOf s.fcr i.cls) i (captureTakes s.fcr i))
          { s with fcr := captureOffer s.fcr i }))

/-- BAY_TUNE in RUNNING (R116, R117): the carried values are stored in R116's sequence, the soft limit and the park
quota clamped to the capacity; other bays are untouched; a bay whose capacity is raised or which opens grants from its
queue with ENTRY_GRANT (R118), and otherwise no place changes; opening and a changed soft limit set the
examination-pending flag; the reply carries the bay as it then stands; and a value out of its range is refused. That
the reply lists the admitted set in the order in which its entries joined is the model's choice (log 39). -/
def Obligations.BayTuneStoresItsValues : Prop :=
  ∀ (s : State) (tag : Nat) (payload : List Byte) (r : BayTuneReq), askedRunning s 0x10 tag payload →
    decodeBayTune payload = some r →
    (∀ y, tblGet s.bac.bays r.bay = some y → r.bay < s.lyt.bayCount →
      (∀ c, r.capacity = some c → 1 ≤ c ∧ c ≤ 32) → r.soft ≠ some 0 → (∀ f, r.openFlag = some f → f ≤ 1) →
      ∃ t z n, exec .bayTune s = .next t ∧ tblGet t.bac.bays r.bay = some z ∧
        z.capacity = r.capacity.getD y.capacity ∧ z.soft = min (r.soft.getD y.soft) z.capacity ∧
        z.quota = min (r.quota.getD y.quota) z.capacity ∧
        (r.openFlag = none → z.isOpen = y.isOpen) ∧ (∀ f, r.openFlag = some f → (z.isOpen = true ↔ f = 1)) ∧
        n =
          (if y.capacity < z.capacity ∨ (y.isOpen = false ∧ z.isOpen = true) then
            grantCount { y with capacity := z.capacity, isOpen := z.isOpen }
          else 0) ∧
        z.admitted = y.admitted ++ (y.queue.take n).map (fun w => grantedEntry s w.slot) ∧
        z.queue = y.queue.drop n ∧ otherBaysKept r.bay s t ∧
        t.liu =
          (replied 0x10 tag .ok
            (.bay z.capacity z.soft z.quota z.isOpen
              (z.admitted.map (fun a => (memberId s a.slot, a.inside, a.entryTime)))
              (z.queue.map (fun w => (memberId s w.slot, w.hot, w.askedAt))))
            (grantsSent r.bay (y.queue.take n) s)).liu ∧
        t.lyt = s.lyt ∧ t.ort = s.ort ∧ t.vht = s.vht ∧ t.shm = s.shm ∧ t.iss = s.iss ∧ t.fcr = s.fcr ∧
        t.asa = { s.asa with
          examPending := s.asa.examPending || (z.isOpen && !y.isOpen) || decide (y.soft ≠ z.soft) } ∧
        t.now = s.now) ∧
    (tblGet s.bac.bays r.bay = none ∨ s.lyt.bayCount ≤ r.bay ∨ (∃ c, r.capacity = some c ∧ (c = 0 ∨ 32 < c)) ∨
        r.soft = some 0 ∨ (∃ f, r.openFlag = some f ∧ 1 < f) →
      exec .bayTune s = .next (replied 0x10 tag .badField .none s))

/-- RESERVE_SET in RUNNING, by the cases of R134 in their order: bad fields, a locked bay, reserves that do not fit,
and acceptance, which stores the reserves, sets the lock where the flag is set, and sets the examination-pending flag
where a reserve changes; the reply carries the bay's rack, its reserves, its lock and the counts of its three regions.
SHELF_SET in RUNNING, by the cases of R142 in their order: bad fields, a claimed shelf, a tag
that another shelf carries, and acceptance, which makes the shelf FREE with nothing on it, or HELD with the declared
tag and empty flag, replies with the record, and sets the examination-pending flag where the record changes. A FREE
declaration's empty flag and tag are ignored, whatever they are (R186, section 11.3); of a HELD one an empty flag that
is neither clear nor set is a bad field (R184, R186), which R142 does not list: the model's reading (log 25). -/
def Obligations.ReservesAndShelvesAreSet : Prop :=
  (∀ (s : State) (tag : Nat) (b h e l : Byte), askedRunning s 0x11 tag [b, h, e, l] →
    (tblGet s.lyt.bays (u8 b) = none ∨ s.lyt.bayCount ≤ u8 b ∨ 64 < u8 h ∨ 64 < u8 e ∨ 1 < u8 l →
      exec .reserveSet s = .next (replied 0x11 tag .badField .none s)) ∧
    (∀ y, tblGet s.lyt.bays (u8 b) = some y → u8 b < s.lyt.bayCount → u8 h ≤ 64 → u8 e ≤ 64 → u8 l ≤ 1 →
      ((reserveOf s.shm (u8 b)).lock = true →
        exec .reserveSet s = .next (replied 0x11 tag .locked .none s)) ∧
      ((reserveOf s.shm (u8 b)).lock = false → y.rackCount < u8 h + u8 e →
        exec .reserveSet s = .next (replied 0x11 tag .badField .none s)) ∧
      ((reserveOf s.shm (u8 b)).lock = false → u8 h + u8 e ≤ y.rackCount →
        exec .reserveSet s =
          .next (replied 0x11 tag .ok
            (.reserve (u8 b) y.rackCount (u8 h) (u8 e) (decide (u8 l = 1))
              (countsOf s y (y.rackCount - u8 h) y.rackCount)
              (countsOf s y (y.rackCount - u8 h - u8 e) (y.rackCount - u8 h))
              (countsOf s y 0 (y.rackCount - u8 h - u8 e)))
            { s with
              shm := { s.shm with
                reserves :=
                  tblSet s.shm.reserves (u8 b) { hot := u8 h, empty := u8 e, lock := decide (u8 l = 1) } }
              asa := { s.asa with
                examPending :=
                  s.asa.examPending || decide ((reserveOf s.shm (u8 b)).hot ≠ u8 h) ||
                    decide ((reserveOf s.shm (u8 b)).empty ≠ u8 e) } })))) ∧
  (∀ (s : State) (tag : Nat) (payload : List Byte) (r : ShelfSetReq), askedRunning s 0x38 tag payload →
    decodeShelfSet payload = some r →
    (declaredShelf r = none ∨ 1023 < r.index ∨ rackOf s.lyt r.index = none →
      exec .shelfSet s = .next (replied 0x38 tag .badField .none s)) ∧
    (∀ sh e, declaredShelf r = some sh → r.index ≤ 1023 → rackOf s.lyt r.index = some e →
      ((shelfAt s.shm r.index).state = .inbound ∨ (shelfAt s.shm r.index).state = .outbound →
        exec .shelfSet s = .next (replied 0x38 tag .tooLate .none s)) ∧
      ((shelfAt s.shm r.index).state = .free ∨ (shelfAt s.shm r.index).state = .held →
        (∃ f ∈ s.shm.shelves, f.1 ≠ r.index ∧ (f.2.state = .held ∨ f.2.state = .outbound) ∧ sh.tag ≠ none ∧
          f.2.tag = sh.tag) →
        exec .shelfSet s = .next (replied 0x38 tag .duplicate .none s)) ∧
      ((shelfAt s.shm r.index).state = .free ∨ (shelfAt s.shm r.index).state = .held →
        (∀ f ∈ s.shm.shelves, f.1 ≠ r.index → f.2.state = .held ∨ f.2.state = .outbound → sh.tag ≠ none →
          f.2.tag ≠ sh.tag) →
        ∃ t, exec .shelfSet s = .next t ∧
          t =
            replied 0x38 tag .ok (.shelfSet r.index { shelf := sh, claimTag := none })
              { s with shm := t.shm, asa := t.asa } ∧
          shelfAt t.shm r.index = sh ∧ (∀ k, k ≠ r.index → shelfAt t.shm k = shelfAt s.shm k) ∧
          t.shm.reserves = s.shm.reserves ∧
          t.asa = { s.asa with
            examPending := s.asa.examPending || decide (sh ≠ shelfAt s.shm r.index) })))

/-! ## Placing orders -/

/-- The checks of an ORDER_PLACE in RUNNING, in their order (R44): the first that fails decides the reply, and a
refused one changes nothing. The endpoint types are those that section 11.3 gives for the kind; a code that its table
does not list is a bad field (R184; log 25). That the high byte of a group target and the number of an endpoint of type 0xFF are
ignored is the model's reading (log 20). -/
def Obligations.OrderPlaceChecksInOrder : Prop :=
  ∀ (s : State) (tag : Nat) (payload : List Byte) (r : OrderPlaceReq), TablesCanonical s →
    askedRunning s 0x20 tag payload → decodeOrderPlace payload = some r →
    (¬PlaceFieldsAllowed s.lyt r → exec .orderPlace s = .next (replied 0x20 tag .badField .none s)) ∧
    (PlaceFieldsAllowed s.lyt r → placeRepeats s r →
      exec .orderPlace s = .next (replied 0x20 tag .duplicate .none s)) ∧
    (PlaceFieldsAllowed s.lyt r → ¬placeRepeats s r → placeUnknown s r →
      exec .orderPlace s = .next (replied 0x20 tag .notFound .none s)) ∧
    (PlaceFieldsAllowed s.lyt r → ¬placeRepeats s r → ¬placeUnknown s r → placeGated s r →
      exec .orderPlace s = .next (replied 0x20 tag .busy .none s)) ∧
    (PlaceFieldsAllowed s.lyt r → ¬placeRepeats s r → ¬placeUnknown s r → ¬placeGated s r → placeNoRoom s r →
      exec .orderPlace s = .next (replied 0x20 tag .tableFull .none s))

/-- An ORDER_PLACE that passes every check is accepted (R42, R43, R45, R66, R137): it takes its entry with the record
the rules give, a RETRIEVE claims the lowest shelf that holds its tag, the batch entry is opened or counted, and the reply
carries handle and seq. No notice and no command is sent; the examination-pending flag is set where the order enters
QUEUED. That the group mask is the target's low byte, its high byte and the number of an endpoint of type 0xFF being
ignored, is the model's reading (log 20). -/
def Obligations.OrderPlaceTakesAnEntry : Prop :=
  ∀ (s : State) (tag : Nat) (payload : List Byte) (r : OrderPlaceReq), TablesCanonical s →
    askedRunning s 0x20 tag payload → decodeOrderPlace payload = some r → PlaceFieldsAllowed s.lyt r →
    ¬placeRepeats s r → ¬placeUnknown s r → ¬placeGated s r → ¬placeNoRoom s r →
    ∃ (t : State) (h : Nat) (p : Order), exec .orderPlace s = .next t ∧ entryTaken s h ∧
      tblGet t.ort.orders h = some p ∧ otherOrdersKept h s t ∧
      (p.seq = s.ort.nextSeq ∧ p.hostTag = r.hostTag ∧ orderKindOf r.kind = some p.kind ∧
        triggerOf r.trigger = some p.trigger ∧ orderClassOf r.cls = some p.cls ∧ p.carrierTag = r.carrierTag ∧
        p.reachLimit = r.reachLimit ∧ p.batchTag = r.batchTag ∧ p.acceptedAt = s.now ∧ p.storedAge = 0 ∧
        p.serveCount = 0 ∧ (p.asserted = true ↔ r.trigger = 1) ∧
        p.targeting = if r.targeting = 0 then .direct r.target else .nearest (BitVec.ofNat 8 r.target)) ∧
      (r.hold = true → p.state = .held ∧ p.queuedSince = none) ∧
      (r.hold = false → p.state = .queued ∧ p.queuedSince = some s.now) ∧
      (p.readTag = none ∧ p.prior = none ∧ p.waitReason = none ∧ p.suspendReason = none ∧ p.abortPending = false ∧
        p.endReason = none ∧ p.loc = none ∧ p.etaPick = none ∧ p.etaDone = none ∧ p.endedAt = none ∧
        p.retargetLate = false ∧ p.orphan = none) ∧
      p.dest =
        (if r.kind = 0 ∨ r.kind = 2 ∨ r.kind = 3 then some (.port r.dest.number) else none) ∧
      p.targetBay = (if r.kind = 1 then some r.dest.number else none) ∧
      (r.kind = 0 ∨ r.kind = 1 ∨ r.kind = 4 → p.source = some (.port r.source.number)) ∧
      (r.kind = 3 → p.source = none) ∧
      (r.kind ≠ 2 → t.shm = s.shm) ∧
      (r.kind = 2 →
        ∃ k, p.source = some (.shelf k) ∧ (shelfAt s.shm k).state = .held ∧ (shelfAt s.shm k).tag = r.carrierTag ∧
          (∀ j, j < k → (shelfAt s.shm j).state = .held → (shelfAt s.shm j).tag ≠ r.carrierTag) ∧
          shelfAt t.shm k = { shelfAt s.shm k with state := .outbound, claim := some h } ∧
          ∀ j, j ≠ k → shelfAt t.shm j = shelfAt s.shm j) ∧
      (∀ k, tblGet t.ort.batches k =
        if r.batchTag = some k then
          match tblGet s.ort.batches k with
          | some b => some { b with openCount := b.openCount + 1, total := b.total + 1 }
          | none => some { openCount := 1, failed := 0, total := 1 }
        else tblGet s.ort.batches k) ∧
      t.ort.nextSeq = min 4294967295 (s.ort.nextSeq + 1) ∧ t.ort.weights = s.ort.weights ∧ t.ort.gate = s.ort.gate ∧
      t.asa = { s.asa with examPending := s.asa.examPending || !r.hold, rescan := t.asa.rescan } ∧
      t.liu = (replied 0x20 tag .ok (.placed h s.ort.nextSeq) s).liu ∧ t.shm.reserves = s.shm.reserves ∧
      t.now = s.now ∧ t.lyt = s.lyt ∧ t.vht = s.vht ∧ t.bac = s.bac ∧ t.iss = s.iss ∧ t.fcr = s.fcr

/-! ## Requests on orders -/

/-- Every request that acts on an order is answered NOT_FOUND where the entry it names is free or holds another host
tag, and changes nothing (R48). ORDER_QUERY replies with the record, its age and its vehicle, BATCH_QUERY with the
batch entry, and neither changes anything (R32, R48, R67). The end of the last open order of a batch, a cancellation
or any other, frees the batch entry and queues BATCH_DONE after the order's ORDER_STATE, and touches no other entry
(R52, R67). That NOT_FOUND comes before every other check (log 12), and that the row BATCH_DONE does the same for an
entry whose open count stands at 0 (log 6), are the model's choices. -/
def Obligations.OrdersAndBatchesAreNamed : Prop :=
  (∀ (s : State) (kind tag : Nat) (payload : List Byte) (i : Instr) (b t0 t1 t2 t3 : Byte) (extra : List Byte),
    askedRunning s kind tag payload → 0x21 ≤ kind → kind ≤ 0x29 → hostRow kind = some i →
    requestFits kind payload = true → payload = b :: t0 :: t1 :: t2 :: t3 :: extra →
    (∀ o, tblGet s.ort.orders (u8 b) = some o → o.hostTag ≠ u32 t0 t1 t2 t3) →
    exec i s = .next (replied kind tag .notFound .none s)) ∧
  (∀ s tag h o, asksOrder s 0x26 tag h o [] →
    exec .orderQuery s =
      .next (replied 0x26 tag .ok
        (.order h o
          (if o.state = .queued then min 4294967295 (o.storedAge + (s.now - o.queuedSince.getD s.now))
          else o.storedAge)
          (vehicleOf s o)) s)) ∧
  (∀ (s : State) (tag : Nat) (k0 k1 : Byte), askedRunning s 0x2A tag [k0, k1] →
    (∀ b, tblGet s.ort.batches (u16 k0 k1) = some b →
      exec .batchQuery s = .next (replied 0x2A tag .ok (.batch b.openCount b.failed b.total) s)) ∧
    (tblGet s.ort.batches (u16 k0 k1) = none → exec .batchQuery s = .next (replied 0x2A tag .notFound .none s))) ∧
  (∀ (s : State) (k : Nat),
    (∀ b, tblGet s.ort.batches k = some b → b.openCount = 0 →
      ∃ t, exec (.batchDone k) s = .next t ∧ tblGet t.ort.batches k = none ∧
        (∀ j, j ≠ k → tblGet t.ort.batches j = tblGet s.ort.batches j) ∧
        t = queueNotice (.batchDone k b.total b.failed)
          { s with ort := { s.ort with batches := t.ort.batches } }) ∧
    ((∀ b, tblGet s.ort.batches k = some b → b.openCount ≠ 0) → exec (.batchDone k) s = .next s)) ∧
  (∀ s tag h o k b, asksOrder s 0x23 tag h o [] → o.state = .queued ∨ o.state = .held ∨ o.state = .served →
    o.batchTag = some k → tblGet s.ort.batches k = some b → b.openCount = 1 →
    ∃ t, exec .orderCancel s = .next t ∧ tblGet t.ort.batches k = none ∧
      (∀ j, j ≠ k → tblGet t.ort.batches j = tblGet s.ort.batches j) ∧
      t.liu =
        (queueNotice (.batchDone k b.total b.failed)
          (queueNotice
            (.orderState h o.hostTag o.state .cancelled s.now (.ended .cancelledByHost) (vehicleOf s o))
            (replied 0x23 tag .ok .none s))).liu) ∧
  (∀ s h o k b st why, tblGet s.ort.orders h = some o → st.live = false → o.batchTag = some k →
    tblGet s.ort.batches k = some b → b.openCount = 1 →
    tblGet (endOrder h st why s).ort.batches k = none ∧
      (∀ j, j ≠ k → tblGet (endOrder h st why s).ort.batches j = tblGet s.ort.batches j) ∧
      (endOrder h st why s).liu =
        (queueNotice (.batchDone k b.total (if st = .failed then b.failed + 1 else b.failed))
          (queueNotice (.orderState h o.hostTag o.state st s.now (.ended why) (vehicleOf s o)) s)).liu)

/-- ORDER_HOLD and ORDER_RELEASE by the order's state (R50, R51, R58, R59): a hold takes QUEUED to HELD, recalls
ASSIGNED to HELD and keeps HELD; a release takes HELD to QUEUED and sets the examination-pending flag; every other
state is refused. -/
def Obligations.HoldAndReleaseByState : Prop :=
  (∀ s tag h o, asksOrder s 0x21 tag h o [] →
    (o.state = .queued →
      ∃ t, exec .orderHold s = .next t ∧
        OrderStepped h o { o with state := .held, storedAge := ageAt o s.now, waitReason := none } .none
          (replied 0x21 tag .ok .none s) t) ∧
    (∀ slot i v, o.state = .assigned → o.loc = some (slot, i) → tblGet s.vht.vehicles slot = some v →
      v.layer i = .staged h →
      ∃ t, exec .orderHold s = .next t ∧
        OrderReturned h o .held (issue v.fleetId (.recall h i) (replied 0x21 tag .ok .none s)) t) ∧
    (o.state = .held → exec .orderHold s = .next (replied 0x21 tag .ok .none s)) ∧
    (o.state ≠ .queued → o.state ≠ .assigned → o.state ≠ .held →
      exec .orderHold s = .next (replied 0x21 tag .tooLate .none s))) ∧
  (∀ s tag h o, asksOrder s 0x22 tag h o [] →
    (o.state = .held →
      ∃ t, exec .orderRelease s = .next t ∧ t.asa.examPending = true ∧
        OrderStepped h o { o with state := .queued, queuedSince := some s.now, waitReason := none } .none
          (replied 0x22 tag .ok .none s) t) ∧
    (o.state ≠ .held → o.state.live = true →
      exec .orderRelease s = .next (replied 0x22 tag .wrongState .none s)) ∧
    (o.state = .done ∨ o.state = .failed ∨ o.state = .cancelled →
      exec .orderRelease s = .next (replied 0x22 tag .tooLate .none s)))

/-- ORDER_CANCEL by the order's state (R52, R60): QUEUED, HELD and SERVED end, ASSIGNED is recalled and ends,
TO_SOURCE goes to CANCELLING with one ABORT, CANCELLING stays, and every other state is refused. -/
def Obligations.CancelByState : Prop :=
  ∀ s tag h o, asksOrder s 0x23 tag h o [] →
    (o.state = .queued ∨ o.state = .held ∨ o.state = .served →
      ∃ t, exec .orderCancel s = .next t ∧
        OrderEnded h o .cancelled .cancelledByHost (replied 0x23 tag .ok .none s) t) ∧
    (∀ slot i v, o.state = .assigned → o.loc = some (slot, i) → tblGet s.vht.vehicles slot = some v →
      v.layer i = .staged h →
      ∃ t, exec .orderCancel s = .next t ∧
        OrderEnded h o .cancelled .cancelledByHost
          (issue v.fleetId (.recall h i) (replied 0x23 tag .ok .none s)) t) ∧
    (∀ slot i v, o.state = .toSource → o.loc = some (slot, i) → tblGet s.vht.vehicles slot = some v →
      ∃ t, exec .orderCancel s = .next t ∧
        OrderStepped h o { o with state := .cancelling, abortPending := false } .none
          (if o.abortPending = true then replied 0x23 tag .ok .none s
          else issue v.fleetId (.abort h) (replied 0x23 tag .ok .none s)) t) ∧
    (o.state = .cancelling → exec .orderCancel s = .next (replied 0x23 tag .ok .none s)) ∧
    (o.state = .picking ∨ o.state = .carrying ∨ o.state = .placing ∨ o.state = .suspended ∨
        o.state.live = false →
      exec .orderCancel s = .next (replied 0x23 tag .tooLate .none s))

/-- The refusals of ORDER_RETARGET, in their order (R61): by kind, by state, and by the form of the destination. That a
destination which is no port, bay or shelf is refused there with BAD_FIELD is R184's (log 25). -/
def Obligations.RetargetChecksInOrder : Prop :=
  ∀ s tag h o e d0 d1, asksOrder s 0x24 tag h o [e, d0, d1] →
    (o.kind = .supplyEmpty ∨ o.trigger = .standing →
      exec .orderRetarget s = .next (replied 0x24 tag .wrongState .none s)) ∧
    (o.kind ≠ .supplyEmpty → o.trigger = .once →
      (o.state = .placing ∨ o.state = .cancelling ∨ o.state.live = false →
        exec .orderRetarget s = .next (replied 0x24 tag .tooLate .none s)) ∧
      (o.state = .suspended → o.suspendReason ≠ some .mismatch →
        exec .orderRetarget s = .next (replied 0x24 tag .wrongState .none s)) ∧
      (o.state = .queued ∨ o.state = .held ∨ o.state = .assigned ∨ o.state = .toSource ∨ o.state = .picking ∨
          o.state = .carrying ∨ (o.state = .suspended ∧ o.suspendReason = some .mismatch) →
        ¬((u8 e = 0 ∧ u16 d0 d1 < s.lyt.portCount ∧ o.source ≠ some (.port (u16 d0 d1))) ∨
          (u8 e = 1 ∧ o.state = .suspended ∧ o.dest = some (.shelf (u16 d0 d1))) ∨
          (u8 e = 2 ∧ u16 d0 d1 < s.lyt.bayCount ∧ o.kind = .store ∧ (o.state = .queued ∨ o.state = .held) ∧
            o.dest = none)) →
        exec .orderRetarget s = .next (replied 0x24 tag .badField .none s)))

/-- An accepted ORDER_RETARGET (R37, R61, R62). One that names the destination the order has changes nothing. In
QUEUED or HELD the port or the bay replaces the old one, a claimed destination shelf becomes FREE and a QUEUED order
sets the examination-pending flag. On a vehicle the old destination becomes the prior one, an earlier prior one is
dropped with its shelf FREE, RETARGET is sent and eta done is revised. -/
def Obligations.RetargetChangesTheDestination : Prop :=
  ∀ s tag h o e d0 d1, asksOrder s 0x24 tag h o [e, d0, d1] → o.kind ≠ .supplyEmpty → o.trigger = .once →
    (∀ q, q = u16 d0 d1 → u8 e = 0 → q < s.lyt.portCount → o.source ≠ some (.port q) →
      (o.state = .queued ∨ o.state = .held ∨ o.state = .assigned ∨ o.state = .toSource ∨ o.state = .picking ∨
          o.state = .carrying →
        o.dest = some (.port q) →
        exec .orderRetarget s = .next (replied 0x24 tag .ok .none s)) ∧
      (o.state = .queued ∨ o.state = .held → o.loc = none → o.dest ≠ some (.port q) →
        ∃ t, exec .orderRetarget s = .next t ∧ Framed (replied 0x24 tag .ok .none s) t ∧
          t.liu = (replied 0x24 tag .ok .none s).liu ∧
          tblGet t.ort.orders h = some { o with dest := some (.port q) } ∧ otherOrdersKept h s t ∧
          (∀ k, shelfAt t.shm k =
            if (shelfAt s.shm k).state = .inbound ∧ (shelfAt s.shm k).claim = some h ∧ o.dest = some (.shelf k) then
              freeShelf
            else shelfAt s.shm k) ∧
          (o.state = .queued → t.asa.examPending = true) ∧ t.vht = s.vht ∧ t.bac = s.bac ∧ t.fcr = s.fcr ∧
          t.ort.batches = s.ort.batches) ∧
      (∀ slot i v, o.loc = some (slot, i) → tblGet s.vht.vehicles slot = some v →
        o.state = .assigned ∨ o.state = .toSource ∨ o.state = .picking ∨ o.state = .carrying →
        o.dest ≠ some (.port q) →
        ∃ t, exec .orderRetarget s = .next t ∧ Framed (replied 0x24 tag .ok .none s) t ∧
          t.liu =
            (issue v.fleetId (.retarget h (stopOf s.lyt (.port q))) (replied 0x24 tag .ok .none s)).liu ∧
          tblGet t.ort.orders h =
            some { o with
              prior := o.dest, dest := some (.port q)
              etaDone :=
                some (min 4294967295
                  (if o.state = .assigned ∨ o.state = .toSource then
                    o.etaPick.getD 0 + handoffOf (stopOf? s.lyt o.source) +
                      travelBetween s.lyt (stopOf? s.lyt o.source) (stopOf s.lyt (.port q)) +
                      handoffOf (stopOf s.lyt (.port q))
                  else
                    s.now + travelFrom s.lyt v.position (stopOf s.lyt (.port q)) +
                      handoffOf (stopOf s.lyt (.port q)))) } ∧
          otherOrdersKept h s t ∧
          (∀ k, shelfAt t.shm k =
            if (shelfAt s.shm k).state = .inbound ∧ (shelfAt s.shm k).claim = some h ∧
                o.prior = some (.shelf k) then
              freeShelf
            else shelfAt s.shm k) ∧
          t.vht = s.vht ∧ t.bac = s.bac ∧ t.fcr = s.fcr ∧ t.ort.batches = s.ort.batches)) ∧
    (∀ b, b = u16 d0 d1 → u8 e = 2 → b < s.lyt.bayCount → o.kind = .store → o.state = .queued ∨ o.state = .held →
      o.dest = none →
      (o.targetBay = some b → exec .orderRetarget s = .next (replied 0x24 tag .ok .none s)) ∧
      (o.targetBay ≠ some b →
        exec .orderRetarget s =
          .next (setExamIf (decide (o.state = .queued))
            (putOrder h { o with targetBay := some b } (replied 0x24 tag .ok .none s)))))

/-- ORDER_RETARGET of a MISMATCH suspension (R61, R62, R162): an order that holds no read tag takes the one its vehicle
reports; a read tag that is unread or another live order's is answered DUPLICATE; otherwise it becomes the carrier tag,
the named destination stands with the old one as the prior one unless it is the same, RETARGET is sent, and the order
resumes to CARRYING. That the tag is taken before R61's check, and that a load which carries no tag is as "unread", is
the model's reading (log 14). -/
def Obligations.MismatchRetargetResumes : Prop :=
  ∀ s tag h o e d0 d1 slot i v (d : Endpoint), asksOrder s 0x24 tag h o [e, d0, d1] → o.kind ≠ .supplyEmpty →
    o.trigger = .once → o.state = .suspended → o.suspendReason = some .mismatch → o.loc = some (slot, i) →
    tblGet s.vht.vehicles slot = some v →
    (u8 e = 0 ∧ u16 d0 d1 < s.lyt.portCount ∧ o.source ≠ some (.port (u16 d0 d1)) ∧ d = .port (u16 d0 d1)) ∨
      (u8 e = 1 ∧ o.dest = some (.shelf (u16 d0 d1)) ∧ d = .shelf (u16 d0 d1)) →
    (o.readTag = some .unread ∨ (o.readTag = none ∧ ∀ u, v.load ≠ .tagged u) →
      exec .orderRetarget s = .next (replied 0x24 tag .duplicate .none s)) ∧
    (∀ u, o.readTag = some (.tag u) ∨ (o.readTag = none ∧ v.load = .tagged u) →
      ((∃ p ∈ s.ort.orders, p.1 ≠ h ∧ p.2.state.live = true ∧ p.2.carrierTag = some u) →
        exec .orderRetarget s = .next (replied 0x24 tag .duplicate .none s)) ∧
      ((∀ p ∈ s.ort.orders, p.1 ≠ h → p.2.state.live = true → p.2.carrierTag ≠ some u) →
        ∃ t, exec .orderRetarget s = .next t ∧ Framed (replied 0x24 tag .ok .none s) t ∧
          tblGet t.ort.orders h =
            some { o with
              state := .carrying, carrierTag := some u, readTag := some (.tag u), dest := some d
              prior := if o.dest = some d then none else o.dest
              suspendReason := none, orphan := none
              etaDone :=
                some (min 4294967295
                  (s.now + travelFrom s.lyt v.position (stopOf s.lyt d) + handoffOf (stopOf s.lyt d))) } ∧
          otherOrdersKept h s t ∧ t.asa.examPending = true ∧
          t.liu =
            (queueNotice (.orderState h o.hostTag .suspended .carrying s.now .none (some v.fleetId))
              (issue v.fleetId (.retarget h (stopOf s.lyt d)) (replied 0x24 tag .ok .none s))).liu ∧
          (∀ k, shelfAt t.shm k = vacatedShelf h o k (shelfAt s.shm k)) ∧
          t.vht = s.vht ∧ t.bac = s.bac ∧ t.fcr = s.fcr ∧ t.ort.batches = s.ort.batches))

/-- ORDER_RESOURCE by the cases of R164 in their order; an accepted one unloads the vehicle, empties the order's layer
(R51), frees the source and the prior destination, and queues the order as one that waits at the port. -/
def Obligations.ResourceByCase : Prop :=
  ∀ s tag h o p0 p1, asksOrder s 0x25 tag h o [p0, p1] →
    (s.lyt.portCount ≤ u16 p0 p1 → exec .orderResource s = .next (replied 0x25 tag .badField .none s)) ∧
    (u16 p0 p1 < s.lyt.portCount →
      (o.state = .carrying ∨ o.state = .placing ∨ o.state.live = false →
        exec .orderResource s = .next (replied 0x25 tag .tooLate .none s)) ∧
      (o.state ≠ .carrying → o.state ≠ .placing → o.state ≠ .suspended → o.state.live = true →
        exec .orderResource s = .next (replied 0x25 tag .wrongState .none s)) ∧
      (o.state = .suspended → o.dest = some (.port (u16 p0 p1)) →
        exec .orderResource s = .next (replied 0x25 tag .badField .none s)) ∧
      (∀ slot i v, o.state = .suspended → o.dest ≠ some (.port (u16 p0 p1)) → o.loc = some (slot, i) →
        tblGet s.vht.vehicles slot = some v → v.layer i = .active h →
        ∃ t, exec .orderResource s = .next t ∧ Framed (replied 0x25 tag .ok .none s) t ∧
          tblGet t.ort.orders h =
            some { o with
              state := .queued, queuedSince := some s.now, waitReason := none, source := some (.port (u16 p0 p1))
              kind := if o.kind = .retrieve ∨ o.kind = .supplyEmpty then .move else o.kind
              prior := none, readTag := none, suspendReason := none, etaPick := none, etaDone := none, loc := none
              orphan := none } ∧
          otherOrdersKept h s t ∧
          tblGet t.vht.vehicles slot = some { leftVehicle s.now s.vht.tTake i v with load := .empty } ∧
          otherVehiclesKept slot s t ∧ (∀ k, shelfAt t.shm k = vacatedShelf h o k (shelfAt s.shm k)) ∧
          t.liu =
            (queueNotice (.orderState h o.hostTag .suspended .queued s.now .none (some v.fleetId))
              (replied 0x25 tag .ok .none s)).liu ∧
          t.asa.examPending = true ∧ t.bac = s.bac ∧ t.fcr = s.fcr ∧ t.ort.batches = s.ort.batches))

/-- ORDER_CLEAR frees the entry of a terminal order and refuses a live one (R47). -/
def Obligations.ClearFreesTerminalOrders : Prop :=
  ∀ s tag h o, asksOrder s 0x27 tag h o [] →
    (o.state.live = true → exec .orderClear s = .next (replied 0x27 tag .wrongState .none s)) ∧
    (o.state.live = false →
      ∃ t, exec .orderClear s = .next t ∧
        t = replied 0x27 tag .ok .none { s with ort := { s.ort with orders := t.ort.orders } } ∧
        tblGet t.ort.orders h = none ∧ otherOrdersKept h s t)

/-- DEMAND_ACK and DEMAND_DROP by trigger and state (R52, R63, R64, R65): on a ONCE order WRONG_STATE; a SERVED demand
acknowledged with SET begins a new instance in QUEUED, with CLEAR it ends WITHDRAWN; a demand dropped ends WITHDRAWN
where no carrier moves for it, and elsewhere has its asserted flag cleared. That an acknowledgement with SET sets the
asserted flag again is the model's reading (log 12). An assert value that is neither SET nor CLEAR is refused with
BAD_FIELD (R184; log 25); that this comes before the trigger and the state is the model's choice (log 36). -/
def Obligations.DemandsAreAcknowledgedAndDropped : Prop :=
  (∀ s tag h o a, asksOrder s 0x28 tag h o [a] → u8 a ≤ 1 →
    (o.trigger = .once → exec .demandAck s = .next (replied 0x28 tag .wrongState .none s)) ∧
    (o.trigger = .standing → o.state ≠ .served → o.state.live = true →
      exec .demandAck s = .next (replied 0x28 tag .wrongState .none s)) ∧
    (o.trigger = .standing → o.state.live = false →
      exec .demandAck s = .next (replied 0x28 tag .tooLate .none s)) ∧
    (o.trigger = .standing → o.state = .served → u8 a = 1 →
      ∃ t, exec .demandAck s = .next t ∧
        OrderStepped h o
          { o with
            state := .queued, queuedSince := some s.now, waitReason := none, storedAge := 0, asserted := true
            serveCount := min 65535 (o.serveCount + 1), readTag := none, source := none, etaPick := none
            etaDone := none, kind := if o.kind = .move then .supplyEmpty else o.kind }
          .none (replied 0x28 tag .ok .none s) t) ∧
    (o.trigger = .standing → o.state = .served → u8 a = 0 →
      ∃ t, exec .demandAck s = .next t ∧
        OrderEnded h { o with asserted := false } .done .withdrawn (replied 0x28 tag .ok .none s) t)) ∧
  (∀ s tag h o a, asksOrder s 0x28 tag h o [a] → 2 ≤ u8 a →
    exec .demandAck s = .next (replied 0x28 tag .badField .none s)) ∧
  (∀ s tag h o, asksOrder s 0x29 tag h o [] →
    (o.trigger = .once → exec .demandDrop s = .next (replied 0x29 tag .wrongState .none s)) ∧
    (o.trigger = .standing →
      (o.state = .queued ∨ o.state = .held ∨ o.state = .served →
        ∃ t, exec .demandDrop s = .next t ∧ OrderEnded h o .done .withdrawn (replied 0x29 tag .ok .none s) t) ∧
      (∀ slot i v, o.state = .assigned → o.loc = some (slot, i) → tblGet s.vht.vehicles slot = some v →
        v.layer i = .staged h →
        ∃ t, exec .demandDrop s = .next t ∧
          OrderEnded h o .done .withdrawn (issue v.fleetId (.recall h i) (replied 0x29 tag .ok .none s)) t) ∧
      (o.state = .toSource ∨ o.state = .picking ∨ o.state = .carrying ∨ o.state = .placing ∨ o.state = .cancelling ∨
          o.state = .suspended →
        exec .demandDrop s =
          .next (putOrder h { o with asserted := false } (replied 0x29 tag .ok .none s))) ∧
      (o.state.live = false → exec .demandDrop s = .next (replied 0x29 tag .tooLate .none s))))

/-! ## Vehicle requests -/

/-- VEHICLE_STALL, VEHICLE_UNSTALL and VEHICLE_CLEARFAULT of a vehicle in the map (R50, R103, R104, R106): the stall
set with STALLED and a staged order recalled, a stall cleared with RELEASED and the examination-pending flag, no
effect where the stall already is as asked, and WRONG_STATE for a vehicle that carries a carrier with no layer ACTIVE.
-/
def Obligations.StallsAreSetAndCleared : Prop :=
  (∀ s tag slot v, asksVehicle s 0x30 tag slot v [] →
    (v.hostStall = true → exec .vehicleStall s = .next (replied 0x30 tag .ok .none s)) ∧
    (v.hostStall = false → (∀ i h, v.layer i ≠ .staged h) →
      exec .vehicleStall s =
        .next (queueNotice (.vehicleState v.fleetId slot .stalled v.link true v.faultStall v.lastFault)
          (withVehicle slot { v with hostStall := true } (replied 0x30 tag .ok .none s)))) ∧
    (∀ i h o, v.hostStall = false → v.layer i = .staged h → (∀ g, v.layer i.other ≠ .staged g) →
      tblGet s.ort.orders h = some o → o.state = .assigned → o.loc = some (slot, i) →
      ∃ t, exec .vehicleStall s = .next t ∧
        OrderReturned h o .queued
          (issue v.fleetId (.recall h i)
            (queueNotice (.vehicleState v.fleetId slot .stalled v.link true v.faultStall v.lastFault)
              (withVehicle slot { v with hostStall := true } (replied 0x30 tag .ok .none s)))) t)) ∧
  (∀ s tag slot v, asksVehicle s 0x31 tag slot v [] →
    (v.hostStall = false → exec .vehicleUnstall s = .next (replied 0x31 tag .ok .none s)) ∧
    (v.hostStall = true →
      exec .vehicleUnstall s =
        .next (setExam
          (queueNotice (.vehicleState v.fleetId slot .released v.link false v.faultStall v.lastFault)
            (withVehicle slot { v with hostStall := false } (replied 0x31 tag .ok .none s)))))) ∧
  (∀ s tag slot v, asksVehicle s 0x32 tag slot v [] →
    (v.faultStall = false → exec .vehicleClearfault s = .next (replied 0x32 tag .ok .none s)) ∧
    (v.faultStall = true → v.load ≠ .empty → (∀ i h, v.layer i ≠ .active h) →
      exec .vehicleClearfault s = .next (replied 0x32 tag .wrongState .none s)) ∧
    (v.faultStall = true → (v.load = .empty ∨ ∃ i h, v.layer i = .active h) →
      exec .vehicleClearfault s =
        .next (setExam
          (queueNotice (.vehicleState v.fleetId slot .released v.link v.hostStall false v.lastFault)
            (withVehicle slot { v with faultStall := false, noTakes := 0 } (replied 0x32 tag .ok .none s))))))

/-- VEHICLE_AUTORELEASE, VEHICLE_GROUPS and VEHICLE_RETIRE of a vehicle in the map (R101, R105, R109), a bay whose
entry a retirement removes then granting from its queue (R118), and the refusals of the requests that name a fleet id:
BAD_FIELD for 0 and 65535, NOT_FOUND for one not in the map. -/
def Obligations.VehicleSettingsAndRetire : Prop :=
  (∀ s tag slot v a, asksVehicle s 0x33 tag slot v [a] →
    (u8 a = 1 → v.faultStall = true →
      exec .vehicleAutorelease s = .next (replied 0x33 tag .wrongState .none s)) ∧
    (u8 a = 0 ∨ (u8 a = 1 ∧ v.faultStall = false) →
      exec .vehicleAutorelease s =
        .next (withVehicle slot { v with autoRelease := decide (u8 a = 1) } (replied 0x33 tag .ok .none s))) ∧
    (2 ≤ u8 a → exec .vehicleAutorelease s = .next (replied 0x33 tag .badField .none s))) ∧
  (∀ s tag slot v m, asksVehicle s 0x34 tag slot v [m] →
    exec .vehicleGroups s =
      .next (setExamIf (decide (v.groupMask ≠ m))
        (withVehicle slot { v with groupMask := m } (replied 0x34 tag .ok (.groups m) s)))) ∧
  (∀ s tag slot v, asksVehicle s 0x36 tag slot v [] →
    (v.link = .online → exec .vehicleRetire s = .next (replied 0x36 tag .wrongState .none s)) ∧
    (v.link ≠ .online → (v.layer0 ≠ .empty ∨ v.layer1 ≠ .empty) →
      exec .vehicleRetire s = .next (replied 0x36 tag .tooLate .none s)) ∧
    (v.link ≠ .online → v.layer0 = .empty → v.layer1 = .empty →
      tblWf s.bac.bays = true → (∀ e ∈ s.bac.bays, ∀ w ∈ e.2.queue, w.slot ≠ slot) →
      ∃ t, exec .vehicleRetire s = .next t ∧ Framed (replied 0x36 tag .ok .none s) t ∧
        tblGet t.vht.vehicles slot = none ∧ otherVehiclesKept slot s t ∧
        (∀ e ∈ t.bac.bays, ∀ a ∈ e.2.admitted, a.slot ≠ slot) ∧
        (∀ b y, tblGet s.bac.bays b = some y → (∀ a ∈ y.admitted, a.slot ≠ slot) →
          tblGet t.bac.bays b = some y) ∧
        (notAdmitted s slot → t.bac = s.bac ∧ t.liu = (replied 0x36 tag .ok .none s).liu) ∧
        (∀ b y, tblGet s.bac.bays b = some y → (∃ a ∈ y.admitted, a.slot = slot) →
          (∀ e ∈ s.bac.bays, e.1 ≠ b → ∀ a ∈ e.2.admitted, a.slot ≠ slot) →
          PlaceGivenUp b { y with admitted := y.admitted.filter (fun a => a.slot != slot) } id
            { replied 0x36 tag .ok .none s with vht := { s.vht with vehicles := t.vht.vehicles } } t) ∧
        t.ort = s.ort ∧ t.shm = s.shm ∧ t.fcr = s.fcr ∧ t.liu.notices = s.liu.notices)) ∧
  (∀ (s : State) (kind tag : Nat) (payload extra : List Byte) (f0 f1 : Byte) (i : Instr),
    askedRunning s kind tag payload → hostRow kind = some i → requestFits kind payload = true →
    0x30 ≤ kind → kind ≤ 0x36 → kind ≠ 0x35 → payload = f0 :: f1 :: extra →
    (u16 f0 f1 = 0 ∨ u16 f0 f1 = 65535 → exec i s = .next (replied kind tag .badField .none s)) ∧
    (0 < u16 f0 f1 → u16 f0 f1 < 65535 → slotOf s.vht (u16 f0 f1) = none →
      (∀ a, kind = 0x33 → extra = [a] → u8 a ≤ 1) →
      exec i s = .next (replied kind tag .notFound .none s)))

/-- STATUS, VEHICLE_QUERY and SHELF_QUERY change nothing: each is answered with all that R178, R110 and R143 name. A
selector of 2 or more is refused with BAD_FIELD (R184; log 25). That the survey counts, which outside RUNNING are those
of empty tables, are the two of the B counter is the model's reading (log 37). -/
def Obligations.QueriesChangeNothing : Prop :=
  (∀ (s : State) (tag : Nat) (b : Byte), requestWaits s 0x3D tag [b] →
    ∃ v : StatusView, exec .status s = .next (replied 0x3D tag .ok (.status v) s) ∧ v.time = s.now ∧
      v.opState = s.lyt.opState ∧ v.lock = s.lyt.lock ∧ v.bayCount = s.lyt.bayCount ∧
      v.portCount = s.lyt.portCount ∧ v.expected = s.lyt.expected ∧ v.gwrdy = s.gwrdy ∧
      (v.almn = true ↔ ∃ i, s.fcr.capture = some i ∧ i.cls.fatal = true) ∧ v.capture = s.fcr.capture ∧
      v.furtherRec = s.fcr.furtherRec ∧ v.furtherFatal = s.fcr.furtherFatal ∧
      v.live = (s.ort.orders.filter (fun e => e.2.state.live)).length ∧
      v.queued = (s.ort.orders.filter (fun e => decide (e.2.state = .queued))).length ∧
      v.free + s.ort.orders.length = max 256 s.ort.orders.length ∧ v.gate = s.ort.gate ∧
      v.batches = s.ort.batches.length ∧ v.vehicles = s.vht.vehicles.length ∧
      v.online = (s.vht.vehicles.filter (fun e => decide (e.2.link = .online))).length ∧
      (v.survey.mode = s.iss.mode ∧ v.survey.first = s.iss.first ∧ v.survey.last = s.iss.last ∧
        v.survey.aOn = s.iss.aOn ∧ v.survey.aPeriod = s.iss.aPeriod ∧ v.survey.bOn = s.iss.bOn ∧
        v.survey.skipN = s.iss.skipN ∧ v.survey.everyM = s.iss.everyM ∧ v.survey.state = s.iss.state ∧
        v.survey.current = s.iss.current ∧ v.survey.pendingStart = s.iss.pendingStart ∧
        (s.lyt.opState = .running →
          v.survey.skipLeft = s.iss.skipLeft ∧ v.survey.stepCount = s.iss.stepCount) ∧
        (s.lyt.opState ≠ .running → v.survey.skipLeft = 0 ∧ v.survey.stepCount = 0) ∧
        v.survey.expiry = s.iss.timer.map (fun t => t.expiry)) ∧
      v.notices = s.liu.notices.length ∧ v.gapMark = s.liu.gapMark) ∧
  (∀ (s : State) (tag : Nat) (k n0 n1 : Byte), askedRunning s 0x35 tag [k, n0, n1] →
    (∀ slot v, (u8 k = 0 ∧ 0 < u16 n0 n1 ∧ u16 n0 n1 < 65535 ∧ slotOf s.vht (u16 n0 n1) = some slot) ∨
        (u8 k = 1 ∧ u16 n0 n1 < 64 ∧ slot = u16 n0 n1) →
      tblGet s.vht.vehicles slot = some v →
      ∃ o0 o1, exec .vehicleQuery s = .next (replied 0x35 tag .ok (.vehicle slot v o0 o1) s) ∧
        (v.layer0 = .empty → o0 = none) ∧ (v.layer1 = .empty → o1 = none) ∧
        (∀ h o, v.layer0 = .staged h ∨ v.layer0 = .active h → tblGet s.ort.orders h = some o →
          o0 = some o.state) ∧
        (∀ h o, v.layer1 = .staged h ∨ v.layer1 = .active h → tblGet s.ort.orders h = some o →
          o1 = some o.state)) ∧
    (u8 k = 0 → 0 < u16 n0 n1 → u16 n0 n1 < 65535 → slotOf s.vht (u16 n0 n1) = none →
      exec .vehicleQuery s = .next (replied 0x35 tag .notFound .none s)) ∧
    (u8 k = 1 → u16 n0 n1 < 64 → tblGet s.vht.vehicles (u16 n0 n1) = none →
      exec .vehicleQuery s = .next (replied 0x35 tag .ok (.vehicleFree (u16 n0 n1)) s)) ∧
    ((u8 k = 0 ∧ (u16 n0 n1 = 0 ∨ u16 n0 n1 = 65535)) ∨ (u8 k = 1 ∧ 64 ≤ u16 n0 n1) ∨ 2 ≤ u8 k →
      exec .vehicleQuery s = .next (replied 0x35 tag .badField .none s))) ∧
  (∀ (s : State) (tag : Nat) (k n0 n1 : Byte), askedRunning s 0x39 tag [k, n0, n1] →
    (u8 k = 0 → u16 n0 n1 ≤ 1023 →
      ∃ p, exec .shelfQuery s =
          .next (replied 0x39 tag .ok
            (.shelf
              { shelf := shelfAt s.shm (u16 n0 n1), claimTag := claimTagOf s (shelfAt s.shm (u16 n0 n1)) } p) s) ∧
        (rackOf s.lyt (u16 n0 n1) = none → p = none) ∧
        (∀ b y, rackOf s.lyt (u16 n0 n1) = some (b, y) →
          p =
            some
              { bay := b, localIndex := u16 n0 n1 - y.rackBase
                region :=
                  regionOf y.rackCount (reserveOf s.shm b).hot (reserveOf s.shm b).empty (u16 n0 n1 - y.rackBase)
                coord := y.rackFirst + (u16 n0 n1 - y.rackBase) * y.rackPitch, handoff := y.rackHandoff })) ∧
    (∀ y, u8 k = 1 → tblGet s.lyt.bays (u16 n0 n1) = some y →
      exec .shelfQuery s =
        .next (replied 0x39 tag .ok
          (.rack y.rackCount y.rackBase (reserveOf s.shm (u16 n0 n1)).hot (reserveOf s.shm (u16 n0 n1)).empty
            (reserveOf s.shm (u16 n0 n1)).lock
            ((List.range y.rackCount).map (fun i =>
              ({ shelf := shelfAt s.shm (y.rackBase + i)
                 claimTag := claimTagOf s (shelfAt s.shm (y.rackBase + i)) },
                regionOf y.rackCount (reserveOf s.shm (u16 n0 n1)).hot (reserveOf s.shm (u16 n0 n1)).empty i)))) s)) ∧
    (u8 k = 0 ∧ 1023 < u16 n0 n1 ∨ u8 k = 1 ∧ tblGet s.lyt.bays (u16 n0 n1) = none ∨ 2 ≤ u8 k →
      exec .shelfQuery s = .next (replied 0x39 tag .badField .none s)))

/-! ## The fault capture -/

/-- The capture acts on the record by its state and the incident's severity, whatever the route and the engine state;
ALMN is asserted exactly while the record holds a fatal incident (R168). CAPTURE_READ changes nothing, CAPTURE_CLEAR
empties the record and clears both flags, and each replies with the record and the flags as it found them (R170). -/
def Obligations.CaptureHoldsTheFirstIncident : Prop :=
  (∀ (i : Incident) (s : State),
    (s.fcr.capture = none → (raiseIncident i s).fcr = { s.fcr with capture := some i }) ∧
    (∀ j, s.fcr.capture = some j → j.cls.fatal = false → i.cls.fatal = false →
      (raiseIncident i s).fcr = { s.fcr with furtherRec := true }) ∧
    (∀ j, s.fcr.capture = some j → j.cls.fatal = false → i.cls.fatal = true →
      (raiseIncident i s).fcr = { s.fcr with capture := some i, furtherRec := true }) ∧
    (∀ j, s.fcr.capture = some j → j.cls.fatal = true → i.cls.fatal = false →
      (raiseIncident i s).fcr = { s.fcr with furtherRec := true }) ∧
    (∀ j, s.fcr.capture = some j → j.cls.fatal = true → i.cls.fatal = true →
      (raiseIncident i s).fcr = { s.fcr with furtherFatal := true })) ∧
  (∀ s : State, almnAsserted s = true ↔ ∃ i, s.fcr.capture = some i ∧ i.cls.fatal = true) ∧
  (∀ (s : State) (tag : Nat) (b : Byte), requestWaits s 0x3F tag [b] →
    exec .captureRead s =
      .next (replied 0x3F tag .ok (.capture s.fcr.capture s.fcr.furtherRec s.fcr.furtherFatal) s)) ∧
  (∀ (s : State) (tag : Nat) (b : Byte), requestWaits s 0x37 tag [b] →
    exec .captureClear s =
      .next (replied 0x37 tag .ok (.capture s.fcr.capture s.fcr.furtherRec s.fcr.furtherFatal)
        { s with fcr := { s.fcr with capture := none, furtherRec := false, furtherFatal := false } }))

/-! ## The idle survey -/

/-- SURVEY_SETUP, SURVEY_START and SURVEY_STOP in RUNNING, by the sequencer's state (R147, R148, R152, R156): each
replies with the sequencer's state and touches nothing else. -/
def Obligations.SurveyRequestsByState : Prop :=
  (∀ (s : State) (tag : Nat) (m f l a p0 p1 b n e : Byte),
    askedRunning s 0x3A tag [m, f, l, a, p0, p1, b, n, e] →
    (s.iss.state = .surveying → exec .surveySetup s = .next (replied 0x3A tag .wrongState .none s)) ∧
    (s.iss.state ≠ .surveying →
      ¬(u8 m ≤ 3 ∧ u8 f < s.lyt.bayCount ∧
          (u8 m = 1 ∨ u8 m = 3 → u8 l < s.lyt.bayCount ∧ u8 f ≤ u8 l) ∧ u16 p0 p1 ≠ 0 ∧ u8 n ≤ 15 ∧ 1 ≤ u8 e ∧
          u8 e ≤ 16 ∧ u8 a ≤ 1 ∧ u8 b ≤ 1) →
      exec .surveySetup s = .next (replied 0x3A tag .badField .none s)) ∧
    (∀ mode, s.iss.state ≠ .surveying → surveyModeOf (u8 m) = some mode → u8 f < s.lyt.bayCount →
      (u8 m = 1 ∨ u8 m = 3 → u8 l < s.lyt.bayCount ∧ u8 f ≤ u8 l) → u16 p0 p1 ≠ 0 → u8 n ≤ 15 → 1 ≤ u8 e →
      u8 e ≤ 16 → u8 a ≤ 1 → u8 b ≤ 1 →
      ∃ i : Survey,
        i = { s.iss with
          mode := mode, first := u8 f, last := if u8 m = 1 ∨ u8 m = 3 then u8 l else u8 f, aOn := decide (u8 a = 1)
          aPeriod := u16 p0 p1, bOn := decide (u8 b = 1), skipN := u8 n, everyM := u8 e, skipLeft := u8 n
          stepCount := 0, current := u8 f
          timer :=
            if s.iss.state = .armed then
              if u8 a = 1 then some { start := s.now, expiry := min 4294967295 (s.now + u16 p0 p1) } else none
            else s.iss.timer } ∧
        exec .surveySetup s = .next (replied 0x3A tag .ok (.survey (surveyView i)) { s with iss := i }))) ∧
  (∀ (s : State) (tag : Nat) (b : Byte), askedRunning s 0x3B tag [b] →
    (s.iss.state = .surveying → exec .surveyStart s = .next (replied 0x3B tag .wrongState .none s)) ∧
    (s.iss.state = .armed →
      ∃ i : Survey,
        i = { s.iss with state := .surveying, current := s.iss.first, moves := 0, short := [] } ∧
        exec .surveyStart s = .next (replied 0x3B tag .ok (.survey (surveyView i)) { s with iss := i })) ∧
    (s.iss.state = .idle →
      ∃ i : Survey,
        i = { s.iss with
          state := .surveying, current := s.iss.first, moves := 0, short := [], skipLeft := s.iss.skipN
          stepCount := 0
          timer :=
            if s.iss.aOn = true then
              some { start := s.now, expiry := min 4294967295 (s.now + s.iss.aPeriod) }
            else none } ∧
        exec .surveyStart s = .next (replied 0x3B tag .ok (.survey (surveyView i)) { s with iss := i }))) ∧
  (∀ (s : State) (tag : Nat) (b : Byte), askedRunning s 0x3C tag [b] →
    (s.iss.state = .idle →
      exec .surveyStop s = .next (replied 0x3C tag .ok (.survey (surveyView s.iss)) s)) ∧
    (s.iss.state ≠ .idle →
      ∃ i : Survey,
        i = { s.iss with state := .idle, current := s.iss.first, pendingStart := false, timer := none } ∧
        exec .surveyStop s = .next (replied 0x3C tag .ok (.survey (surveyView i)) { s with iss := i })))

/-- The triggers and the passes (R149 to R155): a firing is lost in IDLE, starts a pass in ARMED and is kept as the
pending start in SURVEYING; a placement counts toward trigger B; a bay step makes at most one move, to a bay that is
open and below its quota, of the donor that R154 ranks first, and the pass then advances or ends. A PLACE_END whose
placement makes the M-th count fires trigger B (R56, R150). That the row TRIGGER_B_FIRE takes that PLACE_END, and what
it does where a step count already stands at M, is the model's choice (log 6). -/
def Obligations.SurveyPassesThroughItsBays : Prop :=
  (∀ (s : State) (t : Timer), s.iss.timer = some t → t.expiry ≤ s.now → t.start < t.expiry →
    exec .surveyTimerExpiry s =
      .next { s with
        iss := { triggered s.iss with
          timer := some { start := s.now, expiry := min 4294967295 (s.now + s.iss.aPeriod) } } }) ∧
  (∀ s : State, s.iss.bOn = true → s.iss.state ≠ .idle → s.iss.everyM ≤ s.iss.stepCount →
    exec .triggerBFire s = .next { s with iss := triggered { s.iss with stepCount := 0 } }) ∧
  (∀ s slot v hb t n0 n1 h o e, u8 hb = h → reportsActive s 0x57 slot v [hb, t, n0, n1] h o →
    (u8 t = 0 ∧ e = .port (u16 n0 n1)) ∨ (u8 t = 1 ∧ e = .shelf (u16 n0 n1)) →
    (o.state = .placing ∧ o.dest = some e) ∨ (o.state = .carrying ∧ (o.dest = some e ∨ o.prior = some e)) →
    s.iss.bOn = true → s.iss.state ≠ .idle → s.iss.skipLeft = 0 → s.iss.everyM = s.iss.stepCount + 1 →
    ∃ x : State, exec .triggerBFire s = .next { x with iss := triggered { s.iss with stepCount := 0 } } ∧
      exec .placeEnd s = .next { x with iss := triggered { s.iss with stepCount := 0 } }) ∧
  (∀ i : Survey,
    (i.bOn = false ∨ i.state = .idle → countPlacement i = i) ∧
    (i.bOn = true → i.state ≠ .idle →
      (0 < i.skipLeft → countPlacement i = { i with skipLeft := i.skipLeft - 1 }) ∧
      (i.skipLeft = 0 → i.stepCount + 1 < i.everyM → countPlacement i = { i with stepCount := i.stepCount + 1 }) ∧
      (i.skipLeft = 0 → i.everyM ≤ i.stepCount + 1 → countPlacement i = triggered { i with stepCount := 0 }))) ∧
  (∀ s : State, s.iss.state = .surveying →
    (bayOpen s.bac s.iss.current = false ∨ quotaOf s.bac s.iss.current ≤ supply s.vht s.iss.current →
      exec .surveyBayStep s = .next { passNotice s.iss s with iss := passAdvanced s.iss }) ∧
    (bayOpen s.bac s.iss.current = true → supply s.vht s.iss.current < quotaOf s.bac s.iss.current →
      (∀ e ∈ s.vht.vehicles, ¬Donor s s.iss.current e.2) →
      ∃ i : Survey, i = { s.iss with short := s.iss.short ++ [s.iss.current] } ∧
        exec .surveyBayStep s = .next { passNotice i s with iss := passAdvanced i }) ∧
    (bayOpen s.bac s.iss.current = true → supply s.vht s.iss.current < quotaOf s.bac s.iss.current →
      tblWf s.vht.vehicles = true → (∃ e ∈ s.vht.vehicles, Donor s s.iss.current e.2) →
      ∃ (slot : Nat) (v : Vehicle) (u : State) (i : Survey), tblGet s.vht.vehicles slot = some v ∧
        Donor s s.iss.current v ∧
        (∀ k w, tblGet s.vht.vehicles k = some w → Donor s s.iss.current w →
          w.idleLevel.rank < v.idleLevel.rank ∨
            (w.idleLevel.rank = v.idleLevel.rank ∧
              (travelToPark s.lyt s.iss.current v < travelToPark s.lyt s.iss.current w ∨
                (travelToPark s.lyt s.iss.current v = travelToPark s.lyt s.iss.current w ∧ slot ≤ k)))) ∧
        u = withVehicle slot
          { v with target := some s.iss.current, activity := .repositioning, idleLevel := .ready }
          (issue v.fleetId (.moveTo s.iss.current s.iss.current (parkPoint s.lyt s.iss.current)) s) ∧
        i = { s.iss with
          moves := s.iss.moves + 1
          short :=
            if supply u.vht s.iss.current < quotaOf s.bac s.iss.current then s.iss.short ++ [s.iss.current]
            else s.iss.short } ∧
        exec .surveyBayStep s = .next { passNotice i u with iss := passAdvanced i })) ∧
  (∀ (s : State) (b : Nat), supply s.vht b =
    (s.vht.vehicles.filter (fun e =>
      decide (e.2.link = .online ∧ e.2.hostStall = false ∧ e.2.faultStall = false ∧ e.2.layer0 = .empty ∧
        e.2.layer1 = .empty ∧
        ((e.2.activity = .idle ∧ e.2.position.zone = b) ∨
          (e.2.activity = .repositioning ∧ e.2.target = some b))))).length)

/-! ## Vehicle reports -/

/-- A HELLO in RUNNING, by the cases of R93: a fleet id that is none is dropped, a zone that is none is answered
BAD_POSITION, a full table FULL, and an unknown vehicle is enrolled into the lowest free slot (R94): its record, its
place in the bay it reports (R124, R125), POSITION_CLAMPED, ENROLLED, the fault stall and the incident of a stray load
(R104), WELCOME, and the examination-pending flag. That POSITION_CLAMPED comes before ENROLLED is the model's choice
(log 19). -/
def Obligations.HelloEnrollsAnUnknownVehicle : Prop :=
  ∀ s f r, helloWaits s f r →
    (f = 0 ∨ f = 65535 → exec .hello s = .next (heard s)) ∧
    (0 < f → f < 65535 → ¬(r.zone < s.lyt.bayCount ∨ r.zone = 255) →
      (slotOf s.vht f = none →
        exec .hello s = .next (issue f (.welcome .badPosition 0 none) (heard s))) ∧
      (∀ slot v, slotOf s.vht f = some slot → tblGet s.vht.vehicles slot = some v →
        exec .hello s =
          .next (issue f (.welcome .badPosition 0 none)
            (if v.link = .online then withVehicle slot (heardVehicle s v) (heard s) else heard s)))) ∧
    (0 < f → f < 65535 → r.zone < s.lyt.bayCount ∨ r.zone = 255 → slotOf s.vht f = none →
      (∀ k, k < 64 → tblGet s.vht.vehicles k ≠ none) →
      exec .hello s = .next (issue f (.welcome .full 0 none) (heard s))) ∧
    (∀ slot, 0 < f → f < 65535 → r.zone < s.lyt.bayCount ∨ r.zone = 255 → slotOf s.vht f = none → slot < 64 →
      tblGet s.vht.vehicles slot = none → (∀ k, k < slot → tblGet s.vht.vehicles k ≠ none) → notAdmitted s slot →
      (r.zone < s.lyt.bayCount → r.zone ≠ 255 ∧ tblGet s.bac.bays r.zone ≠ none) →
      ∃ u v w, exec .hello s = .next (setExam (issue f (.welcome .ok slot none) u)) ∧ Framed (heard s) u ∧
        v =
          { fleetId := f, link := .online, activity := .idle, idleLevel := .ready, idleSince := s.now
            hostStall := false, faultStall := decide (r.load ≠ .empty)
            lastFault := if r.load = .empty then none else some (.fatal, .strayLoad)
            recovered := false, autoRelease := false, groupMask := 0xFF#8
            position :=
              { zone := r.zone
                coord := if zoneLength s.lyt r.zone ≤ r.coord then zoneLength s.lyt r.zone - 1 else r.coord
                time := s.now }
            load := r.load, layer0 := .empty, layer1 := .empty, lastTaken := none, takeTimer := none, noTakes := 0
            silence := some (timerFrom s s.vht.tSilent), target := none } ∧
        tblGet u.vht.vehicles slot = some v ∧ otherVehiclesKept slot s u ∧
        JoinedInside slot r.zone s u ∧ u.ort = s.ort ∧ u.shm = s.shm ∧
        w = { v with faultStall := false, lastFault := none } ∧
        (r.load = .empty →
          u.liu = (helloTold slot r w (heard s)).liu ∧ u.fcr = (helloTold slot r w (heard s)).fcr) ∧
        (r.load ≠ .empty →
          u.liu = (strayTold slot w (helloTold slot r w (heard s))).liu ∧
            u.fcr = (strayTold slot w (helloTold slot r w (heard s))).fcr))

/-- A HELLO from a vehicle in the map re-enrolls its record in its slot (R93, R95, R96): an ONLINE one is taken as a
BYE first; the record becomes ONLINE with the reported position and load, and its place in the bays is kept, moved or
given up (R118, R124); POSITION_CLAMPED and ENROLLED are told; a suspended order resumes to CARRYING, its claimed source
shelf FREE, its read tag filled and its eta done revised (R37, R162), and is listed in the WELCOME; it becomes a
MISMATCH suspension with CARRIER_MISMATCH; or it stays, by the reported load; a stray load sets the fault stall with its
incident (R104). That POSITION_CLAMPED comes before ENROLLED is the model's choice (log 19), and that an order whose
read tag is absent takes "unread" from a load without a tag its reading (log 15). -/
def Obligations.HelloReenrollsAKnownVehicle : Prop :=
  (∀ s f r slot v, helloWaits s f r → tblWf s.vht.vehicles = true → 0 < f → f < 65535 →
    r.zone < s.lyt.bayCount ∨ r.zone = 255 → slotOf s.vht f = some slot → tblGet s.vht.vehicles slot = some v →
    v.link = .online →
    exec .hello s = exec .hello (byeVehicle slot s)) ∧
  (∀ s f r slot v w e, helloWaits s f r → 0 < f → f < 65535 → r.zone < s.lyt.bayCount ∨ r.zone = 255 →
    slotOf s.vht f = some slot → tblGet s.vht.vehicles slot = some v → v.link ≠ .online → v.fleetId = f →
    w =
      { v with
        link := .online, silence := some (timerFrom s s.vht.tSilent), load := r.load
        position :=
          { zone := r.zone
            coord := if zoneLength s.lyt r.zone ≤ r.coord then zoneLength s.lyt r.zone - 1 else r.coord
            time := s.now } } →
    e = helloTold slot r w (heard s) →
    (v.layer0 = .empty → v.layer1 = .empty →
      ∃ u, exec .hello s = .next (setExam (issue f (.welcome .ok slot none) u)) ∧ Framed (heard s) u ∧
        tblGet u.vht.vehicles slot =
          some { (if r.load = .empty then w else faultStalled s.now .fatal .strayLoad w) with
            activity := .idle, idleLevel := .ready, idleSince := s.now } ∧
        otherVehiclesKept slot s u ∧ u.ort = s.ort ∧ u.shm = s.shm ∧ HelloPlaced slot r.zone (heard s) u ∧
        (r.load = .empty → toldAs u e) ∧ (r.load ≠ .empty → toldAs u (strayTold slot w e))) ∧
    (∀ i h o, v.layer i = .active h → v.layer i.other = .empty → tblGet s.ort.orders h = some o →
      o.state = .suspended → o.loc = some (slot, i) →
      (∀ c, (o.carrierTag = none ∧ r.load ≠ .empty) ∨ (o.carrierTag = some c ∧ r.load = .tagged c) →
        ∃ u, exec .hello s =
            .next (setExam
              (issue f
                (.welcome .ok slot
                  (some { handle := h, layer := i, dest := stopOf? s.lyt o.dest, carrierTag := o.carrierTag })) u)) ∧
          Framed (heard s) u ∧
          tblGet u.ort.orders h =
            some { o with
              state := .carrying, suspendReason := none, orphan := none, prior := none
              readTag := some (o.readTag.getD (match r.load with | .tagged g => .tag g | _ => .unread))
              etaDone :=
                some (min 4294967295
                  (s.now + travelFrom s.lyt w.position (stopOf? s.lyt o.dest) +
                    handoffOf (stopOf? s.lyt o.dest))) } ∧
          otherOrdersKept h s u ∧ (∀ k, shelfAt u.shm k = vacatedShelf h o k (shelfAt s.shm k)) ∧
          tblGet u.vht.vehicles slot = some { w with activity := .working } ∧ otherVehiclesKept slot s u ∧
          HelloPlaced slot r.zone (heard s) u ∧
          toldAs u (queueNotice (.orderState h o.hostTag .suspended .carrying s.now .none (some f)) e)) ∧
      (∀ c, o.carrierTag = some c → r.load ≠ .empty → r.load ≠ .tagged c →
        ∃ u, exec .hello s = .next (setExam (issue f (.welcome .ok slot none) u)) ∧ Framed (heard s) u ∧
          tblGet u.ort.orders h = some { o with suspendReason := some .mismatch } ∧ otherOrdersKept h s u ∧
          u.shm = s.shm ∧ tblGet u.vht.vehicles slot = some { w with activity := .working } ∧
          otherVehiclesKept slot s u ∧ HelloPlaced slot r.zone (heard s) u ∧
          toldAs u (raiseIncident (mismatchIncident s w h o) e)) ∧
      (r.load = .empty →
        ∃ u, exec .hello s = .next (setExam (issue f (.welcome .ok slot none) u)) ∧ Framed (heard s) u ∧
          u.ort = s.ort ∧ u.shm = s.shm ∧ tblGet u.vht.vehicles slot = some { w with activity := .working } ∧
          otherVehiclesKept slot s u ∧ HelloPlaced slot r.zone (heard s) u ∧ toldAs u e)))

/-- POS and ARRIVED from an ONLINE vehicle (R97, R112, R121): a POS in a zone that is none is dropped; one on the
interbay loop or in a bay the vehicle is inside stores the position, clamped with its incident; a GRANTED entry
becomes INSIDE; and a vehicle with no entry there intrudes. An ARRIVED ends a reposition, and is ignored otherwise.
That a reposition which ends IDLE sets the examination-pending flag is the model's reading (log 33). -/
def Obligations.PositionsMoveTheVehicle : Prop :=
  (∀ s slot v z c0 c1, reportWaits s 0x52 slot v [z, c0, c1] →
    (¬(u8 z < s.lyt.bayCount ∨ u8 z = 255) → exec .pos s = .next (taken s slot v)) ∧
    (u8 z < s.lyt.bayCount ∨ u8 z = 255 →
      ∃ (w : Vehicle) (u : State),
        w = { heardVehicle s v with
          position :=
            { zone := u8 z
              coord :=
                if zoneLength s.lyt (u8 z) ≤ u16 c0 c1 then zoneLength s.lyt (u8 z) - 1 else u16 c0 c1
              time := s.now } } ∧
        u = (if zoneLength s.lyt (u8 z) ≤ u16 c0 c1 then
            raiseIncident (vehicleIncident s .positionClamped w none none) (reported slot w s)
          else reported slot w s) ∧
        (u8 z = 255 → exec .pos s = .next u) ∧
        (∀ y a, u8 z ≠ 255 → tblGet s.bac.bays (u8 z) = some y → y.admitted.find? (fun e => e.slot == slot) = some a →
          a.inside = true → exec .pos s = .next u) ∧
        (∀ y a, u8 z ≠ 255 → tblGet s.bac.bays (u8 z) = some y → y.admitted.find? (fun e => e.slot == slot) = some a →
          a.inside = false →
          ∃ x, exec .pos s = .next (withBay (u8 z) x u) ∧ x.queue = y.queue ∧ x.capacity = y.capacity ∧
            x.soft = y.soft ∧ x.quota = y.quota ∧ x.isOpen = y.isOpen ∧
            x.admitted =
              y.admitted.map (fun e => if e.slot = slot then { e with inside := true, lapse := none } else e)) ∧
        (∀ y, u8 z ≠ 255 → tblWf s.bac.bays = true → tblGet s.bac.bays (u8 z) = some y →
          (∀ a ∈ y.admitted, a.slot ≠ slot) →
          (∀ e ∈ s.bac.bays, (∃ a ∈ e.2.admitted, a.slot = slot) → ∀ q ∈ e.2.queue, q.slot ≠ slot) →
          ∃ t x, exec .pos s = .next t ∧ Framed u t ∧ t.ort = u.ort ∧ t.vht = u.vht ∧ t.shm = u.shm ∧
            t.fcr = captureOffer u.fcr (vehicleIncident s .intrusion w none none) ∧ notWaiting t slot ∧
            tblGet t.bac.bays (u8 z) = some x ∧
            x.admitted =
              y.admitted ++ [{ slot := slot, inside := true, entryTime := s.now, lapse := none }] ∧
            x.queue = y.queue.filter (fun q => q.slot != slot) ∧
            (∀ e ∈ t.bac.bays, e.1 ≠ u8 z → ∀ a ∈ e.2.admitted, a.slot ≠ slot)))) ∧
  (∀ s slot v b, reportWaits s 0x5E slot v [b] →
    exec .arrived s =
      .next (setExamIf (decide (v.target ≠ none ∧ v.layer0 = .empty ∧ v.layer1 = .empty))
        (reported slot (repositionEnded s.now (heardVehicle s v)) s)))

/-- A TAKEN of the order STAGED in the named layer of a vehicle with no ACTIVE layer makes it ACTIVE and the order
TO_SOURCE (R53), and a starved queue entry of the vehicle is then removed with ENTRY_VOID and ABORT (R127). A TAKEN
otherwise, and a report of an order the vehicle does not hold ACTIVE, is answered with DISCARD and changes nothing
else (R108). That a layer other than 0 and 1 is such a case is the model's reading (log 25). -/
def Obligations.TakenOrStale : Prop :=
  (∀ s slot v (hb l : Byte) i h o u, reportWaits s 0x53 slot v [hb, l] → u8 hb = h →
    (u8 l = 0 ∧ i = .l0) ∨ (u8 l = 1 ∧ i = .l1) → v.layer i = .staged h → (∀ g, v.layer i.other ≠ .active g) →
    tblGet s.ort.orders h = some o → o.state = .assigned → o.abortPending = false → o.loc = some (slot, i) →
    u =
      reported slot
        { (heardVehicle s v).withLayer i (.active h) with
          lastTaken := some i, takeTimer := none, noTakes := 0, target := none, activity := .working } s →
    ((∀ e ∈ s.bac.bays, ∀ w ∈ e.2.queue, w.slot = slot → w.starved = false) →
      ∃ t, exec .taken s = .next t ∧ OrderStepped h o { o with state := .toSource } .none u t) ∧
    (∀ b y, (∀ e ∈ s.bac.bays, e.1 ≠ b → ∀ w ∈ e.2.queue, w.slot ≠ slot) → tblWf s.bac.bays = true →
      tblGet s.bac.bays b = some y → (∃ w ∈ y.queue, w.slot = slot) →
      (∀ w ∈ y.queue, w.slot = slot → w.starved = true) →
      ∃ t z, exec .taken s = .next t ∧ Framed u t ∧
        tblGet t.ort.orders h = some { o with state := .toSource, abortPending := true } ∧ otherOrdersKept h s t ∧
        tblGet t.bac.bays b = some z ∧ z.admitted = y.admitted ∧
        z.queue = y.queue.filter (fun w => w.slot != slot) ∧ otherBaysKept b s t ∧
        t.liu =
          (issue v.fleetId (.abort h)
            (issue v.fleetId (.entryVoid b .starved)
              (queueNotice (.orderState h o.hostTag .assigned .toSource s.now .none (some v.fleetId)) u))).liu ∧
        t.vht = u.vht ∧ t.shm = s.shm ∧ t.fcr = s.fcr)) ∧
  (∀ s slot v (h l : Byte), reportWaits s 0x53 slot v [h, l] →
    (∀ i, (u8 l = 0 ∧ i = .l0) ∨ (u8 l = 1 ∧ i = .l1) → v.layer i = .staged (u8 h) →
      ∃ j g, v.layer j = .active g) →
    exec .taken s = .next (issue v.fleetId (.discard (u8 h) (some (u8 l))) (taken s slot v))) ∧
  (∀ s kind slot v h payload i, reportWaits s kind slot v (h :: payload) → 0x54 ≤ kind → kind ≤ 0x59 →
    fleetRow kind (h :: payload) = some i → v.layer0 ≠ .active (u8 h) → v.layer1 ≠ .active (u8 h) →
    exec i s = .next (issue v.fleetId (.discard (u8 h) none) (taken s slot v)))

/-- PICK_BEGIN and PICK_END of the ACTIVE order by its state (R36, R54, R55, R159, R160): the pick begins from
TO_SOURCE and CANCELLING; its end stores the read tag, frees the source shelf and loads the vehicle, and the order
goes to CARRYING, to a MISMATCH suspension with CARRIER_MISMATCH, or, where its answer was awaited under a fault, to
carrier-involved handling; in the other states the report is ignored. When R160 applies (log 29), and that under a
RECOVERABLE fault an order with no carrier tag that is "unread" is suspended with FAULT (log 38), are the model's
readings. -/
def Obligations.PicksBeginAndEnd : Prop :=
  (∀ s slot v hb h o, u8 hb = h → reportsActive s 0x54 slot v [hb] h o →
    (o.state = .toSource ∨ o.state = .cancelling →
      ∃ t, exec .pickBegin s = .next t ∧ PickBegins slot h v o (taken s slot v) t) ∧
    (o.state ≠ .toSource → o.state ≠ .cancelling → exec .pickBegin s = .next (taken s slot v))) ∧
  (∀ s slot v hb payload h o read, decodePickEnd (hb :: payload) = some { handle := h, tag := read } →
    reportsActive s 0x55 slot v (hb :: payload) h o →
    (o.state = .picking ∨ o.state = .toSource ∨ o.state = .cancelling →
      ∃ t u x p q, exec .pickEnd s = .next t ∧ p = { o with
          state := .picking
          abortPending := if o.state = .picking then o.abortPending else false } ∧
        (o.state = .picking → u = taken s slot v) ∧
        (o.state ≠ .picking →
          OrderStepped h o p (if o.state = .cancelling then .cancelLate else .none) (taken s slot v) u) ∧
        PickStored slot h read p u x ∧ tblGet x.ort.orders h = some q ∧
        (¬(v.faultStall = true ∧ (o.state = .cancelling ∨ (o.state = .toSource ∧ o.abortPending = true))) →
          (o.carrierTag = none ∨ o.carrierTag = read →
            t.asa.examPending = true ∧
              ∃ y, OrderStepped h q { q with state := .carrying } .none x y ∧ t = setExam y) ∧
          (o.carrierTag ≠ none → o.carrierTag ≠ read →
            ∃ y, OrderStepped h q (suspendedOrder s .mismatch q) (.suspend .mismatch) x y ∧
              t = raiseIncident (mismatchIncident s v h o) y)) ∧
        (v.faultStall = true → o.state = .cancelling ∨ (o.state = .toSource ∧ o.abortPending = true) →
          (o.carrierTag ≠ none → o.carrierTag ≠ read → faultClassOf v = .recoverable →
            ∃ y, CarrierInvolved slot h q .mismatch .recoverable x y ∧
              t = raiseIncident (mismatchIncident s v h o) y) ∧
          (o.carrierTag = none ∨ o.carrierTag = read ∨ faultClassOf v = .fatal →
            CarrierInvolved slot h q .fault (faultClassOf v) x t))) ∧
    (o.state ≠ .picking → o.state ≠ .toSource → o.state ≠ .cancelling →
      exec .pickEnd s = .next (taken s slot v)))

/-- PLACE_BEGIN and PLACE_END of the ACTIVE order by its state and the destination named (R52, R56, R63, R150):
placing begins in CARRYING at the order's destination or at its prior one; a placement is taken in PLACING, or in
CARRYING after it has begun, fills the shelf, empties the vehicle and counts for the idle survey; another destination
is answered with DISCARD; in the other states the report is ignored. That an endpoint of no listed type is such another
destination (log 25), and that the RETARGET_LATE mark stays in the record (log 16), are the model's choices. -/
def Obligations.PlacementsBeginAndEnd : Prop :=
  (∀ s slot v hb t n0 n1 h o e, u8 hb = h → reportsActive s 0x56 slot v [hb, t, n0, n1] h o →
    (u8 t = 0 ∧ e = .port (u16 n0 n1)) ∨ (u8 t = 1 ∧ e = .shelf (u16 n0 n1)) →
    (o.state = .carrying → (o.dest = some e ∨ o.prior = some e) →
      ∃ x p, exec .placeBegin s = .next x ∧ PlaceBegins h o e p (taken s slot v) x) ∧
    (o.state = .carrying → o.dest ≠ some e → o.prior ≠ some e →
      exec .placeBegin s = .next (issue v.fleetId (.discard h none) (taken s slot v))) ∧
    (o.state ≠ .carrying → exec .placeBegin s = .next (taken s slot v))) ∧
  (∀ s kind slot v hb t n0 n1 h o i, u8 hb = h → (kind = 0x56 ∧ i = .placeBegin) ∨ (kind = 0x57 ∧ i = .placeEnd) →
    reportsActive s kind slot v [hb, t, n0, n1] h o → 2 ≤ u8 t →
    o.state = .carrying ∨ (o.state = .placing ∧ kind = 0x57) →
    exec i s = .next (issue v.fleetId (.discard h none) (taken s slot v))) ∧
  (∀ s slot v hb t n0 n1 h o e, u8 hb = h → reportsActive s 0x57 slot v [hb, t, n0, n1] h o →
    (u8 t = 0 ∧ e = .port (u16 n0 n1)) ∨ (u8 t = 1 ∧ e = .shelf (u16 n0 n1)) →
    (o.state = .placing → o.dest = some e →
      ∃ x, exec .placeEnd s = .next { x with iss := countPlacement s.iss } ∧
        PlaceTaken slot h o (taken s slot v) x) ∧
    (o.state = .carrying → (o.dest = some e ∨ o.prior = some e) →
      ∃ u x p, exec .placeEnd s = .next { x with iss := countPlacement s.iss } ∧
        PlaceBegins h o e p (taken s slot v) u ∧ PlaceTaken slot h p u x) ∧
    ((o.state = .placing ∧ o.dest ≠ some e) ∨ (o.state = .carrying ∧ o.dest ≠ some e ∧ o.prior ≠ some e) →
      exec .placeEnd s = .next (issue v.fleetId (.discard h none) (taken s slot v))) ∧
    (o.state ≠ .placing → o.state ≠ .carrying → exec .placeEnd s = .next (taken s slot v)))

/-- ABORTED and ABORT_LATE of the ACTIVE order (R57, R160): in CANCELLING it ends or goes to PICKING with CANCEL_LATE,
in TO_SOURCE with an abort pending it returns to QUEUED or goes to PICKING; otherwise they are ignored. When R160
applies is the model's reading (log 29). -/
def Obligations.AbortsAreAnswered : Prop :=
  (∀ s slot v hb h o, u8 hb = h → reportsActive s 0x58 slot v [hb] h o →
    (o.state = .cancelling →
      ∃ t, exec .aborted s = .next t ∧ OrderEnded h o .cancelled .cancelledByHost (taken s slot v) t) ∧
    (o.state = .toSource → o.abortPending = true →
      ∃ t, exec .aborted s = .next t ∧ OrderReturned h o .queued (taken s slot v) t) ∧
    (o.state ≠ .cancelling → ¬(o.state = .toSource ∧ o.abortPending = true) →
      exec .aborted s = .next (taken s slot v))) ∧
  (∀ s slot v hb h o, u8 hb = h → reportsActive s 0x59 slot v [hb] h o →
    (o.state = .cancelling ∨ (o.state = .toSource ∧ o.abortPending = true) →
      ∃ t, exec .abortLate s = .next t ∧ PickBegins slot h v o (taken s slot v) t) ∧
    (o.state ≠ .cancelling → ¬(o.state = .toSource ∧ o.abortPending = true) →
      exec .abortLate s = .next (taken s slot v)))

/-- A FAULT sets the fault stall with the reported class and code, raises its incident, recalls the staged order and
acts on the ACTIVE order by its state (R104, R158, R159). That a reposition which ends IDLE sets the
examination-pending flag is the model's reading (log 33). -/
def Obligations.FaultStallsTheVehicle : Prop :=
  ∀ s slot v sv c cls, reportWaits s 0x5A slot v [sv, c] → cls = (if u8 sv = 0 then .recoverable else .fatal) →
    ∃ t u x, exec .fault s = .next t ∧
      u = raiseIncident
        (vehicleIncident s (if u8 sv = 0 then .vehicleFaultR else .vehicleFaultF) v v.activeHandle (some (u8 c)))
        (stallSet slot cls (.vehicle c) (heardVehicle s v) (taken s slot v)) ∧
      StagedReturned slot v true u x ∧
      ((∀ i h, v.layer i ≠ .active h) → (∀ i h, v.layer i ≠ .staged h) → t = u) ∧
      (∀ i h o, v.layer i = .staged h → v.layer i.other = .empty → tblGet s.ort.orders h = some o →
        o.state = .assigned → o.loc = some (slot, i) → t = x) ∧
      (∀ i h o, v.layer i = .active h → otherLayerWaits s slot v i h → tblGet s.ort.orders h = some o →
        o.loc = some (slot, i) →
        (o.state = .toSource → o.abortPending = false →
          t = issue v.fleetId (.abort h) (putOrder h { o with abortPending := true } x)) ∧
        ((o.state = .toSource ∧ o.abortPending = true) ∨ o.state = .cancelling → t = x) ∧
        (o.state = .picking ∨ o.state = .carrying ∨ o.state = .placing ∨ o.state = .suspended →
          ∃ d k, lastFaultThen v cls (.vehicle c) = some (d, k) ∧ CarrierInvolved slot h o .fault d x t))

/-- A READY stores the load where no progress report keeps it, sets the recovered flag, clears the fault stall under
auto-release, and compares the load with a suspended order, which resumes or becomes a MISMATCH suspension; a carrier
that no order accounts for sets the fault stall instead and recalls the staged order (R104, R161, R162). That an absent
read tag becomes "unread" by a load without a tag (log 15), and the flag at the end of a reposition (log 33), are the
model's readings. -/
def Obligations.ReadyRecoversTheVehicle : Prop :=
  ∀ s slot v payload load, reportWaits s 0x5B slot v payload → decodeLoad payload = some load →
    ((∀ i h, v.layer i ≠ .active h) → v.load = .empty → load ≠ .empty →
      ∃ t u, exec .ready s = .next t ∧
        u = raiseIncident (vehicleIncident s .strayLoad v none none)
          (stallSet slot .fatal .strayLoad { heardVehicle s v with load := load } (taken s slot v)) ∧
        StagedReturned slot v true u t) ∧
    (∀ (w : Vehicle) (u : State),
      w = { heardVehicle s v with recovered := true, load := if keepsLoad s.ort v = true then v.load else load } →
      u =
        (if v.faultStall = true ∧ v.autoRelease = true ∧ v.lastFault.map (fun k => k.1) = some .recoverable then
          setExam
            (queueNotice (.vehicleState v.fleetId slot .released v.link v.hostStall false v.lastFault)
              (reported slot { w with faultStall := false, noTakes := 0 } s))
        else reported slot w s) →
      ((∀ i h, v.layer i ≠ .active h) → (v.load ≠ .empty ∨ load = .empty) → exec .ready s = .next u) ∧
      (∀ i h o, v.layer i = .active h → (∀ g, v.layer i.other ≠ .active g) → tblGet s.ort.orders h = some o →
        o.loc = some (slot, i) →
        (o.state ≠ .suspended → exec .ready s = .next u) ∧
        (o.state = .suspended → load = .empty → exec .ready s = .next u) ∧
        (∀ c, o.state = .suspended →
          (o.carrierTag = none ∧ load ≠ .empty) ∨ (o.carrierTag = some c ∧ load = .tagged c) →
          ∃ x y, ShelvesBecome (vacatedShelf h o) u x ∧
            OrderStepped h o
              { o with
                state := .carrying, suspendReason := none, orphan := none, prior := none
                readTag := some (o.readTag.getD (match load with | .tagged g => .tag g | _ => .unread))
                etaDone :=
                  some (min 4294967295
                    (s.now + travelFrom s.lyt v.position (stopOf? s.lyt o.dest) +
                      handoffOf (stopOf? s.lyt o.dest))) }
              .none x y ∧
            exec .ready s = .next (issue v.fleetId (.retarget h (stopOf? s.lyt o.dest)) (setExam y))) ∧
        (∀ c, o.state = .suspended → o.carrierTag = some c → load ≠ .empty → load ≠ .tagged c →
          (o.suspendReason = some .mismatch → exec .ready s = .next u) ∧
          (o.suspendReason ≠ some .mismatch →
            exec .ready s =
              .next (raiseIncident (mismatchIncident s v h o)
                (putOrder h { o with suspendReason := some .mismatch } u))))))

/-- A BYE and the expiry of the silence timer take the vehicle OFFLINE with LOST (R99, R100, R165): its staged order
returns to QUEUED without RECALL, its ACTIVE order goes by its state, its queue entry and GRANTED entry are removed
and its INSIDE entry is kept (R128), and a reposition ends (R112). Silence raises VEHICLE_SILENT. -/
def Obligations.LostVehiclesGiveUpTheirWork : Prop :=
  ∀ s slot v why u, tblWf s.bac.bays = true → (∀ e ∈ s.bac.bays, (e.2.admitted.map (fun a => a.slot)).Nodup) →
    tblGet s.vht.vehicles slot = some v → v.link = .online →
    (why = .bye ∧ (∃ b, reportWaits s 0x5F slot v [b]) ∧
      u = queueNotice
        (.vehicleState v.fleetId slot .lost (.offline .bye) v.hostStall v.faultStall v.lastFault)
        (reported slot { v with link := .offline .bye, silence := none } s)) ∨
    (why = .silent ∧ (∃ t, v.silence = some t ∧ t.expiry ≤ s.now ∧ t.start < t.expiry) ∧
      u = raiseIncident (vehicleIncident s .vehicleSilent v v.activeHandle none)
        (queueNotice
          (.vehicleState v.fleetId slot .lost (.offline .silent) v.hostStall v.faultStall v.lastFault)
          (withVehicle slot { v with link := .offline .silent, silence := none } s))) →
    ∃ t x y w, (why = .bye → exec .bye s = .next t) ∧
      (why = .silent → exec (.silenceTimerExpiry slot) s = .next t) ∧ StagedReturned slot v false u x ∧
      ((∀ i h, v.layer i ≠ .active h) → y = x) ∧
      (∀ i h o, v.layer i = .active h → otherLayerWaits s slot v i h → tblGet s.ort.orders h = some o →
        o.loc = some (slot, i) →
        (o.state = .toSource → OrderReturned h o .queued x y) ∧
        (o.state = .cancelling → OrderEnded h o .cancelled .cancelledByHost x y) ∧
        (o.state = .picking ∨ o.state = .carrying ∨ o.state = .placing →
          OrderStepped h o (suspendedOrder s .lost o) (.suspend .lost) x y) ∧
        (o.state = .suspended → y = putOrder h { o with suspendReason := some .lost } x)) ∧
      Framed y t ∧ t.ort = y.ort ∧ t.shm = y.shm ∧ t.fcr = y.fcr ∧ t.liu.notices = y.liu.notices ∧
      tblGet y.vht.vehicles slot = some w ∧ tblGet t.vht.vehicles slot = some (repositionEnded s.now w) ∧
      w.link = .offline why ∧ otherVehiclesKept slot y t ∧ notWaiting t slot ∧
      (∀ e ∈ t.bac.bays, ∀ a ∈ e.2.admitted, a.slot = slot → a.inside = true) ∧
      (∀ b a, entryIn s.bac b slot = some a → a.inside = true → entryIn t.bac b slot = some a)

/-! ## Entry to bays -/

/-- An ENTRY_ASK (R118, R119, R120): a bay that is none is answered ENTRY_VOID; an ask for the queue the vehicle
stands in is ignored; a vehicle with no place is granted at an open bay with room and an empty queue, and otherwise
joins the queue, hot-flagged after the last hot-flagged entry and otherwise at the tail; an entry in an admitted set
and a place in another queue are given up first, and a bay whose own entry the vehicle gave up while it could not be
granted again grants from its queue. -/
def Obligations.EntryIsAskedFor : Prop :=
  ∀ s slot v b, reportWaits s 0x5C slot v [b] →
    (s.lyt.bayCount ≤ u8 b →
      exec .entryAsk s = .next (issue v.fleetId (.entryVoid (u8 b) .badBay) (taken s slot v))) ∧
    (∀ y, u8 b < s.lyt.bayCount → tblGet s.bac.bays (u8 b) = some y →
      ((∃ w ∈ y.queue, w.slot = slot) → exec .entryAsk s = .next (taken s slot v)) ∧
      (notAdmitted s slot → notWaiting s slot → y.isOpen = true → y.admitted.length < y.capacity → y.queue = [] →
        exec .entryAsk s =
          .next (issue v.fleetId (.entryGrant (u8 b))
            (withBay (u8 b) { y with admitted := y.admitted ++ [grantedEntry s slot], yield := none }
              (taken s slot v)))) ∧
      (notAdmitted s slot → notWaiting s slot →
        y.isOpen = false ∨ y.capacity ≤ y.admitted.length ∨ y.queue ≠ [] →
        ∃ (x : BayState) (n : Waiting) (front back : List Waiting),
          exec .entryAsk s = .next (withBay (u8 b) x (taken s slot v)) ∧ x.admitted = y.admitted ∧
          x.capacity = y.capacity ∧ x.soft = y.soft ∧ x.quota = y.quota ∧ x.isOpen = y.isOpen ∧
          n =
            { slot := slot, hot := n.hot, askedAt := s.now, starved := false
              starve := some (timerFrom s s.bac.tEntry) } ∧
          (n.hot = true ↔ ∃ i h o, v.layer i = .active h ∧ v.activeHandle = some h ∧
            tblGet s.ort.orders h = some o ∧ o.cls = .hot) ∧
          y.queue = front ++ back ∧ x.queue = front ++ n :: back ∧ (n.hot = false → back = []) ∧
          (n.hot = true →
            (∀ w ∈ back, w.hot = false) ∧ (front = [] ∨ ∃ w, front.getLast? = some w ∧ w.hot = true))) ∧
      (notWaiting s slot → y.isOpen = true → y.queue = [] → (∃ e ∈ y.admitted, e.slot = slot) →
        (∀ e ∈ s.bac.bays, e.1 ≠ u8 b → ∀ d ∈ e.2.admitted, d.slot ≠ slot) → tblWf s.bac.bays = true →
        (y.admitted.filter (fun e => e.slot != slot)).length < y.capacity →
        exec .entryAsk s =
          .next (issue v.fleetId (.entryGrant (u8 b))
            (setExam
              (withBay (u8 b)
                { y with
                  admitted := y.admitted.filter (fun e => e.slot != slot) ++ [grantedEntry s slot], yield := none }
                (taken s slot v))))) ∧
      (∀ a z, a ≠ u8 b → tblWf s.bac.bays = true → tblGet s.bac.bays a = some z →
        (∃ e ∈ z.admitted, e.slot = slot) → (∀ e ∈ s.bac.bays, e.1 ≠ a → ∀ d ∈ e.2.admitted, d.slot ≠ slot) →
        notWaiting s slot →
        exec .entryAsk s = exec .entryAsk (grantQueue a (leaveBay a slot s))) ∧
      (∀ a z, a ≠ u8 b → tblWf s.bac.bays = true → tblGet s.bac.bays a = some z → (∃ w ∈ z.queue, w.slot = slot) →
        (∀ e ∈ s.bac.bays, e.1 ≠ a → ∀ w ∈ e.2.queue, w.slot ≠ slot) → notAdmitted s slot →
        exec .entryAsk s = exec .entryAsk (leaveQueue a slot s)) ∧
      (notWaiting s slot → (∃ e ∈ y.admitted, e.slot = slot) →
        (∀ e ∈ s.bac.bays, e.1 ≠ u8 b → ∀ d ∈ e.2.admitted, d.slot ≠ slot) → tblWf s.bac.bays = true →
        y.isOpen = false ∨ y.queue ≠ [] ∨
          y.capacity ≤ (y.admitted.filter (fun e => e.slot != slot)).length →
        ∃ (x : BayState) (n : Waiting) (front back : List Waiting),
          exec .entryAsk s = .next (grantQueue (u8 b) (setExam (withBay (u8 b) x (taken s slot v)))) ∧
          x.admitted = y.admitted.filter (fun e => e.slot != slot) ∧ x.capacity = y.capacity ∧ x.soft = y.soft ∧
          x.quota = y.quota ∧ x.isOpen = y.isOpen ∧
          n =
            { slot := slot, hot := n.hot, askedAt := s.now, starved := false
              starve := some (timerFrom s s.bac.tEntry) } ∧
          (n.hot = true ↔ ∃ i h o, v.layer i = .active h ∧ v.activeHandle = some h ∧
            tblGet s.ort.orders h = some o ∧ o.cls = .hot) ∧
          y.queue = front ++ back ∧ x.queue = front ++ n :: back ∧ (n.hot = false → back = []) ∧
          (n.hot = true →
            (∀ w ∈ back, w.hot = false) ∧ (front = [] ∨ ∃ w, front.getLast? = some w ∧ w.hot = true))))

/-- An EXIT, and the expiry of a GRANTED entry's lapse timer, give up the vehicle's place, and the bay grants from its
queue until it is full, closed or its queue is empty (R118, R122, R123); a lapse sends ENTRY_VOID first. An EXIT from
a bay in whose admitted set the vehicle has no entry raises PHANTOM_EXIT and changes no count. -/
def Obligations.PlacesAreGivenUp : Prop :=
  (∀ s slot v b, reportWaits s 0x5D slot v [b] →
    (∀ y, tblGet s.bac.bays (u8 b) = some y → (∃ a ∈ y.admitted, a.slot = slot) →
      ∃ t, exec .exit s = .next t ∧
        PlaceGivenUp (u8 b) { y with admitted := y.admitted.filter (fun a => a.slot != slot) } id (taken s slot v) t) ∧
    ((∀ y, tblGet s.bac.bays (u8 b) = some y → ∀ a ∈ y.admitted, a.slot ≠ slot) →
      exec .exit s =
        .next (raiseIncident (vehicleIncident s .phantomExit v none (some (u8 b))) (taken s slot v)))) ∧
  (∀ s b slot v y a l, tblGet s.vht.vehicles slot = some v → tblGet s.bac.bays b = some y →
    y.admitted.find? (fun e => e.slot == slot) = some a → a.inside = false → a.lapse = some l → l.expiry ≤ s.now →
    l.start < l.expiry →
    ∃ t, exec (.lapseTimerExpiry b slot) s = .next t ∧
      PlaceGivenUp b { y with admitted := y.admitted.filter (fun e => e.slot != slot) }
        (issue v.fleetId (.entryVoid b .lapsed)) s t)

/-! ## Evictions and entry starvation -/

/-- The expiry of a bay's yield timer attempts one eviction and restarts the timer (R111, R125, R126): the
deepest-resting idle vehicle INSIDE the bay, the lowest slot between equals, is sent to the first bay downstream that
is open and has room; where there is no such vehicle or no such bay, nothing is sent. The expiry of a queue entry's
starvation timer sets its starved flag and raises ENTRY_STARVED once (R127): under a TO_SOURCE order the entry is
removed with ENTRY_VOID, and ABORT is sent unless one is awaited; from a repositioning vehicle it is removed and the
reposition ends (R112); otherwise it is kept in its place. -/
def Obligations.BayTimersEvictAndStarve : Prop :=
  (∀ s b y l, tblGet s.bac.bays b = some y → y.yield = some l → l.expiry ≤ s.now → l.start < l.expiry →
    tblWf s.vht.vehicles = true → tblWf s.bac.bays = true →
    ((∀ k v, tblGet s.vht.vehicles k = some v → ¬Evictable y k v) ∨ (∀ c, ¬EvictionTarget s b c) →
      exec (.yieldTimerExpiry b) s = .next (withBay b { y with yield := some (timerFrom s s.bac.tYield) } s)) ∧
    (∀ slot v c, tblGet s.vht.vehicles slot = some v → Evictable y slot v →
      (∀ k w, tblGet s.vht.vehicles k = some w → Evictable y k w →
        w.idleLevel.rank < v.idleLevel.rank ∨ (w.idleLevel.rank = v.idleLevel.rank ∧ slot ≤ k)) →
      EvictionTarget s b c →
      (∀ d, EvictionTarget s b d → d ≠ c →
        downstream s.lyt (exitJunction s.lyt b) c < downstream s.lyt (exitJunction s.lyt b) d) →
      exec (.yieldTimerExpiry b) s =
        .next (withBay b { y with yield := some (timerFrom s s.bac.tYield) }
          (withVehicle slot { v with target := some c, activity := .repositioning, idleLevel := .ready }
            (issue v.fleetId (.moveTo c c (parkPoint s.lyt c)) s))))) ∧
  (∀ s b slot v y w l, tblGet s.vht.vehicles slot = some v → tblGet s.bac.bays b = some y →
    y.queue.find? (fun e => e.slot == slot) = some w → w.starve = some l → l.expiry ≤ s.now → l.start < l.expiry →
    ∃ t u x, exec (.starvationTimerExpiry b slot) s = .next t ∧
      u = raiseIncident (vehicleIncident s .entryStarved v v.activeHandle (some b)) (withBay b x s) ∧
      (x.admitted = y.admitted ∧ x.capacity = y.capacity ∧ x.soft = y.soft ∧ x.quota = y.quota ∧
        x.isOpen = y.isOpen ∧
        x.queue = y.queue.map (fun e => if e.slot = slot then { e with starved := true, starve := none } else e)) ∧
      (∀ i h o, v.layer i = .active h → (∀ g, v.layer i.other ≠ .active g) → tblGet s.ort.orders h = some o →
        (o.state ≠ .toSource → t = u) ∧
        (o.state = .toSource →
          Framed u t ∧ tblGet t.ort.orders h = some { o with abortPending := true } ∧ otherOrdersKept h s t ∧
            t.liu =
              (if o.abortPending = true then issue v.fleetId (.entryVoid b .starved) u
              else issue v.fleetId (.abort h) (issue v.fleetId (.entryVoid b .starved) u)).liu ∧
            (∃ z, tblGet t.bac.bays b = some z ∧ z.admitted = y.admitted ∧
              z.queue = (y.queue.filter (fun e => e.slot != slot))) ∧
            otherBaysKept b s t ∧ t.vht = s.vht ∧ t.shm = s.shm ∧ t.fcr = u.fcr)) ∧
      ((∀ i h, v.layer i ≠ .active h) →
        (v.activity ≠ .repositioning → t = u) ∧
        (v.activity = .repositioning → v.target ≠ none →
          Framed u t ∧ t.ort = s.ort ∧ t.liu = (issue v.fleetId (.entryVoid b .starved) u).liu ∧
            tblGet t.vht.vehicles slot = some (repositionEnded s.now v) ∧ otherVehiclesKept slot s t ∧
            (∃ z, tblGet t.bac.bays b = some z ∧ z.admitted = y.admitted ∧
              z.queue = (y.queue.filter (fun e => e.slot != slot))) ∧
            otherBaysKept b s t ∧ t.shm = s.shm ∧ t.fcr = u.fcr)))

/-! ## The assignment arbiter -/

/-- The evaluation of an order (R25 to R30, R74 to R78, R80): a closed bay, a closed port, no candidate, no shelf and
the reach limit fail in that order; otherwise the candidate of least cost within the limit, the lower slot between
equals, is chosen. A vehicle in service is an ordinary candidate exactly by R30, and a candidate of displacement
exactly for a HOT order, where its STAGED layer holds an order that is not HOT and it meets R30 with that layer EMPTY
(R80). An idle one costs its wake penalty, its travel from where it last reported itself and the congestion penalty; a
repositioning one the same with no wake penalty; and one whose ACTIVE order is CARRYING or PLACING its remaining work,
the travel from that order's destination and the congestion penalty (R25 to R28). -/
def Obligations.EvaluationTakesTheStagesInOrder : Prop :=
  (∀ (s : State) (o : Order),
    ((∃ b ∈ orderBays s.lyt o, bayOpen s.bac b = false) → evaluate s o = .waits .bayClosed) ∧
    ((∀ b ∈ orderBays s.lyt o, bayOpen s.bac b = true) →
      ((∃ p ∈ endpointPort o.source ++ endpointPort o.dest, portOpen s.lyt p = false) →
        evaluate s o = .waits .portClosed) ∧
      ((∀ p ∈ endpointPort o.source ++ endpointPort o.dest, portOpen s.lyt p = true) →
        ((∀ e ∈ s.vht.vehicles, candidateOf s o e.1 e.2 = none) → evaluate s o = .waits .noVehicle) ∧
        ((∃ e ∈ s.vht.vehicles, candidateOf s o e.1 e.2 ≠ none) →
          (∀ r, resolveShelf s o = .missing r → evaluate s o = .waits r) ∧
          ((∀ r, resolveShelf s o ≠ .missing r) →
            ((∀ c ∈ candidates s o, ∃ r, o.reachLimit = some r ∧ r < costOf s (grantedSource o (resolveShelf s o)) c) →
              evaluate s o = .waits .reachLimit) ∧
            ((∃ c ∈ candidates s o, ∀ r, o.reachLimit = some r → costOf s (grantedSource o (resolveShelf s o)) c ≤ r) →
              tblWf s.vht.vehicles = true →
              ∃ g, evaluate s o = .servable g ∧ g.cand ∈ candidates s o ∧ g.shelf = resolveShelf s o ∧
                g.cost = costOf s (grantedSource o g.shelf) g.cand ∧
                (∀ r, o.reachLimit = some r → g.cost ≤ r) ∧
                ∀ c ∈ candidates s o, g.cost < costOf s (grantedSource o g.shelf) c ∨
                  (g.cost = costOf s (grantedSource o g.shelf) c ∧ g.cand.slot ≤ c.slot) ∨
                  (∃ r, o.reachLimit = some r ∧ r < costOf s (grantedSource o g.shelf) c))))))) ∧
  (∀ (s : State) (o : Order) (slot : Nat) (v : Vehicle) (c : Candidate) (i : LayerId),
    candidateOf s o slot v = some c ∧ c.displaces = some i ↔
      o.cls = .hot ∧ v.link = .online ∧ v.hostStall = false ∧ v.faultStall = false ∧
        ((∃ f, o.targeting = .direct f ∧ v.fleetId = f) ∨ (∃ m, o.targeting = .nearest m ∧ v.groupMask &&& m ≠ 0#8)) ∧
        (∃ h q, v.layer i = .staged h ∧ tblGet s.ort.orders h = some q ∧ q.cls ≠ .hot) ∧
        (v.layer i.other = .empty ∨
          (s.asa.chainDepth = 2 ∧
            ∃ h p, v.layer i.other = .active h ∧ tblGet s.ort.orders h = some p ∧
              (p.state = .carrying ∨ p.state = .placing))) ∧
        c =
          { slot := slot
            vehicle :=
              { v.withLayer i .empty with
                activity :=
                  if v.layer i.other = .empty ∧ v.activity ≠ .repositioning then .idle else v.activity }
            displaces := some i }) ∧
  (∀ (s : State) (o : Order) (slot : Nat) (v : Vehicle),
    (candidateOf s o slot v = some { slot := slot, vehicle := v, displaces := none } ↔
      v.link = .online ∧ v.hostStall = false ∧ v.faultStall = false ∧
        ((v.layer0 = .empty ∧ v.layer1 = .empty ∧ (v.activity = .idle ∨ v.activity = .repositioning)) ∨
          (s.asa.chainDepth = 2 ∧ (∀ i g, v.layer i ≠ .staged g) ∧
            ∃ h p, activeOrder s.ort v = some (h, p) ∧ (p.state = .carrying ∨ p.state = .placing))) ∧
        ((∃ f, o.targeting = .direct f ∧ v.fleetId = f) ∨
          (∃ m, o.targeting = .nearest m ∧ v.groupMask &&& m ≠ 0#8)))) ∧
  (∀ (s : State) (v : Vehicle) (p : Stop) (wake crowd : Nat), v.layer0 = .empty → v.layer1 = .empty →
    v.activity = .idle →
    wake = (match v.idleLevel with | .ready => 0 | .parked => s.asa.wPark | .dormant => s.asa.wDorm) →
    crowd =
      (if v.position.zone = p.zone then 0
      else s.asa.wC * (heldPlaces s.bac p.zone + 1 - softLimit s.bac p.zone)) →
    reachCost s v p = min 65535 (wake + travel s.lyt v.position.zone v.position.coord p.zone p.coord + crowd)) ∧
  (∀ (s : State) (v : Vehicle) (p : Stop) (crowd : Nat), v.layer0 = .empty → v.layer1 = .empty →
    v.activity = .repositioning →
    crowd =
      (if v.position.zone = p.zone then 0
      else s.asa.wC * (heldPlaces s.bac p.zone + 1 - softLimit s.bac p.zone)) →
    reachCost s v p = min 65535 (travel s.lyt v.position.zone v.position.coord p.zone p.coord + crowd)) ∧
  (∀ (s : State) (v : Vehicle) (p d : Stop) (i : LayerId) (h : Nat) (o : Order) (done crowd : Nat),
    v.layer i = .active h → v.layer i.other = .empty → v.activity ≠ .idle → tblGet s.ort.orders h = some o →
    o.state = .carrying ∨ o.state = .placing → stopOf? s.lyt o.dest = some d → o.etaDone = some done →
    crowd =
      (if d.zone = p.zone then 0 else s.asa.wC * (heldPlaces s.bac p.zone + 1 - softLimit s.bac p.zone)) →
    reachCost s v p =
      min 65535 (min 65535 (done - s.now) + travel s.lyt d.zone d.coord p.zone p.coord + crowd))

/-- The third stage of an evaluation looks for a shelf where the order needs one (R76, R133, R138 to R140). A STORE
with no destination takes the first FREE shelf of its bay's general region, a HOT one then of the hot reserve. A
RETURN_EMPTY with no destination takes the first FREE shelf of an empty reserve, from its source bay on in downstream
order; a SUPPLY_EMPTY the first HELD empty of an empty reserve or a general region, from its destination bay on in
upstream order; closed bays are passed over. With none found the order waits. The regions are those of R133. -/
def Obligations.ShelvesAreSearchedInOrder : Prop :=
  (∀ count hot empty i, hot + empty ≤ count → i < count →
    (regionOf count hot empty i = .hotReserve ↔ count - hot ≤ i) ∧
    (regionOf count hot empty i = .emptyReserve ↔ count - hot - empty ≤ i ∧ i < count - hot) ∧
    (regionOf count hot empty i = .general ↔ i < count - hot - empty)) ∧
  (∀ s o b y, o.kind = .store → o.dest = none → o.targetBay = some b → tblGet s.lyt.bays b = some y →
    (reserveOf s.shm b).hot + (reserveOf s.shm b).empty ≤ y.rackCount →
    (∀ k, FirstShelf s y 0 (emptyFrom s b y) isFree k → resolveShelf s o = .found k) ∧
    (∀ k, NoShelf s y 0 (emptyFrom s b y) isFree → o.cls = .hot →
      FirstShelf s y (hotFrom s b y) y.rackCount isFree k → resolveShelf s o = .found k) ∧
    (NoShelf s y 0 (emptyFrom s b y) isFree →
      o.cls ≠ .hot ∨ NoShelf s y (hotFrom s b y) y.rackCount isFree → resolveShelf s o = .missing .noShelf)) ∧
  (∀ s o src,
    (∀ e ∈ s.lyt.bays, (reserveOf s.shm e.1).hot + (reserveOf s.shm e.1).empty ≤ e.2.rackCount) →
    o.kind = .returnEmpty → o.dest = none → stopOf? s.lyt o.source = some src →
    (∀ c k, OffersReturn s c k →
      (∀ d, d ≠ c → (d = src.zone ∨ (c ≠ src.zone ∧
          downstream s.lyt (exitJunction s.lyt src.zone) d ≤ downstream s.lyt (exitJunction s.lyt src.zone) c)) →
        ∀ j, ¬OffersReturn s d j) →
      resolveShelf s o = .found k) ∧
    ((∀ c k, ¬OffersReturn s c k) → resolveShelf s o = .missing .noShelf)) ∧
  (∀ s o dst,
    (∀ e ∈ s.lyt.bays, (reserveOf s.shm e.1).hot + (reserveOf s.shm e.1).empty ≤ e.2.rackCount) →
    o.kind = .supplyEmpty → stopOf? s.lyt o.dest = some dst →
    (∀ c k, OffersSupply s c k →
      (∀ d, d ≠ c → (d = dst.zone ∨ (c ≠ dst.zone ∧
          downstream s.lyt (exitJunction s.lyt d) dst.zone ≤ downstream s.lyt (exitJunction s.lyt c) dst.zone)) →
        ∀ j, ¬OffersSupply s d j) →
      resolveShelf s o = .found k) ∧
    ((∀ c k, ¬OffersSupply s c k) → resolveShelf s o = .missing .noEmpty)) ∧
  (∀ s o, o.kind = .move ∨ o.kind = .retrieve ∨ ((o.kind = .store ∨ o.kind = .returnEmpty) ∧ o.dest ≠ none) →
    resolveShelf s o = .notNeeded)

/-- A grant step (R35, R70, R71, R73, R79, R82 to R85): with the flag clear or outside RUNNING there is none.
Otherwise the flag is cleared and the QUEUED orders are met by priority, then seq, then handle: those that cannot be
served take their wait reasons, and the first that can be served is staged on its vehicle, which sets the flag again.
Where an order is displaced it is recalled first and returns to QUEUED (R81). -/
def Obligations.GrantStepServesTheFirstServableOrder : Prop :=
  (∀ s, s.lyt.opState ≠ .running ∨ s.asa.examPending = false → exec .grantStep s = .next s) ∧
  (∀ s, TablesCanonical s → s.lyt.opState = .running → s.asa.examPending = true →
    (∀ h o, tblGet s.ort.orders h = some o → o.state = .queued → ∃ r, evaluate s o = .waits r) →
    ∃ t, exec .grantStep s = .next t ∧ t.asa.examPending = false ∧
      t = { s with
        asa := { s.asa with examPending := false, rescan := t.asa.rescan }
        ort := { s.ort with orders := t.ort.orders } } ∧
      ∀ h, tblGet t.ort.orders h =
        (tblGet s.ort.orders h).map (fun o =>
          if o.state = .queued then
            match evaluate s o with
            | .waits r => { o with waitReason := some r }
            | .servable _ => o
          else o)) ∧
  (∀ s h o g, TablesCanonical s → s.lyt.opState = .running → s.asa.examPending = true →
    tblGet s.ort.orders h = some o → o.state = .queued → evaluate s o = .servable g →
    (∀ k p, tblGet s.ort.orders k = some p → p.state = .queued → RanksBefore s k p h o →
      ∃ r, evaluate s p = .waits r) →
    ∃ t v p, exec .grantStep s = .next t ∧ t.asa.examPending = true ∧ Framed s t ∧ t.bac = s.bac ∧ t.fcr = s.fcr ∧
      t.ort.batches = s.ort.batches ∧ tblGet s.vht.vehicles g.cand.slot = some v ∧
      p =
        { o with
          state := .assigned, storedAge := ageAt o s.now, waitReason := none, source := grantedSource o g.shelf
          dest := grantedDest o g.shelf, loc := some (g.cand.slot, grantLayer g.cand)
          etaPick := some (min 4294967295 (s.now + g.cost))
          etaDone :=
            some (min 4294967295
              (min 4294967295 (s.now + g.cost) + handoffOf (stopOf? s.lyt (grantedSource o g.shelf)) +
                travelBetween s.lyt (stopOf? s.lyt (grantedSource o g.shelf)) (stopOf? s.lyt (grantedDest o g.shelf)) +
                handoffOf (stopOf? s.lyt (grantedDest o g.shelf)))) } ∧
      tblGet t.ort.orders h = some p ∧
      (∀ k q, k ≠ h → tblGet s.ort.orders k = some q → q.state = .queued → RanksBefore s k q h o →
        v.layer (grantLayer g.cand) ≠ .staged k →
        ∃ r, evaluate s q = .waits r ∧ tblGet t.ort.orders k = some { q with waitReason := some r }) ∧
      (∀ k q, k ≠ h → tblGet s.ort.orders k = some q → ¬(q.state = .queued ∧ RanksBefore s k q h o) →
        v.layer (grantLayer g.cand) ≠ .staged k → tblGet t.ort.orders k = some q) ∧
      (g.cand.displaces = none →
        tblGet t.vht.vehicles g.cand.slot =
          some { v.withLayer (grantLayer g.cand) (.staged h) with
            activity := if v.activity = .idle then .working else v.activity
            idleLevel := .ready
            takeTimer :=
              if v.layer0 = .empty ∧ v.layer1 = .empty then some (timerFrom s s.vht.tTake) else v.takeTimer } ∧
        otherVehiclesKept g.cand.slot s t ∧
        t.liu =
          (issue v.fleetId
            (.stage h (grantLayer g.cand) (stopOf? s.lyt p.source) (stopOf? s.lyt p.dest) o.carrierTag)
            (queueNotice (.orderState h o.hostTag .queued .assigned s.now .none (some v.fleetId)) s)).liu ∧
        (∀ k, g.shelf = .found k →
          shelfAt t.shm k =
            (if o.kind = .supplyEmpty then { shelfAt s.shm k with state := .outbound, claim := some h }
            else { state := .inbound, tag := none, emptyFlag := false, claim := some h }) ∧
          ∀ j, j ≠ k → shelfAt t.shm j = shelfAt s.shm j) ∧
        ((∀ k, g.shelf ≠ .found k) → t.shm = s.shm)) ∧
      (∀ i k q w, g.cand.displaces = some i → v.layer i = .staged k → tblGet s.ort.orders k = some q →
        q.state = .assigned → q.loc = some (g.cand.slot, i) → w = leftVehicle s.now s.vht.tTake i v →
        tblGet t.ort.orders k = some (returnedOrder s.now .queued q) ∧
        tblGet t.vht.vehicles g.cand.slot =
          some { w.withLayer i (.staged h) with
            activity := if w.activity = .idle then .working else w.activity
            idleLevel := .ready
            takeTimer :=
              match v.layer i.other with
              | .active _ => w.takeTimer
              | .staged _ => some (timerFrom s s.vht.tTake)
              | .empty => some (timerFrom s s.vht.tTake) } ∧
        otherVehiclesKept g.cand.slot s t ∧
        t.liu =
          (issue v.fleetId (.stage h i (stopOf? s.lyt p.source) (stopOf? s.lyt p.dest) o.carrierTag)
            (queueNotice (.orderState h o.hostTag .queued .assigned s.now .none (some v.fleetId))
              (queueNotice (.orderState k q.hostTag .assigned .queued s.now .none (some v.fleetId))
                (issue v.fleetId (.recall k i) s)))).liu))

/-! ## Timers -/

/-- The rescan timer (R72), the steps to PARKED and DORMANT (R102), the take timer with its third no-take (R104, R107)
and the orphan timer (R163): what each expiry does. What the row NO_TAKE_LIMIT does by itself (log 6), and the flag at
the end of a reposition (log 33), are the model's choices. -/
def Obligations.TimersExpire : Prop :=
  (∀ s l, s.asa.rescan = some l → l.expiry ≤ s.now → l.start < l.expiry →
    ∃ r, ((∃ e ∈ s.ort.orders, e.2.state = .queued) → r = some (timerFrom s s.asa.tRescan)) ∧
      ((∀ e ∈ s.ort.orders, e.2.state ≠ .queued) → r = none) ∧
      exec .rescanTimerExpiry s = .next { s with asa := { s.asa with examPending := true, rescan := r } }) ∧
  (∀ s slot v, tblGet s.vht.vehicles slot = some v → v.activity = .idle →
    (s.vht.parkOn = true → v.idleLevel = .ready → v.idleSince < min 4294967295 (v.idleSince + s.vht.tPark) →
      min 4294967295 (v.idleSince + s.vht.tPark) ≤ s.now →
      exec (.parkStep slot) s = .next (withVehicle slot { v with idleLevel := .parked } s)) ∧
    (s.vht.dormOn = true → v.idleLevel ≠ .dormant →
      v.idleSince < min 4294967295 (v.idleSince + s.vht.tPark + s.vht.tDorm) →
      min 4294967295 (v.idleSince + s.vht.tPark + s.vht.tDorm) ≤ s.now →
      exec (.dormantStep slot) s = .next (withVehicle slot { v with idleLevel := .dormant } s))) ∧
  (∀ s slot v l i h o, tblGet s.vht.vehicles slot = some v → v.takeTimer = some l → l.expiry ≤ s.now →
    l.start < l.expiry → v.layer i = .staged h → (∀ g, v.layer i.other ≠ .staged g) →
    tblGet s.ort.orders h = some o → o.state = .assigned → o.loc = some (slot, i) → v.noTakes ≤ 3 →
    ∃ t x y w, exec (.takeTimerExpiry slot) s = .next t ∧
      OrderReturned h o .queued (issue v.fleetId (.recall h i) s) x ∧
      w = { leftVehicle s.now s.vht.tTake i v with noTakes := min 3 (v.noTakes + 1) } ∧
      y = raiseIncident (vehicleIncident s .noTake v (some h) none) (withVehicle slot w x) ∧
      t = (if 2 ≤ v.noTakes then stallSet slot .recoverable .noTake w y else y) ∧
      (v.noTakes = 2 → exec (.noTakeLimit slot) s = .next t)) ∧
  (∀ s slot v, tblGet s.vht.vehicles slot = some v → v.noTakes = 3 → v.faultStall = false →
    exec (.noTakeLimit slot) s = .next (stallSet slot .recoverable .noTake v s)) ∧
  (∀ s h o l slot i v, tblGet s.ort.orders h = some o → o.orphan = some l → l.expiry ≤ s.now → l.start < l.expiry →
    o.loc = some (slot, i) → tblGet s.vht.vehicles slot = some v →
    ∃ t x y w, exec (.orphanTimerExpiry h) s = .next t ∧ OrderEnded h o .failed .orphaned s x ∧
      tblGet x.vht.vehicles slot = some w ∧
      y = raiseIncident
        { vehicleIncident s .orphanExpired v (some h) none with place := o.dest } x ∧
      t = (if v.load = .empty then y else stallSet slot .fatal .strayLoad w y))

/-! ## What every command keeps -/

/-- Every command keeps the queues of the line interface within their sizes (R172, R174, R176, R177) and every setting
within its range (R39, R46, R88, R113, R116, R129, R134, R146, R163). -/
def Obligations.EveryStepKeepsTheBounds : Prop :=
  ∀ s t, step s = .next t →
    (LinesBounded s.liu → LinesBounded t.liu) ∧ (SettingsInRange s → SettingsInRange t)

/-- Every command keeps the tables in their canonical form, each vehicle with at most one ACTIVE and at most one STAGED
layer and at most three no-takes, the fleet ids distinct, and layers and orders in agreement both ways: a filled layer
names an order that names it back, and an order whose record names a layer is held by that layer (R41, R49, R51, R66,
R90, R91, R107, R131). -/
def Obligations.EveryStepKeepsTheTables : Prop :=
  ∀ s t, step s = .next t → TablesCanonical s → FleetConsistent s → TablesCanonical t ∧ FleetConsistent t

/-- The capture record changes only from EMPTY to a captured incident and from RECOVERABLE to FATAL, and a
further-seen flag stays set, by every command but CAPTURE_CLEAR and a power-on reset (R168, R170). -/
def Obligations.OnlyAClearEmptiesTheCapture : Prop :=
  ∀ s t, step s = .next t → s.pending.head? ≠ some .captureClear → s.pending.head? ≠ some .powerOnReset →
    captureGrows s.fcr t.fcr

/-- While the layout is locked in RUNNING, every command but a power-on reset leaves it RUNNING, locked and as it is
but for the open flags of its ports (R10, R13, R14, R17, R19). -/
def Obligations.ALockedLayoutStays : Prop :=
  ∀ s t, step s = .next t → s.pending.head? ≠ some .powerOnReset → s.lyt.lock = true → s.lyt.opState = .running →
    t.lyt = { s.lyt with ports := t.lyt.ports } ∧
      ∀ k, (tblGet t.lyt.ports k).map (fun p => { p with isOpen := true }) =
        (tblGet s.lyt.ports k).map (fun p => { p with isOpen := true })

/-- Every command keeps the rescan timer running exactly while an order is QUEUED (R72), the yield timers exactly
while their three conditions hold (R125), and the sequencer in IDLE at rest (R149, R156); and, where layers and orders
agree and the sequencer in IDLE is at rest, the take, silence, orphan, lapse, starvation and survey timers exactly under
their conditions (R99, R107, R122, R127, R149, R163). -/
def Obligations.TimersFollowTheirConditions : Prop :=
  ∀ s t, step s = .next t →
    (RescanFollowsQueue s → RescanFollowsQueue t) ∧
    (TablesCanonical s → YieldFollowsPressure s → YieldFollowsPressure t) ∧ (SurveyAtRest s → SurveyAtRest t) ∧
    (TablesCanonical s → FleetConsistent s → SurveyAtRest s → TimersRun s → TimersRun t)

/-- Whatever command makes an order QUEUED or CARRYING, makes a vehicle IDLE, starts its take timer, or ends its place
in a bay's admitted set, or makes a racked shelf FREE or HELD, leaves the examination-pending flag set (R70, R132): the
end of an order and its return from a vehicle among them. That a vehicle made IDLE by the end of a reposition counts
here is the model's reading (log 33). The resets and the layout records, which empty the tables, are no such change. -/
def Obligations.EntryToTheQueueSetsTheFlag : Prop :=
  (∀ s t h p, step s = .next t → tblGet t.ort.orders h = some p → p.state = .queued ∨ p.state = .carrying →
    (∀ o, tblGet s.ort.orders h = some o → o.state ≠ p.state) → t.asa.examPending = true) ∧
  (∀ s t slot w, step s = .next t → tblGet t.vht.vehicles slot = some w →
    (w.activity = .idle ∧ ∀ v, tblGet s.vht.vehicles slot = some v → v.activity ≠ .idle) ∨
      (w.takeTimer ≠ none ∧ ∀ v, tblGet s.vht.vehicles slot = some v → v.takeTimer ≠ w.takeTimer) →
    t.asa.examPending = true) ∧
  (∀ s t, step s = .next t → s.pending.head? ≠ some .powerOnReset → s.pending.head? ≠ some .restartEffect →
    s.pending.head? ≠ some .layoutOpen → s.pending.head? ≠ some .layoutClose →
    (∃ k, rackOf s.lyt k ≠ none ∧ shelfAt t.shm k ≠ shelfAt s.shm k ∧
        ((shelfAt t.shm k).state = .free ∨ (shelfAt t.shm k).state = .held)) ∨
      (∃ b y z a, tblGet s.bac.bays b = some y ∧ tblGet t.bac.bays b = some z ∧ a ∈ y.admitted ∧
        ∀ e ∈ z.admitted, e.slot ≠ a.slot) →
    t.asa.examPending = true)

/-- The state after a power-on reset meets every invariant. -/
def Obligations.ResetMeetsTheInvariants : Prop :=
  LinesBounded State.reset.liu ∧ SettingsInRange State.reset ∧ TablesCanonical State.reset ∧
    FleetConsistent State.reset ∧ RescanFollowsQueue State.reset ∧ YieldFollowsPressure State.reset ∧
    SurveyAtRest State.reset ∧ TimersRun State.reset
end

