-- ==== Sys2Proof/Laws/Idle.lean ====
section
/-! SUPPORT. What a step on an empty queue can do. -/
namespace Sys2Proof.Machine

open Sys2Proof

/-- A choice among steps that are due takes one of them. -/
theorem pickStep_mem (n : Nat) {steps : List Instr} (h : steps ≠ []) : ∃ c ∈ steps, pickStep n steps = [c] := by
  have hl : Config.stepPick n % steps.length < steps.length := Nat.mod_lt _ (List.length_pos_iff.2 h)
  refine ⟨_, List.getElem_mem hl, ?_⟩
  rw [pickStep, List.drop_eq_getElem_cons hl]
  rfl

/-- Idling lets engine time pass, or queues one step that is due. -/
theorem idle_cases (s : State) :
    (waits s = true ∧ idle s = { tick s with choices := s.choices + 1 }) ∨
      (waits s = false ∧ ∃ c ∈ dueSteps s, idle s = { s with pending := [c], choices := s.choices + 1 }) := by
  cases h : waits s with
  | true => exact .inl ⟨rfl, by simp [idle, h]⟩
  | false =>
    have hd : dueSteps s ≠ [] := by
      intro e
      simp [waits, e] at h
    obtain ⟨c, hc, e⟩ := pickStep_mem s.choices hd
    exact .inr ⟨rfl, c, hc, by simp [idle, h, e]⟩

/-- Engine time does not pass while a timer expires. -/
theorem waits_eq_false_of_timer {s : State} (h : timerSteps s ≠ []) : waits s = false := by
  have hd : dueSteps s ≠ [] := by simp [dueSteps, h]
  simp [waits, h, hd]

end Sys2Proof.Machine
end

