-- ==== Sys2Proof/Laws/Tables.lean ====
section
/-! SUPPORT. What the table operations do to the record of an entry, and that they keep the canonical form. -/
namespace Sys2Proof.Machine

open Sys2Proof

variable {α : Type}

/-! ## Reading after writing -/

@[simp] theorem tblGet_nil (k : Nat) : tblGet ([] : Tbl α) k = none := rfl

@[simp] theorem tblGet_set_self (t : Tbl α) (k : Nat) (v : α) : tblGet (tblSet t k v) k = some v := by
  induction t with
  | nil => simp [tblSet, tblGet]
  | cons e t ih =>
    obtain ⟨j, w⟩ := e
    by_cases h1 : k < j
    · simp [tblSet, tblGet, h1]
    · by_cases h2 : k = j
      · simp [tblSet, tblGet, h2]
      · simp [tblSet, tblGet, h1, h2, Ne.symm h2, ih]

theorem tblGet_set_other (t : Tbl α) {j k : Nat} (v : α) (h : j ≠ k) : tblGet (tblSet t k v) j = tblGet t j := by
  induction t with
  | nil => simp [tblSet, tblGet, Ne.symm h]
  | cons e t ih =>
    obtain ⟨i, w⟩ := e
    by_cases h1 : k < i
    · simp [tblSet, tblGet, h1, Ne.symm h]
    · by_cases h2 : k = i
      · subst h2; simp [tblSet, tblGet, Ne.symm h]
      · simp [tblSet, tblGet, h1, h2, ih]

@[simp] theorem tblSet_set (t : Tbl α) (k : Nat) (v w : α) : tblSet (tblSet t k v) k w = tblSet t k w := by
  induction t with
  | nil => simp [tblSet]
  | cons e t ih =>
    obtain ⟨j, x⟩ := e
    by_cases h1 : k < j
    · simp [tblSet, h1]
    · by_cases h2 : k = j
      · simp [tblSet, h2]
      · simp [tblSet, h1, h2, ih]

@[simp] theorem tblGet_erase_self (t : Tbl α) (k : Nat) : tblGet (tblErase t k) k = none := by
  induction t with
  | nil => rfl
  | cons e t ih =>
    obtain ⟨j, w⟩ := e
    by_cases h : j = k <;> simp [tblErase, tblGet, h, ih]

theorem tblGet_erase_other (t : Tbl α) {j k : Nat} (h : j ≠ k) : tblGet (tblErase t k) j = tblGet t j := by
  induction t with
  | nil => rfl
  | cons e t ih =>
    obtain ⟨i, w⟩ := e
    by_cases h1 : i = k
    · subst h1; simp [tblErase, tblGet, Ne.symm h, ih]
    · simp [tblErase, tblGet, h1, ih]

theorem tblGet_map (f : Nat → α → α) (t : Tbl α) (k : Nat) : tblGet (tblMap f t) k = (tblGet t k).map (f k) := by
  induction t with
  | nil => rfl
  | cons e t ih =>
    obtain ⟨j, w⟩ := e
    by_cases h : j = k
    · subst h; simp [tblMap, tblGet]
    · simpa [tblMap, tblGet, h] using ih

/-- A record changed without its number, entry by entry. -/
theorem tblGet_map_records {β : Type} (f : α → β) (t : Tbl α) (k : Nat) :
    tblGet (t.map (fun e => (e.1, f e.2)) : Tbl β) k = (tblGet t k).map f := by
  induction t with
  | nil => rfl
  | cons e t ih =>
    obtain ⟨j, w⟩ := e
    by_cases h : j = k
    · simp [tblGet, h]
    · simpa [tblGet, h] using ih

theorem tblGet_mem {t : Tbl α} {k : Nat} {v : α} (h : tblGet t k = some v) : (k, v) ∈ t := by
  induction t with
  | nil => simp [tblGet] at h
  | cons e t ih =>
    obtain ⟨j, w⟩ := e
    by_cases hj : j = k
    · simp [tblGet, hj] at h; simp [hj, h]
    · simp [tblGet, hj] at h; simp [ih h]

/-! ## The canonical form -/

theorem tblWf_tail {e : Nat × α} {t : Tbl α} (h : tblWf (e :: t) = true) : tblWf t = true := by
  cases t with
  | nil => rfl
  | cons f t => simp [tblWf] at h; exact h.2

/-- In a table in canonical form every later number is above the first. -/
theorem tblWf_head_lt {j : Nat} {w : α} {t : Tbl α} (h : tblWf ((j, w) :: t) = true) :
    ∀ e ∈ t, j < e.1 := by
  induction t generalizing j w with
  | nil => simp
  | cons f t ih =>
    obtain ⟨k, x⟩ := f
    simp [tblWf] at h
    intro e he
    rcases List.mem_cons.mp he with rfl | he
    · exact h.1
    · exact Nat.lt_trans h.1 (ih h.2 e he)

theorem tblWf_cons {j : Nat} {w : α} {t : Tbl α} (hlt : ∀ e ∈ t, j < e.1) (ht : tblWf t = true) :
    tblWf ((j, w) :: t) = true := by
  cases t with
  | nil => rfl
  | cons f t =>
    obtain ⟨k, x⟩ := f
    simp [tblWf, ht, hlt (k, x) (by simp)]

/-- Every entry of a written table was there before, or is the one written. -/
theorem mem_tblSet {t : Tbl α} {k : Nat} {v : α} {e : Nat × α} (h : e ∈ tblSet t k v) : e = (k, v) ∨ e ∈ t := by
  induction t with
  | nil => simpa [tblSet] using h
  | cons f t ih =>
    obtain ⟨j, w⟩ := f
    by_cases h1 : k < j
    · simp [tblSet, h1] at h; simpa using h
    · by_cases h2 : k = j
      · simp [tblSet, h2] at h
        rcases h with h | h
        · exact Or.inl (by simp [h, h2])
        · exact Or.inr (by simp [h])
      · simp [tblSet, h1, h2] at h
        rcases h with h | h
        · exact Or.inr (by simp [h])
        · rcases ih h with h | h
          · exact Or.inl h
          · exact Or.inr (by simp [h])

theorem mem_tblErase {t : Tbl α} {k : Nat} {e : Nat × α} (h : e ∈ tblErase t k) : e ∈ t ∧ e.1 ≠ k := by
  induction t with
  | nil => simp [tblErase] at h
  | cons f t ih =>
    obtain ⟨j, w⟩ := f
    by_cases h1 : j = k
    · simp [tblErase, h1] at h
      exact ⟨by simp [(ih h).1], (ih h).2⟩
    · simp [tblErase, h1] at h
      rcases h with h | h
      · subst h; exact ⟨by simp, h1⟩
      · exact ⟨by simp [(ih h).1], (ih h).2⟩

theorem tblWf_set {t : Tbl α} (h : tblWf t = true) (k : Nat) (v : α) : tblWf (tblSet t k v) = true := by
  induction t with
  | nil => rfl
  | cons f t ih =>
    obtain ⟨j, w⟩ := f
    by_cases h1 : k < j
    · simp [tblSet, h1, tblWf, h]
    · by_cases h2 : k = j
      · subst h2; simpa [tblSet] using tblWf_cons (tblWf_head_lt h) (tblWf_tail h)
      · simp only [tblSet, h1, h2, if_false]
        refine tblWf_cons (fun e he => ?_) (ih (tblWf_tail h))
        rcases mem_tblSet he with rfl | he
        · exact Nat.lt_of_le_of_ne (Nat.le_of_not_lt h1) (Ne.symm h2)
        · exact tblWf_head_lt h e he

theorem tblWf_erase {t : Tbl α} (h : tblWf t = true) (k : Nat) : tblWf (tblErase t k) = true := by
  induction t with
  | nil => rfl
  | cons f t ih =>
    obtain ⟨j, w⟩ := f
    by_cases h1 : j = k
    · simpa [tblErase, h1] using ih (tblWf_tail h)
    · simp only [tblErase, h1, if_false]
      exact tblWf_cons (fun e he => tblWf_head_lt h e (mem_tblErase he).1) (ih (tblWf_tail h))

/-- Changing records without their numbers keeps the canonical form. -/
theorem tblWf_map_records {β : Type} (f : Nat × α → β) {t : Tbl α} (h : tblWf t = true) :
    tblWf (t.map (fun e => (e.1, f e)) : Tbl β) = true := by
  induction t with
  | nil => rfl
  | cons e t ih =>
    obtain ⟨j, w⟩ := e
    refine tblWf_cons (fun e he => ?_) (ih (tblWf_tail h))
    obtain ⟨x, hx, rfl⟩ := List.mem_map.mp he
    exact tblWf_head_lt h x hx

theorem tblWf_filter (p : Nat × α → Bool) {t : Tbl α} (h : tblWf t = true) : tblWf (t.filter p : Tbl α) = true := by
  induction t with
  | nil => rfl
  | cons e t ih =>
    obtain ⟨j, w⟩ := e
    by_cases hp : p (j, w) = true
    · simp only [List.filter_cons, hp, if_true]
      exact tblWf_cons (fun e he => tblWf_head_lt h e (List.mem_filter.mp he).1) (ih (tblWf_tail h))
    · rw [List.filter_cons_of_neg (by simpa using hp)]; exact ih (tblWf_tail h)

/-- In canonical form an entry that is listed is the one that is read. -/
theorem tblGet_of_mem {t : Tbl α} (h : tblWf t = true) {k : Nat} {v : α} (hm : (k, v) ∈ t) : tblGet t k = some v := by
  induction t with
  | nil => simp at hm
  | cons e t ih =>
    obtain ⟨j, w⟩ := e
    rcases List.mem_cons.mp hm with he | he
    · cases he; simp [tblGet]
    · have := tblWf_head_lt h _ he
      simp only at this
      simp [tblGet, Nat.ne_of_lt this, ih (tblWf_tail h) he]

/-! ## Ordering -/

theorem mem_insertBy (before : α → α → Bool) (x y : α) (l : List α) : y ∈ insertBy before x l ↔ y = x ∨ y ∈ l := by
  induction l with
  | nil => simp [insertBy]
  | cons z l ih =>
    by_cases h : before z x = true <;> simp [insertBy, h, ih]
    constructor <;> rintro (h | h | h) <;> simp [h]

theorem insertBy_perm (before : α → α → Bool) (x : α) (l : List α) : (insertBy before x l).Perm (x :: l) := by
  induction l with
  | nil => simp [insertBy]
  | cons z l ih =>
    by_cases h : before z x = true
    · simp only [insertBy, h, if_true]
      exact (ih.cons z).trans (List.Perm.swap x z l)
    · simp [insertBy, h]

/-- Ordering a list keeps its elements. -/
theorem sortBy_perm (before : α → α → Bool) (l : List α) : (sortBy before l).Perm l := by
  induction l with
  | nil => simp [sortBy]
  | cons x l ih => exact (insertBy_perm before x _).trans (ih.cons x)

theorem mem_sortBy (before : α → α → Bool) (y : α) (l : List α) : y ∈ sortBy before l ↔ y ∈ l :=
  (sortBy_perm before l).mem_iff

/-- The element chosen is one of the list. -/
theorem bestBy_mem (before : α → α → Bool) {l : List α} {y : α} (h : bestBy before l = some y) : y ∈ l := by
  induction l generalizing y with
  | nil => simp [bestBy] at h
  | cons x l ih =>
    simp only [bestBy] at h
    split at h
    · simp at h; simp [h]
    · rename_i z hz
      split at h
      · simp at h; subst h; simp [ih hz]
      · simp at h; simp [h]

end Sys2Proof.Machine
end

