-- ==== Sys2Proof/Laws/State.lean ====
section
/-! SUPPORT. What the smallest updates of the state leave in each block: true by unfolding, so that no later proof unfolds
them again. -/
namespace Sys2Proof.Machine

open Sys2Proof

/-! ## setExam (R70) -/

@[simp] theorem setExam_examPending (s : State) : (setExam s).asa.examPending = true := rfl
@[simp] theorem setExam_rescan (s : State) : (setExam s).asa.rescan = s.asa.rescan := rfl
@[simp] theorem setExam_tRescan (s : State) : (setExam s).asa.tRescan = s.asa.tRescan := rfl
@[simp] theorem setExam_now (s : State) : (setExam s).now = s.now := rfl
@[simp] theorem setExam_gwrdy (s : State) : (setExam s).gwrdy = s.gwrdy := rfl
@[simp] theorem setExam_liu (s : State) : (setExam s).liu = s.liu := rfl
@[simp] theorem setExam_lyt (s : State) : (setExam s).lyt = s.lyt := rfl
@[simp] theorem setExam_ort (s : State) : (setExam s).ort = s.ort := rfl
@[simp] theorem setExam_vht (s : State) : (setExam s).vht = s.vht := rfl
@[simp] theorem setExam_bac (s : State) : (setExam s).bac = s.bac := rfl
@[simp] theorem setExam_shm (s : State) : (setExam s).shm = s.shm := rfl
@[simp] theorem setExam_iss (s : State) : (setExam s).iss = s.iss := rfl
@[simp] theorem setExam_fcr (s : State) : (setExam s).fcr = s.fcr := rfl
@[simp] theorem setExam_pending (s : State) : (setExam s).pending = s.pending := rfl
@[simp] theorem setExam_choices (s : State) : (setExam s).choices = s.choices := rfl

@[simp] theorem setExamIf_true (s : State) : setExamIf true s = setExam s := rfl
@[simp] theorem setExamIf_false (s : State) : setExamIf false s = s := rfl

/-! ## Taking and answering a request (R174, R175) -/

@[simp] theorem popHost_hostQueue (s : State) : (popHost s).liu.hostQueue = s.liu.hostQueue.tail := rfl
@[simp] theorem popHost_replySlot (s : State) : (popHost s).liu.replySlot = s.liu.replySlot := rfl
@[simp] theorem popHost_notices (s : State) : (popHost s).liu.notices = s.liu.notices := rfl
@[simp] theorem popHost_gapMark (s : State) : (popHost s).liu.gapMark = s.liu.gapMark := rfl
@[simp] theorem popHost_fleetIn (s : State) : (popHost s).liu.fleetIn = s.liu.fleetIn := rfl
@[simp] theorem popHost_fleetOut (s : State) : (popHost s).liu.fleetOut = s.liu.fleetOut := rfl
@[simp] theorem popHost_now (s : State) : (popHost s).now = s.now := rfl
@[simp] theorem popHost_gwrdy (s : State) : (popHost s).gwrdy = s.gwrdy := rfl
@[simp] theorem popHost_lyt (s : State) : (popHost s).lyt = s.lyt := rfl
@[simp] theorem popHost_ort (s : State) : (popHost s).ort = s.ort := rfl
@[simp] theorem popHost_asa (s : State) : (popHost s).asa = s.asa := rfl
@[simp] theorem popHost_vht (s : State) : (popHost s).vht = s.vht := rfl
@[simp] theorem popHost_bac (s : State) : (popHost s).bac = s.bac := rfl
@[simp] theorem popHost_shm (s : State) : (popHost s).shm = s.shm := rfl
@[simp] theorem popHost_iss (s : State) : (popHost s).iss = s.iss := rfl
@[simp] theorem popHost_fcr (s : State) : (popHost s).fcr = s.fcr := rfl
@[simp] theorem popHost_pending (s : State) : (popHost s).pending = s.pending := rfl
@[simp] theorem popHost_choices (s : State) : (popHost s).choices = s.choices := rfl

@[simp] theorem placeReply_replySlot (r : Reply) (s : State) : (placeReply r s).liu.replySlot = some r := rfl
@[simp] theorem placeReply_notices (r : Reply) (s : State) : (placeReply r s).liu.notices = s.liu.notices := rfl
@[simp] theorem placeReply_gapMark (r : Reply) (s : State) : (placeReply r s).liu.gapMark = s.liu.gapMark := rfl
@[simp] theorem placeReply_fleetOut (r : Reply) (s : State) : (placeReply r s).liu.fleetOut = s.liu.fleetOut := rfl
@[simp] theorem placeReply_now (r : Reply) (s : State) : (placeReply r s).now = s.now := rfl
@[simp] theorem placeReply_gwrdy (r : Reply) (s : State) : (placeReply r s).gwrdy = s.gwrdy := rfl
@[simp] theorem placeReply_lyt (r : Reply) (s : State) : (placeReply r s).lyt = s.lyt := rfl
@[simp] theorem placeReply_ort (r : Reply) (s : State) : (placeReply r s).ort = s.ort := rfl
@[simp] theorem placeReply_asa (r : Reply) (s : State) : (placeReply r s).asa = s.asa := rfl
@[simp] theorem placeReply_vht (r : Reply) (s : State) : (placeReply r s).vht = s.vht := rfl
@[simp] theorem placeReply_bac (r : Reply) (s : State) : (placeReply r s).bac = s.bac := rfl
@[simp] theorem placeReply_shm (r : Reply) (s : State) : (placeReply r s).shm = s.shm := rfl
@[simp] theorem placeReply_iss (r : Reply) (s : State) : (placeReply r s).iss = s.iss := rfl
@[simp] theorem placeReply_fcr (r : Reply) (s : State) : (placeReply r s).fcr = s.fcr := rfl
@[simp] theorem placeReply_pending (r : Reply) (s : State) : (placeReply r s).pending = s.pending := rfl
@[simp] theorem placeReply_choices (r : Reply) (s : State) : (placeReply r s).choices = s.choices := rfl

/-! ## Taking a report (R177) -/

@[simp] theorem popFleet_fleetIn (s : State) : (popFleet s).liu.fleetIn = s.liu.fleetIn.tail := rfl
@[simp] theorem popFleet_now (s : State) : (popFleet s).now = s.now := rfl
@[simp] theorem popFleet_lyt (s : State) : (popFleet s).lyt = s.lyt := rfl
@[simp] theorem popFleet_ort (s : State) : (popFleet s).ort = s.ort := rfl
@[simp] theorem popFleet_asa (s : State) : (popFleet s).asa = s.asa := rfl
@[simp] theorem popFleet_vht (s : State) : (popFleet s).vht = s.vht := rfl
@[simp] theorem popFleet_bac (s : State) : (popFleet s).bac = s.bac := rfl
@[simp] theorem popFleet_shm (s : State) : (popFleet s).shm = s.shm := rfl
@[simp] theorem popFleet_iss (s : State) : (popFleet s).iss = s.iss := rfl
@[simp] theorem popFleet_fcr (s : State) : (popFleet s).fcr = s.fcr := rfl
@[simp] theorem popFleet_pending (s : State) : (popFleet s).pending = s.pending := rfl
@[simp] theorem popFleet_choices (s : State) : (popFleet s).choices = s.choices := rfl

/-! ## Layers -/

@[simp] theorem withLayer_self (v : Vehicle) (i : LayerId) (y : Layer) : (v.withLayer i y).layer i = y := by
  cases i <;> rfl
@[simp] theorem withLayer_other (v : Vehicle) (i : LayerId) (y : Layer) :
    (v.withLayer i y).layer i.other = v.layer i.other := by cases i <;> rfl
@[simp] theorem withLayer_fleetId (v : Vehicle) (i : LayerId) (y : Layer) : (v.withLayer i y).fleetId = v.fleetId := by
  cases i <;> rfl
@[simp] theorem withLayer_noTakes (v : Vehicle) (i : LayerId) (y : Layer) : (v.withLayer i y).noTakes = v.noTakes := by
  cases i <;> rfl
@[simp] theorem withLayer_position (v : Vehicle) (i : LayerId) (y : Layer) :
    (v.withLayer i y).position = v.position := by cases i <;> rfl
@[simp] theorem withLayer_load (v : Vehicle) (i : LayerId) (y : Layer) : (v.withLayer i y).load = v.load := by
  cases i <;> rfl
@[simp] theorem withLayer_link (v : Vehicle) (i : LayerId) (y : Layer) : (v.withLayer i y).link = v.link := by
  cases i <;> rfl

end Sys2Proof.Machine
end

