-- ==== Sys2Proof/Laws/Steady.lean ====
section
/-! SUPPORT. What every shared operation keeps, said once: the frame of an event about orders and vehicles, the sizes of
the queues, the capture record's growth, and the canonical form and the invariants of the tables. -/
namespace Sys2Proof.Machine

open Sys2Proof

/-! ## The relation -/

/-- A vehicle's record changed within what R90 and R91 allow. -/
def VehicleSteady (v w : Vehicle) : Prop :=
  w.fleetId = v.fleetId ∧ (v.noTakes ≤ 3 → w.noTakes ≤ 3) ∧
    (∀ h g, w.layer0 = .active h → w.layer1 = .active g → ∃ h g, v.layer0 = .active h ∧ v.layer1 = .active g)

/-- The settings of a bay are as they were. -/
def BaySteady (y z : BayState) : Prop :=
  z.capacity = y.capacity ∧ z.soft = y.soft ∧ z.quota = y.quota ∧ z.isOpen = y.isOpen

/-- What an operation about orders, vehicles, bays and shelves makes of the state. -/
structure Steady (s t : State) : Prop where
  framed : Framed s t
  notices : s.liu.notices.length ≤ 64 → t.liu.notices.length ≤ 64
  fleetOut : s.liu.fleetOut.length ≤ 32 → t.liu.fleetOut.length ≤ 32
  capture : captureGrows s.fcr t.fcr
  orderWf : tblWf s.ort.orders = true → tblWf t.ort.orders = true
  orderKeys : ∀ e ∈ t.ort.orders, ∃ f ∈ s.ort.orders, f.1 = e.1
  batchWf : tblWf s.ort.batches = true → tblWf t.ort.batches = true
  batchCount : tblWf s.ort.batches = true → t.ort.batches.length ≤ s.ort.batches.length
  vehicleWf : tblWf s.vht.vehicles = true → tblWf t.vht.vehicles = true
  vehicleIds : tblWf s.vht.vehicles = true →
    t.vht.vehicles.map (fun e => (e.1, e.2.fleetId)) = s.vht.vehicles.map (fun e => (e.1, e.2.fleetId))
  vehicleEach : ∀ e ∈ t.vht.vehicles, ∃ f ∈ s.vht.vehicles, VehicleSteady f.2 e.2
  bayWf : tblWf s.bac.bays = true → tblWf t.bac.bays = true
  bayEach : ∀ e ∈ t.bac.bays, ∃ f ∈ s.bac.bays, BaySteady f.2 e.2
  yield : YieldFollowsPressure s → YieldFollowsPressure t
  shelfWf : tblWf s.shm.shelves = true → tblWf t.shm.shelves = true
  shelfListed : (∀ e ∈ s.shm.shelves, e.2 ≠ freeShelf) → ∀ e ∈ t.shm.shelves, e.2 ≠ freeShelf
  rescan : RescanFollowsQueue s → RescanFollowsQueue t

theorem VehicleSteady.refl (v : Vehicle) : VehicleSteady v v := ⟨rfl, id, fun h g a b => ⟨h, g, a, b⟩⟩

theorem VehicleSteady.trans {u v w : Vehicle} (h : VehicleSteady u v) (k : VehicleSteady v w) : VehicleSteady u w :=
  ⟨k.1.trans h.1, fun a => k.2.1 (h.2.1 a), fun a b ha hb => by
    obtain ⟨c, d, hc, hd⟩ := k.2.2 a b ha hb
    exact h.2.2 c d hc hd⟩

theorem BaySteady.refl (y : BayState) : BaySteady y y := ⟨rfl, rfl, rfl, rfl⟩

theorem BaySteady.trans {x y z : BayState} (h : BaySteady x y) (k : BaySteady y z) : BaySteady x z :=
  ⟨k.1.trans h.1, k.2.1.trans h.2.1, k.2.2.1.trans h.2.2.1, k.2.2.2.trans h.2.2.2⟩

theorem captureGrows.refl (f : FaultCapture) : captureGrows f f := by
  refine ⟨?_, id, id⟩
  split <;> simp

theorem captureGrows.trans {f g k : FaultCapture} (h : captureGrows f g) (j : captureGrows g k) :
    captureGrows f k := by
  refine ⟨?_, fun a => j.2.1 (h.2.1 a), fun a => j.2.2 (h.2.2 a)⟩
  have h1 := h.1
  have j1 := j.1
  cases hf : captureStateOf f.capture with
  | empty => trivial
  | recoverable =>
    rw [hf] at h1
    simp only at h1 ⊢
    rcases h1 with h1 | h1
    · rw [h1, hf] at j1; simpa using j1
    · rw [h1] at j1; simp only at j1; rw [j1]; exact Or.inr h1
  | fatal =>
    rw [hf] at h1
    simp only at h1 ⊢
    rw [h1, hf] at j1
    simpa using j1

theorem Framed.refl (s : State) : Framed s s := by constructor <;> rfl

theorem Framed.trans {s t u : State} (h : Framed s t) (k : Framed t u) : Framed s u where
  now := k.now.trans h.now
  gwrdy := k.gwrdy.trans h.gwrdy
  lyt := k.lyt.trans h.lyt
  iss := k.iss.trans h.iss
  pending := k.pending.trans h.pending
  choices := k.choices.trans h.choices
  lines := by rw [k.lines, h.lines]
  ort := by rw [k.ort, h.ort]
  asa := by rw [k.asa, h.asa]
  vht := by rw [k.vht, h.vht]
  bac := by rw [k.bac, h.bac]
  reserves := k.reserves.trans h.reserves
  routes := k.routes.trans h.routes
  tOrphan := k.tOrphan.trans h.tOrphan

theorem Steady.refl (s : State) : Steady s s where
  framed := .refl s
  notices := id
  fleetOut := id
  capture := .refl _
  orderWf := id
  orderKeys := fun e he => ⟨e, he, rfl⟩
  batchWf := id
  batchCount := fun _ => le_refl _
  vehicleWf := id
  vehicleIds := fun _ => rfl
  vehicleEach := fun e he => ⟨e, he, .refl _⟩
  bayWf := id
  bayEach := fun e he => ⟨e, he, .refl _⟩
  yield := id
  shelfWf := id
  shelfListed := id
  rescan := id

theorem Steady.trans {s t u : State} (h : Steady s t) (k : Steady t u) : Steady s u where
  framed := h.framed.trans k.framed
  notices := fun a => k.notices (h.notices a)
  fleetOut := fun a => k.fleetOut (h.fleetOut a)
  capture := h.capture.trans k.capture
  orderWf := fun a => k.orderWf (h.orderWf a)
  orderKeys := fun e he => by
    obtain ⟨f, hf, hk⟩ := k.orderKeys e he
    obtain ⟨g, hg, hj⟩ := h.orderKeys f hf
    exact ⟨g, hg, hj.trans hk⟩
  batchWf := fun a => k.batchWf (h.batchWf a)
  batchCount := fun a => (k.batchCount (h.batchWf a)).trans (h.batchCount a)
  vehicleWf := fun a => k.vehicleWf (h.vehicleWf a)
  vehicleIds := fun a => (k.vehicleIds (h.vehicleWf a)).trans (h.vehicleIds a)
  vehicleEach := fun e he => by
    obtain ⟨f, hf, hk⟩ := k.vehicleEach e he
    obtain ⟨g, hg, hj⟩ := h.vehicleEach f hf
    exact ⟨g, hg, hj.trans hk⟩
  bayWf := fun a => k.bayWf (h.bayWf a)
  bayEach := fun e he => by
    obtain ⟨f, hf, hk⟩ := k.bayEach e he
    obtain ⟨g, hg, hj⟩ := h.bayEach f hf
    exact ⟨g, hg, hj.trans hk⟩
  yield := fun a => k.yield (h.yield a)
  shelfWf := fun a => k.shelfWf (h.shelfWf a)
  shelfListed := fun a => k.shelfListed (h.shelfListed a)
  rescan := fun a => k.rescan (h.rescan a)

/-- `Steady.trans` with the later step first, for goals whose last operation is known. -/
theorem Steady.after {s t u : State} (k : Steady t u) (h : Steady s t) : Steady s u := h.trans k

theorem Steady.ite {s t u : State} (c : Prop) [Decidable c] (h : Steady s t) (k : Steady s u) :
    Steady s (if c then t else u) := by split <;> assumption

/-! ## The flags and queues -/

theorem setExam_steady (s : State) : Steady s (setExam s) :=
  { Steady.refl s with
    framed := { Framed.refl s with asa := rfl }
    yield := id
    rescan := fun h => ⟨h.orders, h.rescan⟩ }

theorem setExamIf_steady (b : Bool) (s : State) : Steady s (setExamIf b s) := by
  cases b
  · exact .refl s
  · exact setExam_steady s

/-- A notice joins the queue or, with 64 waiting, is discarded; either way the gap mark follows R176. -/
theorem queueNotice_steady (n : Notice) (s : State) : Steady s (queueNotice n s) := by
  unfold queueNotice
  split
  · rename_i hn
    exact { Steady.refl s with
      framed := { Framed.refl s with lines := rfl }
      notices := fun _ => by simp; omega
      yield := id
      rescan := fun h => ⟨h.orders, h.rescan⟩ }
  · exact { Steady.refl s with
      framed := { Framed.refl s with lines := rfl }
      yield := id
      rescan := fun h => ⟨h.orders, h.rescan⟩ }

theorem issue_steady (f : Nat) (b : CommandBody) (s : State) : Steady s (issue f b s) := by
  unfold issue
  split
  · rename_i h
    simp at h
    exact { Steady.refl s with
      framed := { Framed.refl s with lines := rfl }
      fleetOut := fun _ => by simp; omega
      yield := id
      rescan := fun h => ⟨h.orders, h.rescan⟩ }
  · exact .refl s

theorem issueTo_steady (slot : Nat) (b : CommandBody) (s : State) : Steady s (issueTo slot b s) := by
  unfold issueTo
  split
  · exact issue_steady _ _ s
  · exact .refl s

/-- An incident offered to the capture leaves it as R168's table states, its routes and T_orphan as they were. -/
theorem captureOffer_grows (f : FaultCapture) (i : Incident) : captureGrows f (captureOffer f i) := by
  unfold captureOffer captureGrows
  cases hf : captureStateOf f.capture with
  | empty => simp
  | recoverable => by_cases hi : i.cls.fatal = true <;> simp [hi, captureStateOf]
  | fatal => by_cases hi : i.cls.fatal = true <;> simp [hi]

theorem captureOffer_routes (f : FaultCapture) (i : Incident) : (captureOffer f i).routes = f.routes := by
  unfold captureOffer; split <;> (try split) <;> rfl

theorem captureOffer_tOrphan (f : FaultCapture) (i : Incident) : (captureOffer f i).tOrphan = f.tOrphan := by
  unfold captureOffer; split <;> (try split) <;> rfl

theorem routeNotice_steady (i : Incident) (c : Bool) (s : State) : Steady s (routeNotice i c s) := by
  unfold routeNotice
  split
  · exact .refl s
  · exact queueNotice_steady _ s

theorem raiseIncident_steady (i : Incident) (s : State) : Steady s (raiseIncident i s) :=
  Steady.trans (t := { s with fcr := captureOffer s.fcr i })
    { Steady.refl s with
      framed := { Framed.refl s with
        routes := captureOffer_routes _ _, tOrphan := captureOffer_tOrphan _ _ }
      capture := captureOffer_grows _ _
      yield := id
      rescan := fun h => ⟨h.orders, h.rescan⟩ }
    (routeNotice_steady _ _ _)

theorem raiseVehicle_steady (c : IncidentClass) (slot : Nat) (h : Option Nat) (p : Option Endpoint) (k : Option Nat)
    (s : State) : Steady s (raiseVehicle c slot h p k s) := by
  unfold raiseVehicle
  split
  · exact raiseIncident_steady _ s
  · exact .refl s

/-! ## Writing the tables -/

/-- Whether an order is QUEUED. -/
def isQueued (o : Order) : Bool := decide (o.state = .queued)

theorem queuedCount_pos {t : Tbl Order} : 0 < queuedCount t ↔ ∃ e ∈ t, e.2.state = .queued := by
  simp [queuedCount, tblCount, List.length_pos_iff_exists_mem]

/-- The rescan timer follows the count of QUEUED orders (R72). -/
theorem rescanAfter_isSome {now tR a b : Nat} {x : Option Timer} (h : x.isSome = true ↔ 0 < a) :
    (rescanAfter now tR a b x).isSome = true ↔ 0 < b := by
  unfold rescanAfter
  split
  · rename_i hc; simp; omega
  · split
    · rename_i hc; simp; omega
    · rw [h]; omega

/-- An order that is in the table written again. -/
theorem putOrder_steady {h : Nat} {o₀ : Order} (o : Order) {s : State} (hg : tblGet s.ort.orders h = some o₀) :
    Steady s (putOrder h o s) :=
  { Steady.refl s with
    framed := { Framed.refl s with ort := rfl, asa := rfl }
    orderWf := fun hw => tblWf_set hw _ _
    orderKeys := fun e he => by
      rcases mem_tblSet he with rfl | he
      · exact ⟨_, tblGet_mem hg, rfl⟩
      · exact ⟨e, he, rfl⟩
    yield := id
    rescan := fun hr =>
      ⟨tblWf_set hr.orders _ _, by
        have := hr.rescan
        rw [← queuedCount_pos] at this
        exact (rescanAfter_isSome this).trans queuedCount_pos⟩ }

theorem updOrder_steady (h : Nat) (f : Order → Order) (s : State) : Steady s (updOrder h f s) := by
  unfold updOrder
  split
  · rename_i o ho; exact putOrder_steady _ ho
  · exact .refl s

/-- Writing an entry that is filled keeps every number and everything that the record keeps. -/
theorem map_tblSet {α β : Type} {t : Tbl α} (hw : tblWf t = true) {k : Nat} {v w : α} (hg : tblGet t k = some v)
    (f : Nat × α → β) (hf : f (k, w) = f (k, v)) : (tblSet t k w).map f = t.map f := by
  induction t with
  | nil => simp at hg
  | cons e t ih =>
    obtain ⟨j, x⟩ := e
    by_cases hj : j = k
    · subst hj
      simp [tblGet] at hg
      subst hg
      simp [tblSet, hf]
    · simp [tblGet, hj] at hg
      have hlt : j < k := tblWf_head_lt hw _ (tblGet_mem hg)
      simp [tblSet, Nat.not_lt.mpr (Nat.le_of_lt hlt), Ne.symm hj, ih (tblWf_tail hw) hg]

theorem length_tblSet {α : Type} {t : Tbl α} (hw : tblWf t = true) {k : Nat} {v w : α} (hg : tblGet t k = some v) :
    (tblSet t k w).length = t.length := by
  have := map_tblSet (w := w) hw hg (fun e => e.1) rfl
  simpa using congrArg List.length this

theorem length_tblErase {α : Type} (t : Tbl α) (k : Nat) : (tblErase t k).length ≤ t.length := by
  induction t with
  | nil => simp [tblErase]
  | cons e t ih =>
    obtain ⟨j, w⟩ := e
    by_cases h : j = k <;> simp [tblErase, h] <;> omega

theorem updVehicle_steady {slot : Nat} {f : Vehicle → Vehicle} {s : State}
    (hf : ∀ v, tblGet s.vht.vehicles slot = some v → VehicleSteady v (f v)) : Steady s (updVehicle slot f s) := by
  unfold updVehicle
  split
  · rename_i v hv
    exact { Steady.refl s with
      framed := { Framed.refl s with vht := rfl }
      vehicleWf := fun hw => tblWf_set hw _ _
      vehicleIds := fun hw => map_tblSet hw hv _ (by simp [(hf v hv).1])
      vehicleEach := fun e he => by
        rcases mem_tblSet he with rfl | he
        · exact ⟨_, tblGet_mem hv, hf v hv⟩
        · exact ⟨e, he, .refl _⟩
      yield := id
      rescan := fun h => ⟨h.orders, h.rescan⟩ }
  · exact .refl s

theorem setShelf_steady (k : Nat) (sh : Shelf) (s : State) : Steady s (setShelf k sh s) := by
  unfold setShelf
  refine Steady.trans ?_ (setExamIf_steady _ _)
  by_cases hsh : sh = freeShelf
  · exact { Steady.refl s with
      framed := { Framed.refl s with reserves := rfl }
      shelfWf := fun hw => by simpa [hsh] using tblWf_erase hw k
      shelfListed := fun hl e he => by
        simp [hsh] at he
        exact hl e (mem_tblErase he).1
      yield := id
      rescan := fun h => ⟨h.orders, h.rescan⟩ }
  · exact { Steady.refl s with
      framed := { Framed.refl s with reserves := rfl }
      shelfWf := fun hw => by simpa [hsh] using tblWf_set hw k sh
      shelfListed := fun hl e he => by
        simp [hsh] at he
        rcases mem_tblSet he with rfl | he
        · exact hsh
        · exact hl e he
      yield := id
      rescan := fun h => ⟨h.orders, h.rescan⟩ }

theorem pressed_iff (y : BayState) :
    y.pressed = true ↔ y.isOpen = true ∧ y.capacity ≤ y.admitted.length ∧ y.queue ≠ [] := by
  simp [BayState.pressed, and_assoc]

theorem yieldAfter_isSome {now tY : Nat} {old new : BayState} (h : old.pressed = true → old.yield.isSome = true) :
    (yieldAfter now tY old new).isSome = true ↔ new.pressed = true := by
  unfold yieldAfter
  split
  · rename_i hn
    split
    · rename_i ho; simp at ho; simp [hn, h ho.1]
    · simp [hn]
  · rename_i hn; simp [hn]

/-- A bay written with its yield timer following (R125). -/
theorem updBay_steady {b : Nat} {f : BayState → BayState} {s : State}
    (hf : ∀ y, BaySteady y (f y)) : Steady s (updBay b f s) := by
  unfold updBay
  split
  · rename_i y hy
    exact { Steady.refl s with
      framed := { Framed.refl s with bac := rfl }
      bayWf := fun hw => tblWf_set hw _ _
      bayEach := fun e he => by
        rcases mem_tblSet he with rfl | he
        · exact ⟨_, tblGet_mem hy, hf y⟩
        · exact ⟨e, he, .refl _⟩
      yield := fun hs e he => by
        rcases mem_tblSet he with rfl | he
        · have := yieldAfter_isSome (now := s.now) (tY := s.bac.tYield) (old := y) (new := f y)
            (fun hp => (hs _ (tblGet_mem hy)).mpr ((pressed_iff y).mp hp))
          rw [pressed_iff] at this
          simpa using this
        · exact hs e he
      rescan := fun h => ⟨h.orders, h.rescan⟩ }
  · exact .refl s

theorem batches_steady {s : State} {b : Tbl Batch} (hw : tblWf s.ort.batches = true → tblWf b = true)
    (hl : tblWf s.ort.batches = true → b.length ≤ s.ort.batches.length) :
    Steady s { s with ort := { s.ort with batches := b } } :=
  { Steady.refl s with
    framed := { Framed.refl s with ort := rfl }
    batchWf := hw
    batchCount := hl
    yield := id
    rescan := fun h => ⟨h.orders, h.rescan⟩ }

end Sys2Proof.Machine
end

