-- ==== Sys2Proof/Laws/Ops.lean ====
section
/-! SUPPORT. Each operation of Machine/Ops.lean is steady: what it keeps, for its callers to cite. -/
namespace Sys2Proof.Machine

open Sys2Proof

/-! ## Vehicles -/

theorem VehicleSteady.of_layers {v w : Vehicle} (h1 : w.fleetId = v.fleetId) (h2 : v.noTakes ≤ 3 → w.noTakes ≤ 3)
    (h3 : ∀ h, w.layer0 = .active h → v.layer0 = .active h) (h4 : ∀ h, w.layer1 = .active h → v.layer1 = .active h) :
    VehicleSteady v w :=
  ⟨h1, h2, fun h g a b => ⟨h, g, h3 h a, h4 g b⟩⟩

/-- A change that leaves the fleet id, the no-takes and the layers alone is steady. -/
theorem VehicleSteady.of_eq {v w : Vehicle} (h1 : w.fleetId = v.fleetId) (h2 : w.noTakes = v.noTakes)
    (h3 : w.layer0 = v.layer0) (h4 : w.layer1 = v.layer1) : VehicleSteady v w :=
  .of_layers h1 (fun h => by omega) (fun h => by rw [h3]; exact id) (fun h => by rw [h4]; exact id)

/-- A layer that becomes EMPTY or STAGED. -/
theorem VehicleSteady.of_withLayer {v w : Vehicle} {i : LayerId} {y : Layer} (hy : ∀ h, y ≠ .active h)
    (h1 : w.fleetId = v.fleetId) (h2 : v.noTakes ≤ 3 → w.noTakes ≤ 3) (h3 : w.layer0 = (v.withLayer i y).layer0)
    (h4 : w.layer1 = (v.withLayer i y).layer1) : VehicleSteady v w := by
  refine .of_layers h1 h2 (fun h => ?_) (fun h => ?_)
  · rw [h3]; cases i
    · exact fun hh => absurd hh (hy h)
    · exact id
  · rw [h4]; cases i
    · exact id
    · exact fun hh => absurd hh (hy h)

theorem emptyLayer_steady (slot : Nat) (i : LayerId) (s : State) : Steady s (emptyLayer slot i s) := by
  have e : ∀ h, Layer.empty ≠ .active h := by intro h; simp
  unfold emptyLayer
  split
  · split
    · exact .refl s
    · exact updVehicle_steady fun _ _ => .of_withLayer e (by simp) (by simp) rfl rfl
    · split
      · exact updVehicle_steady fun _ _ => .of_withLayer e (by simp) (by simp) rfl rfl
      · exact .after (setExam_steady _) (updVehicle_steady fun _ _ =>
          .of_withLayer e (by simp [Vehicle.rest]) (by simp [Vehicle.rest]) rfl rfl)
    · exact .after (setExam_steady _) (updVehicle_steady fun _ _ => .of_withLayer e (by simp) (by simp) rfl rfl)
    · exact .after (setExam_steady _) (updVehicle_steady fun _ _ =>
        .of_withLayer e (by simp [Vehicle.rest]) (by simp [Vehicle.rest]) rfl rfl)
  · exact .refl s

theorem leaveVehicle_steady (loc : Option (Nat × LayerId)) (s : State) : Steady s (leaveVehicle loc s) := by
  unfold leaveVehicle
  split
  · exact emptyLayer_steady _ _ s
  · exact .refl s

theorem vehicleNotice_steady (slot : Nat) (ev : VehicleEvent) (s : State) : Steady s (vehicleNotice slot ev s) := by
  unfold vehicleNotice
  split
  · exact queueNotice_steady _ s
  · exact .refl s

/-! ## Orders -/

theorem moveOrder_steady (h : Nat) (f : Order → Order) (st : OrderState) (why : OrderReason) (left : Option Nat)
    (s : State) : Steady s (moveOrder h f st why left s) := by
  unfold moveOrder
  split
  · rename_i o ho
    exact ((putOrder_steady _ ho).trans (queueNotice_steady _ _)).trans (setExamIf_steady _ _)
  · exact .refl s

theorem releaseInbound_steady (h : Nat) (e : Option Endpoint) (s : State) : Steady s (releaseInbound h e s) := by
  unfold releaseInbound
  split
  · exact .ite _ (setShelf_steady _ _ s) (.refl s)
  · exact .refl s

theorem releaseOutbound_steady (h : Nat) (e : Option Endpoint) (s : State) : Steady s (releaseOutbound h e s) := by
  unfold releaseOutbound
  split
  · exact .ite _ (setShelf_steady _ _ s) (.refl s)
  · exact .refl s

theorem vacateSource_steady (h : Nat) (e : Option Endpoint) (s : State) : Steady s (vacateSource h e s) := by
  unfold vacateSource
  split
  · exact .ite _ (setShelf_steady _ _ s) (.refl s)
  · exact .refl s

theorem releaseGrantClaims_steady (h : Nat) (o : Order) (s : State) : Steady s (releaseGrantClaims h o s) := by
  unfold releaseGrantClaims
  refine .after (releaseInbound_steady _ _ _) ?_
  split <;> split
  · exact .after (releaseOutbound_steady _ _ _) (releaseInbound_steady _ _ s)
  · exact releaseOutbound_steady _ _ s
  · exact releaseInbound_steady _ _ s
  · exact .refl s

theorem releaseAllClaims_steady (h : Nat) (o : Order) (s : State) : Steady s (releaseAllClaims h o s) :=
  ((releaseOutbound_steady _ _ s).trans (releaseInbound_steady _ _ _)).trans (releaseInbound_steady _ _ _)

theorem returnOrder_steady (h : Nat) (st : OrderState) (s : State) : Steady s (returnOrder h st s) := by
  unfold returnOrder
  split
  · exact ((leaveVehicle_steady _ s).trans (releaseGrantClaims_steady _ _ _)).trans (moveOrder_steady _ _ _ _ _ _)
  · exact .refl s

theorem closeBatch_steady (tag : Nat) (s : State) : Steady s (closeBatch tag s) := by
  unfold closeBatch
  split
  · split
    · exact (batches_steady (fun hw => tblWf_erase hw _) (fun _ => length_tblErase _ _)).trans (queueNotice_steady _ _)
    · exact .refl s
  · exact .refl s

theorem countDown_steady (tag : Nat) (failed : Bool) (s : State) : Steady s (countDown tag failed s) := by
  unfold countDown
  split
  · rename_i b hb
    exact (batches_steady (fun hw => tblWf_set hw _ _) (fun hw => le_of_eq (length_tblSet hw hb))).trans
      (closeBatch_steady _ _)
  · exact .refl s

theorem countBatch_steady (o : Order) (failed : Bool) (s : State) : Steady s (countBatch o failed s) := by
  unfold countBatch
  split
  · exact countDown_steady _ _ s
  · exact .refl s

theorem endOrder_steady (h : Nat) (st : OrderState) (why : EndReason) (s : State) : Steady s (endOrder h st why s) := by
  unfold endOrder
  split
  · exact (((leaveVehicle_steady _ s).trans (releaseAllClaims_steady _ _ _)).trans (moveOrder_steady _ _ _ _ _ _)).trans
      (countBatch_steady _ _ _)
  · exact .refl s

theorem sendRecall_steady (h : Nat) (s : State) : Steady s (sendRecall h s) := by
  unfold sendRecall
  split
  · split
    · exact issueTo_steady _ _ s
    · exact .refl s
  · exact .refl s

theorem recallStaged_steady (slot : Nat) (s : State) : Steady s (recallStaged slot s) := by
  unfold recallStaged
  split
  · split
    · exact (issueTo_steady _ _ s).trans (returnOrder_steady _ _ _)
    · exact .refl s
  · exact .refl s

theorem requeueAbort_steady (slot h : Nat) (s : State) : Steady s (requeueAbort slot h s) := by
  unfold requeueAbort
  split
  · exact .ite _ (.refl s) ((updOrder_steady _ _ s).trans (issueTo_steady _ _ _))
  · exact .refl s

/-! ## Stalls and repositioning -/

theorem endReposition_steady (slot : Nat) (s : State) : Steady s (endReposition slot s) := by
  unfold endReposition
  split
  · refine .ite _ (.refl s) (.ite _ ?_ ?_)
    · exact .after (setExam_steady _) (updVehicle_steady fun _ _ => .of_eq rfl rfl rfl rfl)
    · exact updVehicle_steady fun _ _ => .of_eq rfl rfl rfl rfl
  · exact .refl s

theorem setFaultStall_steady (slot : Nat) (c : FaultClass) (k : FaultCode) (s : State) :
    Steady s (setFaultStall slot c k s) := by
  unfold setFaultStall
  split
  · have h : Steady s (endReposition slot (updVehicle slot (fun v => { v with
        faultStall := true, lastFault := lastFaultAfter v c k, recovered := false }) s)) :=
      .after (endReposition_steady _ _) (updVehicle_steady fun _ _ => .of_eq rfl rfl rfl rfl)
    split
    · exact h
    · exact h.trans (vehicleNotice_steady _ _ _)
  · exact .refl s

theorem clearFaultStall_steady (slot : Nat) (s : State) : Steady s (clearFaultStall slot s) :=
  .after (setExam_steady _) (.after (vehicleNotice_steady _ _ _)
    (updVehicle_steady fun _ _ => .of_layers rfl (by simp) (by simp) (by simp)))

theorem strayLoad_steady (slot : Nat) (s : State) : Steady s (strayLoad slot s) :=
  (setFaultStall_steady _ _ _ s).trans (raiseVehicle_steady _ _ _ _ _ _)

theorem sendMoveTo_steady (slot c : Nat) (s : State) : Steady s (sendMoveTo slot c s) :=
  .after (updVehicle_steady fun _ _ => .of_eq rfl rfl rfl rfl) (issueTo_steady _ _ s)

/-! ## Entry to bays -/

theorem leaveBay_steady (b slot : Nat) (s : State) : Steady s (leaveBay b slot s) := by
  unfold leaveBay
  split
  · exact .after (setExam_steady _) (updBay_steady fun _ => ⟨rfl, rfl, rfl, rfl⟩)
  · exact .refl s

theorem leaveQueue_steady (b slot : Nat) (s : State) : Steady s (leaveQueue b slot s) :=
  updBay_steady fun _ => ⟨rfl, rfl, rfl, rfl⟩

theorem grantEntry_steady (b slot : Nat) (s : State) : Steady s (grantEntry b slot s) :=
  .after (issueTo_steady _ _ _) (updBay_steady fun _ => ⟨rfl, rfl, rfl, rfl⟩)

theorem grantHead_steady (b : Nat) (s : State) : Steady s (grantHead b s) := by
  unfold grantHead
  split
  · split
    · exact .ite _ (.after (grantEntry_steady _ _ _) (updBay_steady fun _ => ⟨rfl, rfl, rfl, rfl⟩)) (.refl s)
    · exact .refl s
  · exact .refl s

theorem grantHeads_steady (n b : Nat) (s : State) : Steady s (grantHeads n b s) := by
  induction n generalizing s with
  | zero => exact .refl s
  | succ n ih => exact (grantHead_steady b s).trans (ih _)

theorem grantQueue_steady (b : Nat) (s : State) : Steady s (grantQueue b s) := by
  unfold grantQueue
  split
  · exact grantHeads_steady _ _ s
  · exact .refl s

theorem leaveBaysGranting_steady (bs : List Nat) (slot : Nat) (s : State) : Steady s (leaveBaysGranting bs slot s) := by
  induction bs generalizing s with
  | nil => exact .refl s
  | cons b bs ih => exact ((leaveBay_steady b slot s).trans (grantQueue_steady _ _)).trans (ih _)

theorem leaveQueues_steady (bs : List Nat) (slot : Nat) (s : State) : Steady s (leaveQueues bs slot s) := by
  induction bs generalizing s with
  | nil => exact .refl s
  | cons b bs ih => exact (leaveQueue_steady b slot s).trans (ih _)

theorem enterInside_steady (b slot : Nat) (s : State) : Steady s (enterInside b slot s) :=
  updBay_steady fun _ => ⟨rfl, rfl, rfl, rfl⟩

theorem losePlaces_steady (slot : Nat) (s : State) : Steady s (losePlaces slot s) :=
  (leaveQueues_steady _ _ s).trans (leaveBaysGranting_steady _ _ _)

/-! ## Suspension and resumption -/

theorem suspendOrder_steady (h : Nat) (why : SuspendReason) (s : State) : Steady s (suspendOrder h why s) :=
  moveOrder_steady _ _ _ _ _ s

theorem resumeOrder_steady (slot h : Nat) (f : Order → Order) (s : State) : Steady s (resumeOrder slot h f s) := by
  unfold resumeOrder
  split
  · exact ((vacateSource_steady _ _ s).trans (moveOrder_steady _ _ _ _ _ _)).trans (setExam_steady _)
  · exact .refl s

theorem resumeOnReport_steady (slot h : Nat) (load : Load) (s : State) : Steady s (resumeOnReport slot h load s) := by
  unfold resumeOnReport
  split
  · exact (releaseInbound_steady _ _ s).trans (resumeOrder_steady _ _ _ _)
  · exact .refl s

theorem mismatch_steady (slot h : Nat) (s : State) : Steady s (mismatch slot h s) := by
  unfold mismatch
  split
  · exact (updOrder_steady _ _ s).trans (raiseVehicle_steady _ _ _ _ _ _)
  · exact .refl s

theorem carrierInvolved_steady (slot h : Nat) (why : SuspendReason) (s : State) :
    Steady s (carrierInvolved slot h why s) := by
  unfold carrierInvolved
  split
  · split
    · exact .ite _ (.refl s) (suspendOrder_steady _ _ s)
    · exact .refl s
  · exact (endOrder_steady _ _ _ s).trans (updVehicle_steady fun _ _ => .of_eq rfl rfl rfl rfl)

/-! ## Loss of a vehicle -/

theorem loseStaged_steady (slot : Nat) (s : State) : Steady s (loseStaged slot s) := by
  unfold loseStaged
  split
  · split
    · exact returnOrder_steady _ _ s
    · exact .refl s
  · exact .refl s

theorem loseActive_steady (slot : Nat) (s : State) : Steady s (loseActive slot s) := by
  unfold loseActive
  split
  · split
    · split
      · exact returnOrder_steady _ _ s
      · exact endOrder_steady _ _ _ s
      · exact suspendOrder_steady _ _ s
      · exact suspendOrder_steady _ _ s
      · exact suspendOrder_steady _ _ s
      · exact updOrder_steady _ _ s
      all_goals exact .refl s
    · exact .refl s
  · exact .refl s

theorem dropLink_steady (slot : Nat) (why : OfflineReason) (s : State) : Steady s (dropLink slot why s) :=
  .after (vehicleNotice_steady _ _ _) (updVehicle_steady fun _ _ => .of_eq rfl rfl rfl rfl)

theorem loseVehicle_steady (slot : Nat) (s : State) : Steady s (loseVehicle slot s) :=
  (((loseStaged_steady slot s).trans (loseActive_steady _ _)).trans (losePlaces_steady _ _)).trans
    (endReposition_steady _ _)

theorem byeVehicle_steady (slot : Nat) (s : State) : Steady s (byeVehicle slot s) :=
  (dropLink_steady _ _ s).trans (loseVehicle_steady _ _)

end Sys2Proof.Machine
end

