-- ==== Sys2Proof/Laws/Requests.lean ====
section
/-! SUPPORT. What taking a request or a report from its queue makes of the state, once for every row. -/
namespace Sys2Proof.Machine

open Sys2Proof

/-- A well-formed request that waits is answered by its own rule (R173, R174). -/
theorem takeRequest_of_waits {α : Type} {kind tag : Nat} {payload : List Byte} {form : List Byte → Option α}
    {act : α → State → Answered} {s : State} {r : α} (h : requestWaits s kind tag payload)
    (hf : form payload = some r) :
    takeRequest kind form act s =
      placeReply ⟨kind + 0x80, tag, (act r (popHost s)).status, (act r (popHost s)).payload⟩
        (act r (popHost s)).state := by
  obtain ⟨h1, h2, k, t0, t1, rest, hq, hk, ht⟩ := h
  simp [takeRequest, hostHead, mayTake, h1, h2, hq, bodyKind, bodyPayload, bodyTag, hk, ht, hf, answer, generalReply]

/-- A malformed one is answered BAD_FIELD (R173, case 2). -/
theorem takeRequest_malformed {α : Type} {kind tag : Nat} {payload : List Byte} {form : List Byte → Option α}
    {act : α → State → Answered} {s : State} (h : requestWaits s kind tag payload) (hf : form payload = none) :
    takeRequest kind form act s = replied kind tag .badField .none s := by
  obtain ⟨h1, h2, k, t0, t1, rest, hq, hk, ht⟩ := h
  simp [takeRequest, hostHead, mayTake, h1, h2, hq, bodyKind, bodyPayload, bodyTag, hk, ht, hf, answer, refuse,
    placeReply, popHost, replied, generalReply]

/-- No request is taken while the reply slot is full or a RESTART awaits its effect (R174, R175). -/
theorem takeRequest_blocked {α : Type} {kind : Nat} {form : List Byte → Option α} {act : α → State → Answered}
    {s : State} (h : s.liu.replySlot ≠ none ∨ s.liu.restartPending = true) : takeRequest kind form act s = s := by
  rcases h with h | h <;> simp [takeRequest, hostHead, mayTake, h]

/-- What a request does, whatever stands at the head: nothing, BAD_FIELD, or what its own rule makes of it. -/
theorem takeRequest_cases {α : Type} (kind : Nat) (form : List Byte → Option α) (act : α → State → Answered)
    (s : State) :
    takeRequest kind form act s = s ∨
      (∃ tag, takeRequest kind form act s = placeReply ⟨kind + 0x80, tag, .badField, .none⟩ (popHost s)) ∨
      (∃ tag r, takeRequest kind form act s =
        placeReply ⟨kind + 0x80, tag, (act r (popHost s)).status, (act r (popHost s)).payload⟩
          (act r (popHost s)).state) := by
  unfold takeRequest
  split
  · split
    · split
      · exact Or.inr (Or.inr ⟨_, _, rfl⟩)
      · exact Or.inr (Or.inl ⟨_, rfl⟩)
    · exact Or.inl rfl
  · exact Or.inl rfl

/-- A refusal leaves the state the request found, with the head of the queue gone and the reply placed. -/
theorem placeReply_popHost (kind tag : Nat) (st : Status) (p : ReplyPayload) (s : State) :
    placeReply ⟨kind + 0x80, tag, st, p⟩ (popHost s) = replied kind tag st p s := rfl

/-- A report from an ONLINE vehicle acts on the state in which its frame is gone and its silence timer has restarted
(R98, R99). -/
theorem takeReport_of_waits {α : Type} {kind slot : Nat} {payload : List Byte} {form : List Byte → Option α}
    {act : Nat → α → State → State} {s : State} {v : Vehicle} {r : α} (h : reportWaits s kind slot v payload)
    (hf : form payload = some r) :
    takeReport kind form act s = act slot r (reported slot (heardVehicle s v) s) := by
  obtain ⟨⟨k, f0, f1, rest, hq, hk, hs⟩, hv, hl⟩ := h
  simp [takeReport, takeFleet, hq, bodyKind, bodyPayload, bodyTag, hk, hf, fromVehicle, popFleet, hs, hv,
    Vehicle.online, hl, restartSilence, updVehicle, reported, heardVehicle, startTimer, satTime, timeMax]

/-- What a report does, whatever stands at the head: nothing, its frame is dropped, or what its rule makes of it. -/
theorem takeReport_cases {α : Type} (kind : Nat) (form : List Byte → Option α) (act : Nat → α → State → State)
    (s : State) :
    takeReport kind form act s = s ∨ takeReport kind form act s = popFleet s ∨
      (∃ slot r, takeReport kind form act s = act slot r (restartSilence slot (popFleet s))) := by
  unfold takeReport takeFleet
  split
  · split
    · split
      · unfold fromVehicle
        split
        · split
          · split
            · exact Or.inr (Or.inr ⟨_, _, rfl⟩)
            · exact Or.inr (Or.inl rfl)
          · exact Or.inr (Or.inl rfl)
        · exact Or.inr (Or.inl rfl)
      · exact Or.inl rfl
    · exact Or.inl rfl
  · exact Or.inl rfl

end Sys2Proof.Machine
end

