-- ==== Sys2Proof/Laws/Orders.lean ====
section
/-! SUPPORT. What moving an order, returning it and ending it make of the state, said once for each operation. -/
namespace Sys2Proof.Machine

open Sys2Proof

/-! ## What an operation leaves alone -/

/-- An operation that changes vehicles and the examination-pending flag only. -/
structure OnlyVehicles (s t : State) : Prop where
  eq : t = { s with vht := { s.vht with vehicles := t.vht.vehicles }, asa := { s.asa with examPending := t.asa.examPending } }
  exam : s.asa.examPending = true → t.asa.examPending = true

/-- An operation that changes shelves and the examination-pending flag only. -/
structure OnlyShelves (s t : State) : Prop where
  eq : t = { s with shm := { s.shm with shelves := t.shm.shelves }, asa := { s.asa with examPending := t.asa.examPending } }
  exam : s.asa.examPending = true → t.asa.examPending = true

theorem OnlyVehicles.refl (s : State) : OnlyVehicles s s := ⟨rfl, id⟩
theorem OnlyShelves.refl (s : State) : OnlyShelves s s := ⟨rfl, id⟩

theorem OnlyShelves.trans {s t u : State} (h : OnlyShelves s t) (k : OnlyShelves t u) : OnlyShelves s u := by
  refine ⟨?_, fun a => k.exam (h.exam a)⟩
  rw [k.eq, h.eq]

theorem updVehicle_only (slot : Nat) (f : Vehicle → Vehicle) (s : State) : OnlyVehicles s (updVehicle slot f s) := by
  unfold updVehicle
  split
  · exact ⟨rfl, id⟩
  · exact OnlyVehicles.refl s

theorem setExam_only {s t : State} (h : OnlyVehicles s t) : OnlyVehicles s (setExam t) :=
  ⟨by rw [h.eq]; rfl, fun _ => rfl⟩

theorem updVehicle_get (slot : Nat) (f : Vehicle → Vehicle) (s : State) (k : Nat) :
    tblGet (updVehicle slot f s).vht.vehicles k =
      if k = slot then (tblGet s.vht.vehicles k).map f else tblGet s.vht.vehicles k := by
  unfold updVehicle
  split
  · rename_i v hv
    by_cases hk : k = slot
    · subst hk; simp [hv]
    · simp [hk, tblGet_set_other]
  · rename_i hv
    by_cases hk : k = slot
    · subst hk; simp [hv]
    · simp [hk]

theorem emptyLayer_only (slot : Nat) (i : LayerId) (s : State) : OnlyVehicles s (emptyLayer slot i s) := by
  unfold emptyLayer
  split
  · split <;> try split
    all_goals first
      | exact OnlyVehicles.refl s
      | exact updVehicle_only _ _ _
      | exact setExam_only (updVehicle_only _ _ _)
  · exact OnlyVehicles.refl s

theorem emptyLayer_get (slot : Nat) (i : LayerId) (s : State) (k : Nat) :
    tblGet (emptyLayer slot i s).vht.vehicles k =
      (tblGet s.vht.vehicles k).map (fun v => if k = slot then leftVehicle s.now s.vht.tTake i v else v) := by
  by_cases hk : k = slot
  · subst hk
    cases hv : tblGet s.vht.vehicles k with
    | none => simp [emptyLayer, hv]
    | some v =>
      unfold emptyLayer leftVehicle
      simp only [hv, if_true, Option.map_some]
      split <;> try split
      all_goals try simp_all [updVehicle_get, Vehicle.rest, startTimer, satTime, timeMax]
  · cases hv : tblGet s.vht.vehicles slot with
    | none => simp [emptyLayer, hv, hk]
    | some v =>
      unfold emptyLayer
      simp only [hv, hk, if_false, Option.map_id']
      split <;> try split
      all_goals simp [updVehicle_get, hk]

theorem leaveVehicle_only (loc : Option (Nat × LayerId)) (s : State) : OnlyVehicles s (leaveVehicle loc s) := by
  unfold leaveVehicle
  split
  · exact emptyLayer_only _ _ _
  · exact OnlyVehicles.refl s

/-- The layer an order's record names is emptied, and no other vehicle is touched (R51). -/
theorem leaveVehicle_left (loc : Option (Nat × LayerId)) (s : State) : layerLeft loc s (leaveVehicle loc s) := by
  intro k
  unfold leaveVehicle
  split
  · simp [emptyLayer_get]
  · simp

theorem setShelf_only (k : Nat) (sh : Shelf) (s : State) : OnlyShelves s (setShelf k sh s) := by
  unfold setShelf setExamIf
  split
  · exact ⟨rfl, fun _ => rfl⟩
  · exact ⟨rfl, id⟩

theorem setShelf_at (k : Nat) (sh : Shelf) (s : State) (j : Nat) :
    shelfAt (setShelf k sh s).shm j = if j = k then sh else shelfAt s.shm j := by
  have : (setShelf k sh s).shm.shelves =
      if sh = freeShelf then tblErase s.shm.shelves k else tblSet s.shm.shelves k sh := by
    unfold setShelf setExamIf; split <;> rfl
  unfold shelfAt
  rw [this]
  by_cases hj : j = k
  · subst hj
    by_cases hs : sh = freeShelf <;> simp [hs]
  · by_cases hs : sh = freeShelf <;> simp [hs, hj, tblGet_erase_other, tblGet_set_other]

theorem releaseInbound_only (h : Nat) (e : Option Endpoint) (s : State) : OnlyShelves s (releaseInbound h e s) := by
  unfold releaseInbound
  split
  · split
    · exact setShelf_only _ _ _
    · exact OnlyShelves.refl s
  · exact OnlyShelves.refl s

theorem releaseOutbound_only (h : Nat) (e : Option Endpoint) (s : State) : OnlyShelves s (releaseOutbound h e s) := by
  unfold releaseOutbound
  split
  · split
    · exact setShelf_only _ _ _
    · exact OnlyShelves.refl s
  · exact OnlyShelves.refl s

theorem vacateSource_only (h : Nat) (e : Option Endpoint) (s : State) : OnlyShelves s (vacateSource h e s) := by
  unfold vacateSource
  split
  · split
    · exact setShelf_only _ _ _
    · exact OnlyShelves.refl s
  · exact OnlyShelves.refl s

/-- An INBOUND claim released (R141). -/
theorem releaseInbound_at (h : Nat) (e : Option Endpoint) (s : State) (k : Nat) :
    shelfAt (releaseInbound h e s).shm k =
      if (shelfAt s.shm k).state = .inbound ∧ (shelfAt s.shm k).claim = some h ∧ e = some (.shelf k) then freeShelf
      else shelfAt s.shm k := by
  unfold releaseInbound
  split
  · rename_i j
    by_cases hk : k = j
    · subst hk
      by_cases hc : (shelfAt s.shm k).state = .inbound ∧ (shelfAt s.shm k).claim = some h
      · simp [hc, setShelf_at]
      · rw [if_neg hc, if_neg (fun x => hc ⟨x.1, x.2.1⟩)]
    · have hk' : ¬j = k := fun x => hk x.symm
      split <;> simp [setShelf_at, hk, hk']
  · rename_i hne
    have : ¬e = some (.shelf k) := fun x => hne k x
    simp [this]

/-- An OUTBOUND claim released (R141). -/
theorem releaseOutbound_at (h : Nat) (e : Option Endpoint) (s : State) (k : Nat) :
    shelfAt (releaseOutbound h e s).shm k =
      if (shelfAt s.shm k).state = .outbound ∧ (shelfAt s.shm k).claim = some h ∧ e = some (.shelf k) then
        { shelfAt s.shm k with state := .held, claim := none }
      else shelfAt s.shm k := by
  unfold releaseOutbound
  split
  · rename_i j
    by_cases hk : k = j
    · subst hk
      by_cases hc : (shelfAt s.shm k).state = .outbound ∧ (shelfAt s.shm k).claim = some h
      · simp [hc, setShelf_at]
      · rw [if_neg hc, if_neg (fun x => hc ⟨x.1, x.2.1⟩)]
    · have hk' : ¬j = k := fun x => hk x.symm
      split <;> simp [setShelf_at, hk, hk']
  · rename_i hne
    have : ¬e = some (.shelf k) := fun x => hne k x
    simp [this]

/-- A source shelf still claimed becomes FREE (R162, R164). -/
theorem vacateSource_at (h : Nat) (e : Option Endpoint) (s : State) (k : Nat) :
    shelfAt (vacateSource h e s).shm k =
      if (shelfAt s.shm k).state = .outbound ∧ (shelfAt s.shm k).claim = some h ∧ e = some (.shelf k) then freeShelf
      else shelfAt s.shm k := by
  unfold vacateSource
  split
  · rename_i j
    by_cases hk : k = j
    · subst hk
      by_cases hc : (shelfAt s.shm k).state = .outbound ∧ (shelfAt s.shm k).claim = some h
      · simp [hc, setShelf_at]
      · rw [if_neg hc, if_neg (fun x => hc ⟨x.1, x.2.1⟩)]
    · have hk' : ¬j = k := fun x => hk x.symm
      split <;> simp [setShelf_at, hk, hk']
  · rename_i hne
    have : ¬e = some (.shelf k) := fun x => hne k x
    simp [this]

theorem releaseGrantClaims_only (h : Nat) (o : Order) (s : State) : OnlyShelves s (releaseGrantClaims h o s) := by
  unfold releaseGrantClaims
  refine OnlyShelves.trans ?_ (releaseInbound_only _ _ _)
  have h1 : OnlyShelves s (if o.kind.shelvesAtGrant then releaseInbound h o.dest s else s) := by
    split
    · exact releaseInbound_only _ _ _
    · exact OnlyShelves.refl s
  refine OnlyShelves.trans h1 ?_
  by_cases hk : o.kind = .supplyEmpty
  · rw [if_pos hk]; exact releaseOutbound_only _ _ _
  · rw [if_neg hk]; exact OnlyShelves.refl _

/-- The grant-time claims of an order released, shelf by shelf (R50). -/
theorem releaseGrantClaims_at (h : Nat) (o : Order) (s : State) (k : Nat) :
    shelfAt (releaseGrantClaims h o s).shm k = returnedShelf h o k (shelfAt s.shm k) := by
  unfold releaseGrantClaims returnedShelf
  rw [releaseInbound_at]
  cases hk : o.kind <;>
    simp only [OrderKind.shelvesAtGrant, reduceCtorEq, if_true, if_false, releaseInbound_at, releaseOutbound_at, id,
      Bool.false_eq_true, or_false, or_true, and_true, and_false] <;>
    (by_cases h1 : (shelfAt s.shm k).state = .inbound <;> by_cases h2 : (shelfAt s.shm k).claim = some h <;>
      by_cases h3 : o.dest = some (.shelf k) <;> by_cases h4 : o.prior = some (.shelf k) <;>
      by_cases h5 : o.source = some (.shelf k) <;> by_cases h6 : (shelfAt s.shm k).state = .outbound <;>
      simp_all [freeShelf])

theorem releaseAllClaims_only (h : Nat) (o : Order) (s : State) : OnlyShelves s (releaseAllClaims h o s) :=
  ((releaseOutbound_only _ _ _).trans (releaseInbound_only _ _ _)).trans (releaseInbound_only _ _ _)

/-- Every claim of an order released, shelf by shelf (R52). -/
theorem releaseAllClaims_at (h : Nat) (o : Order) (s : State) (k : Nat) :
    shelfAt (releaseAllClaims h o s).shm k = endedShelf h o k (shelfAt s.shm k) := by
  unfold releaseAllClaims endedShelf
  simp only [releaseInbound_at, releaseOutbound_at]
  by_cases h1 : (shelfAt s.shm k).state = .inbound <;> by_cases h2 : (shelfAt s.shm k).claim = some h <;>
    by_cases h3 : o.dest = some (.shelf k) <;> by_cases h4 : o.prior = some (.shelf k) <;>
    by_cases h5 : o.source = some (.shelf k) <;> by_cases h6 : (shelfAt s.shm k).state = .outbound <;>
    simp_all [freeShelf]

/-! ## Moving an order (R49) -/

theorem queueNotice_eq (n : Notice) (s : State) :
    queueNotice n s =
      { s with liu := { s.liu with notices := (queueNotice n s).liu.notices, gapMark := (queueNotice n s).liu.gapMark } } := by
  unfold queueNotice; split <;> rfl

theorem queueNotice_liu_congr (n : Notice) {s t : State} (h : s.liu = t.liu) :
    (queueNotice n s).liu = (queueNotice n t).liu := by
  unfold queueNotice; rw [h]; split <;> rfl

/-- Order `h` moved, with its record `o` known: its new record, its notice, and nothing else. -/
theorem moveOrder_eq {h : Nat} {o : Order} {s : State} (ho : tblGet s.ort.orders h = some o) (f : Order → Order)
    (st : OrderState) (why : OrderReason) (left : Option Nat) :
    moveOrder h f st why left s =
      setExamIf (decide (st = .queued))
        (queueNotice
          (.orderState h (enterState s.now st (f (leaveState s.now o))).hostTag o.state
            (enterState s.now st (f (leaveState s.now o))).state s.now why
            (match (enterState s.now st (f (leaveState s.now o))).loc with
              | some (slot, _) => fleetIdAt s.vht slot
              | none => left))
          (putOrder h (enterState s.now st (f (leaveState s.now o))) s)) := by
  simp only [moveOrder, ho, orderNotice]
  rfl

@[simp] theorem enterState_state (now : Nat) (st : OrderState) (o : Order) : (enterState now st o).state = st := by
  unfold enterState; split <;> rfl

theorem carrierId_eq (s : State) (o : Order) : carrierId s o.loc = vehicleOf s o := by
  unfold carrierId vehicleOf fleetIdAt; split <;> simp_all

theorem setExamIf_liu (b : Bool) (s : State) : (setExamIf b s).liu = s.liu := by unfold setExamIf; split <;> rfl
theorem setExamIf_ort (b : Bool) (s : State) : (setExamIf b s).ort = s.ort := by unfold setExamIf; split <;> rfl
theorem setExamIf_vht (b : Bool) (s : State) : (setExamIf b s).vht = s.vht := by unfold setExamIf; split <;> rfl
theorem setExamIf_bac (b : Bool) (s : State) : (setExamIf b s).bac = s.bac := by unfold setExamIf; split <;> rfl
theorem setExamIf_shm (b : Bool) (s : State) : (setExamIf b s).shm = s.shm := by unfold setExamIf; split <;> rfl
theorem setExamIf_fcr (b : Bool) (s : State) : (setExamIf b s).fcr = s.fcr := by unfold setExamIf; split <;> rfl
theorem setExamIf_examPending (b : Bool) (s : State) :
    (setExamIf b s).asa.examPending = (s.asa.examPending || b) := by unfold setExamIf; split <;> simp_all

/-- Order `h` moved, where its vehicle stays its own or was the one its notice names: `OrderStepped`. -/
theorem moveOrder_stepped {h : Nat} {o : Order} {s : State} (ho : tblGet s.ort.orders h = some o) (f : Order → Order)
    (st : OrderState) (why : OrderReason) (left : Option Nat)
    (hn : (enterState s.now st (f (leaveState s.now o))).hostTag = o.hostTag)
    (hl : (match (enterState s.now st (f (leaveState s.now o))).loc with
      | some (slot, _) => fleetIdAt s.vht slot
      | none => left) = vehicleOf s o) :
    OrderStepped h o (enterState s.now st (f (leaveState s.now o))) why s (moveOrder h f st why left s) := by
  have e := moveOrder_eq ho f st why left
  rw [hl, hn] at e
  refine ⟨(moveOrder_steady h f st why left s).framed, ?_, ?_, ?_, ?_, ?_⟩
  · rw [e, setExamIf_ort, queueNotice_eq]; simp [putOrder]
  · intro k hk; rw [e, setExamIf_ort, queueNotice_eq]; simp [putOrder, tblGet_set_other _ _ hk]
  · rw [e, setExamIf_liu]; exact queueNotice_liu_congr _ rfl
  · rw [e, setExamIf_ort, setExamIf_vht, setExamIf_bac, setExamIf_shm, setExamIf_fcr, queueNotice_eq]
    exact ⟨rfl, rfl, rfl, rfl, rfl⟩
  · rw [e, setExamIf_examPending, queueNotice_eq]; simp [putOrder]

/-! ## Return to the queue (R50) and the end of an order (R52) -/

theorem leaveRelease_facts {s t u : State} (h : OnlyVehicles s t) (k : OnlyShelves t u) :
    u.ort = s.ort ∧ u.liu = s.liu ∧ u.now = s.now ∧ u.vht = t.vht ∧ u.bac = s.bac ∧ u.fcr = s.fcr ∧
      (s.asa.examPending = true → u.asa.examPending = true) := by
  refine ⟨?_, ?_, ?_, ?_, ?_, ?_, fun a => k.exam (h.exam a)⟩ <;> first | (rw [k.eq]; done) | (rw [k.eq, h.eq])

theorem layerLeft_id {loc : Option (Nat × LayerId)} {s t u : State} (h : layerLeft loc s t) (e : u.vht = t.vht) :
    layerLeft loc s u := by intro k; rw [e]; exact h k

/-- Order `h` returned from its vehicle (R50). -/
theorem returnOrder_returned {h : Nat} {o : Order} {s : State} (ho : tblGet s.ort.orders h = some o)
    (hq : o.state ≠ .queued) (st : OrderState) : OrderReturned h o st s (returnOrder h st s) := by
  obtain ⟨e1, e2, e3, e4, e5, e6, e7⟩ :=
    leaveRelease_facts (leaveVehicle_only o.loc s) (releaseGrantClaims_only h o (leaveVehicle o.loc s))
  have hshm : ∀ k, shelfAt (releaseGrantClaims h o (leaveVehicle o.loc s)).shm k =
      returnedShelf h o k (shelfAt s.shm k) := by
    intro k; rw [releaseGrantClaims_at, (leaveVehicle_only o.loc s).eq]
  have hr : returnOrder h st s =
      moveOrder h offVehicle st .none (carrierId s o.loc) (releaseGrantClaims h o (leaveVehicle o.loc s)) := by
    simp only [returnOrder, ho]
  generalize hu : releaseGrantClaims h o (leaveVehicle o.loc s) = u at *
  have e := moveOrder_eq (s := u) (h := h) (o := o) (by rw [e1]; exact ho) offVehicle st .none (carrierId s o.loc)
  have hrec : enterState u.now st (offVehicle (leaveState u.now o)) = returnedOrder s.now st o := by
    simp only [leaveState, hq, if_false, e3, enterState, offVehicle, returnedOrder, sourceAfterReturn,
      destAfterReturn]
    by_cases hs : st = .queued <;> simp only [hs, if_true, if_false] <;>
      (cases hk : o.kind <;> cases hd : o.dest <;> cases hsrc : o.source <;>
        simp_all [OrderKind.shelvesAtGrant] <;> (try (rename_i a b; cases a <;> cases b <;> simp_all)) <;>
        (try (rename_i a; cases a <;> simp_all)))
  refine ⟨(returnOrder_steady h st s).framed, ?_, ?_, ?_, ?_, ?_, ?_, ?_⟩ <;> rw [hr, e, hrec]
  · rw [setExamIf_ort, queueNotice_eq]; simp [putOrder]
  · intro k hk; rw [setExamIf_ort, queueNotice_eq]; simp [putOrder, tblGet_set_other _ _ hk, e1]
  · refine layerLeft_id (leaveVehicle_left o.loc s) ?_
    rw [setExamIf_vht, queueNotice_eq]; exact e4
  · intro k; rw [setExamIf_shm, queueNotice_eq]; exact hshm k
  · rw [setExamIf_liu, e3, carrierId_eq]
    refine Eq.trans (queueNotice_liu_congr _ (t := s) (by simp [putOrder, e2])) ?_
    rfl
  · rw [setExamIf_ort, setExamIf_bac, setExamIf_fcr, queueNotice_eq]
    exact ⟨by simp [putOrder, e1], e5, e6⟩
  · rw [setExamIf_examPending, queueNotice_eq]
    rintro (a | a)
    · simp [putOrder, e7 a]
    · simp [a]

theorem closeBatch_facts (tag : Nat) (s : State) :
    (closeBatch tag s).ort.orders = s.ort.orders ∧ (closeBatch tag s).vht = s.vht ∧ (closeBatch tag s).bac = s.bac ∧
      (closeBatch tag s).shm = s.shm ∧ (closeBatch tag s).fcr = s.fcr ∧ (closeBatch tag s).asa = s.asa := by
  unfold closeBatch
  split
  · split
    · rw [queueNotice_eq]; exact ⟨rfl, rfl, rfl, rfl, rfl, rfl⟩
    · exact ⟨rfl, rfl, rfl, rfl, rfl, rfl⟩
  · exact ⟨rfl, rfl, rfl, rfl, rfl, rfl⟩

theorem countBatch_facts (o : Order) (failed : Bool) (s : State) :
    (countBatch o failed s).ort.orders = s.ort.orders ∧ (countBatch o failed s).vht = s.vht ∧
      (countBatch o failed s).bac = s.bac ∧ (countBatch o failed s).shm = s.shm ∧
      (countBatch o failed s).fcr = s.fcr ∧ (countBatch o failed s).asa = s.asa := by
  unfold countBatch countDown
  split
  · split
    · exact closeBatch_facts _ _
    · exact ⟨rfl, rfl, rfl, rfl, rfl, rfl⟩
  · exact ⟨rfl, rfl, rfl, rfl, rfl, rfl⟩

theorem countBatch_batches (o : Order) (st : OrderState) (s : State) (k : Nat) :
    tblGet (countBatch o (decide (st = .failed)) s).ort.batches k =
      if o.batchTag = some k then
        match tblGet s.ort.batches k with
        | some b => if b.openCount ≤ 1 then none else some (batchCounted st b)
        | none => none
      else tblGet s.ort.batches k := by
  unfold countBatch
  cases ht : o.batchTag with
  | none => simp
  | some tag =>
    simp only [countDown]
    by_cases hk : tag = k
    · subst hk
      cases hb : tblGet s.ort.batches tag with
      | none => simp [hb]
      | some b =>
        simp only [closeBatch, tblGet_set_self]
        by_cases ho : b.openCount ≤ 1
        · have : b.openCount - 1 = 0 := by omega
          simp only [this, if_true]
          rw [queueNotice_eq]; simp [ho]
        · have : b.openCount - 1 ≠ 0 := by omega
          simp [this, ho, batchCounted]
    · cases hb : tblGet s.ort.batches tag with
      | none => simp [hk]
      | some b =>
        simp only [closeBatch, tblGet_set_self]
        have hk' : k ≠ tag := fun x => hk x.symm
        split
        · rw [queueNotice_eq]; simp [hk, tblGet_erase_other _ hk', tblGet_set_other _ _ hk']
        · simp [hk, tblGet_set_other _ _ hk']

theorem countBatch_liu (h : Nat) (o : Order) (st : OrderState) (why : EndReason) {s u : State}
    (hb : u.ort.batches = s.ort.batches)
    (hl : u.liu = (queueNotice (.orderState h o.hostTag o.state st s.now (.ended why) (vehicleOf s o)) s).liu) :
    (countBatch o (decide (st = .failed)) u).liu = (endNotices h o st why s).liu := by
  unfold countBatch endNotices batchClosed
  cases ht : o.batchTag with
  | none => simpa using hl
  | some tag =>
    simp only [countDown, hb]
    cases hbt : tblGet s.ort.batches tag with
    | none => simpa using hl
    | some b =>
      simp only [closeBatch, tblGet_set_self]
      by_cases ho : b.openCount ≤ 1
      · have : b.openCount - 1 = 0 := by omega
        simp only [this, if_true, ho]
        refine Eq.trans (queueNotice_liu_congr _ (t := queueNotice (.orderState h o.hostTag o.state st s.now (.ended why) (vehicleOf s o)) s) (by simpa using hl)) ?_
        by_cases hst : st = .failed <;> simp [batchCounted, hst]
      · have : b.openCount - 1 ≠ 0 := by omega
        simp only [this, if_false, ho]
        exact hl

/-- Order `h` ended (R52, R67). -/
theorem endOrder_ended {h : Nat} {o : Order} {s : State} (ho : tblGet s.ort.orders h = some o) {st : OrderState}
    (hst : st ≠ .queued) (why : EndReason) : OrderEnded h o st why s (endOrder h st why s) := by
  obtain ⟨e1, e2, e3, e4, e5, e6, e7⟩ :=
    leaveRelease_facts (leaveVehicle_only o.loc s) (releaseAllClaims_only h o (leaveVehicle o.loc s))
  have hshm : ∀ k, shelfAt (releaseAllClaims h o (leaveVehicle o.loc s)).shm k =
      endedShelf h o k (shelfAt s.shm k) := by
    intro k; rw [releaseAllClaims_at, (leaveVehicle_only o.loc s).eq]
  have hr : endOrder h st why s =
      countBatch o (decide (st = .failed))
        (moveOrder h (ended s.now why) st (.ended why) (carrierId s o.loc)
          (releaseAllClaims h o (leaveVehicle o.loc s))) := by
    simp only [endOrder, ho]
  generalize hu : releaseAllClaims h o (leaveVehicle o.loc s) = u at *
  have e := moveOrder_eq (s := u) (h := h) (o := o) (by rw [e1]; exact ho) (ended s.now why) st (.ended why)
    (carrierId s o.loc)
  have hrec : enterState u.now st (ended s.now why (leaveState u.now o)) =
      { o with
        state := st, storedAge := ageAt o s.now, waitReason := if o.state = .queued then none else o.waitReason
        endedAt := some s.now, endReason := some why, loc := none, prior := none, abortPending := false
        suspendReason := none, orphan := none } := by
    unfold leaveState
    by_cases hq : o.state = .queued <;> simp [enterState, hst, ended, e3, hq, ageAt]
  rw [hrec] at e
  obtain ⟨c1, c2, c3, c4, c5, c6⟩ := countBatch_facts o (decide (st = .failed))
    (moveOrder h (ended s.now why) st (.ended why) (carrierId s o.loc) u)
  have hb : (moveOrder h (ended s.now why) st (.ended why) (carrierId s o.loc) u).ort.batches = s.ort.batches := by
    rw [e, setExamIf_ort, queueNotice_eq]; simp [putOrder, e1]
  refine ⟨(endOrder_steady h st why s).framed, ?_, ?_, ?_, ?_, ?_, ?_, ?_, ?_⟩ <;> rw [hr]
  · rw [c1, e, setExamIf_ort, queueNotice_eq]; simp [putOrder]
  · intro k hk; rw [c1, e, setExamIf_ort, queueNotice_eq]; simp [putOrder, tblGet_set_other _ _ hk, e1]
  · refine layerLeft_id (leaveVehicle_left o.loc s) ?_
    rw [c2, e, setExamIf_vht, queueNotice_eq]; exact e4
  · intro k; rw [c4, e, setExamIf_shm, queueNotice_eq]; exact hshm k
  · intro k
    have hc := countBatch_batches o st (moveOrder h (ended s.now why) st (.ended why) (carrierId s o.loc) u) k
    rw [hb] at hc
    exact hc
  · refine countBatch_liu h o st why hb ?_
    rw [e, setExamIf_liu, e3, carrierId_eq]
    exact queueNotice_liu_congr _ (by simp [putOrder, e2])
  · refine ⟨?_, ?_⟩
    · rw [c3, e, setExamIf_bac, queueNotice_eq]; exact e5
    · rw [c5, e, setExamIf_fcr, queueNotice_eq]; exact e6
  · intro a
    rw [c6, e, setExamIf_examPending, queueNotice_eq]; simp [putOrder, e7 a]

/-! ## Under a reply (R175): the reply's slot is written last, and nothing else reads it -/

theorem queueNotice_placeReply (n : Notice) (r : Reply) (s : State) :
    placeReply r (queueNotice n s) = queueNotice n (placeReply r s) := by
  by_cases h : s.liu.notices.length < 64 <;> simp [queueNotice, placeReply, h]

theorem issue_placeReply (f : Nat) (b : CommandBody) (r : Reply) (s : State) :
    placeReply r (issue f b s) = issue f b (placeReply r s) := by
  by_cases h : s.gwrdy = true <;> by_cases k : s.liu.fleetOut.length < 32 <;> simp [issue, placeReply, h, k]

theorem putOrder_placeReply (h : Nat) (o : Order) (r : Reply) (s : State) :
    placeReply r (putOrder h o s) = putOrder h o (placeReply r s) := rfl

theorem setExamIf_placeReply (b : Bool) (r : Reply) (s : State) :
    placeReply r (setExamIf b s) = setExamIf b (placeReply r s) := by
  cases b <;> rfl

theorem vehicleOf_placeReply (o : Order) (r : Reply) (s : State) : vehicleOf (placeReply r s) o = vehicleOf s o := rfl

theorem endNotices_placeReply (h : Nat) (o : Order) (st : OrderState) (why : EndReason) (r : Reply) (s : State) :
    placeReply r (endNotices h o st why s) = endNotices h o st why (placeReply r s) := by
  have e : batchClosed (placeReply r s) o = batchClosed s o := rfl
  unfold endNotices
  rw [e, vehicleOf_placeReply, placeReply_now]
  cases batchClosed s o with
  | none => simp [queueNotice_placeReply]
  | some p => obtain ⟨k, b⟩ := p; simp [queueNotice_placeReply]

theorem Framed.placeReply {s t : State} (h : Framed s t) (r : Reply) : Framed (placeReply r s) (placeReply r t) where
  now := h.now
  gwrdy := h.gwrdy
  lyt := h.lyt
  iss := h.iss
  pending := h.pending
  choices := h.choices
  lines := by
    have e := h.lines
    simp only [Machine.placeReply]
    rw [e]
  ort := h.ort
  asa := h.asa
  vht := h.vht
  bac := h.bac
  reserves := h.reserves
  routes := h.routes
  tOrphan := h.tOrphan

theorem placeReply_liu_congr (r : Reply) {s t : State} (h : s.liu = t.liu) : (placeReply r s).liu = (placeReply r t).liu := by
  simp only [placeReply]; rw [h]

theorem OrderStepped.placeReply {h : Nat} {o p : Order} {why : OrderReason} {s t : State}
    (e : OrderStepped h o p why s t) (r : Reply) : OrderStepped h o p why (placeReply r s) (placeReply r t) where
  framed := e.framed.placeReply r
  record := e.record
  others := e.others
  lines := by rw [placeReply_liu_congr r e.lines, queueNotice_placeReply]; rfl
  kept := e.kept
  exam := e.exam

theorem OrderReturned.placeReply {h : Nat} {o : Order} {st : OrderState} {s t : State} (e : OrderReturned h o st s t)
    (r : Reply) : OrderReturned h o st (placeReply r s) (placeReply r t) where
  framed := e.framed.placeReply r
  record := e.record
  others := e.others
  vehicles := e.vehicles
  shelves := e.shelves
  lines := by rw [placeReply_liu_congr r e.lines, queueNotice_placeReply]; rfl
  kept := e.kept
  exam := e.exam

theorem OrderEnded.placeReply {h : Nat} {o : Order} {st : OrderState} {why : EndReason} {s t : State}
    (e : OrderEnded h o st why s t) (r : Reply) : OrderEnded h o st why (placeReply r s) (placeReply r t) where
  framed := e.framed.placeReply r
  record := e.record
  others := e.others
  vehicles := e.vehicles
  shelves := e.shelves
  batches := e.batches
  lines := by rw [placeReply_liu_congr r e.lines, endNotices_placeReply]
  kept := e.kept
  exam := e.exam

/-- A well-formed request that names an order and waits in RUNNING is answered by its rule on that order (R48). -/
theorem asksOrder_namedOrder {s : State} {kind tag h : Nat} {o : Order} {extra : List Byte}
    (a : asksOrder s kind tag h o extra) :
    ∃ b t0 t1 t2 t3 : Byte, requestWaits s kind tag (b :: t0 :: t1 :: t2 :: t3 :: extra) ∧
      s.lyt.opState = .running ∧ u8 b = h ∧ namedOrder s.ort ⟨u8 b, u32 t0 t1 t2 t3⟩ = some o := by
  obtain ⟨b, t0, t1, t2, t3, hr, hb, ho, ht⟩ := a
  exact ⟨b, t0, t1, t2, t3, hr.2, hr.1, hb, by simp [namedOrder, hb, ho, ht]⟩

end Sys2Proof.Machine
end

