-- ==== Sys2Proof/WellFormed.lean ====
section
/-! DEFINITION. Which commands are well formed: each operand names an entry its table has (00 section 4.4). -/
namespace Sys2Proof

/-- Each number a command carries lies in the range of section 4.4: a vehicle slot is 0 to 63, a bay 0 to 31, an order
handle 0 to 255, a batch tag a 16-bit number. -/
def Instr.wellFormed : Instr → Bool
  | .batchDone tag => decide (tag < 65536)
  | .takeTimerExpiry slot => decide (slot < 64)
  | .noTakeLimit slot => decide (slot < 64)
  | .silenceTimerExpiry slot => decide (slot < 64)
  | .parkStep slot => decide (slot < 64)
  | .dormantStep slot => decide (slot < 64)
  | .lapseTimerExpiry bay slot => decide (bay < 32) && decide (slot < 64)
  | .yieldTimerExpiry bay => decide (bay < 32)
  | .starvationTimerExpiry bay slot => decide (bay < 32) && decide (slot < 64)
  | .orphanTimerExpiry handle => decide (handle < 256)
  | .powerOnReset => true | .gwrdyFall => true | .gwrdyRise => true | .hostFrameReceived _ => true
  | .busyMarkReply => true | .badKind => true | .replyTransmit => true | .noticeTransmit => true
  | .layoutOpen => true | .loopDef => true | .bayDef => true | .portDef => true | .layoutClose => true
  | .layoutLock => true | .portState => true | .bayTune => true | .reserveSet => true | .classWeights => true
  | .timingSet => true | .incidentRoute => true | .intakeGate => true | .orderPlace => true | .orderHold => true
  | .orderRelease => true | .orderCancel => true | .orderRetarget => true | .orderResource => true
  | .orderQuery => true | .orderClear => true | .demandAck => true | .demandDrop => true | .batchQuery => true
  | .vehicleStall => true | .vehicleUnstall => true | .vehicleClearfault => true | .vehicleAutorelease => true
  | .vehicleGroups => true | .vehicleQuery => true | .vehicleRetire => true | .shelfSet => true
  | .shelfQuery => true | .surveySetup => true | .surveyStart => true | .surveyStop => true | .status => true
  | .restart => true | .restartEffect => true | .captureRead => true | .captureClear => true
  | .fleetFrameReceived _ => true | .fleetFrameDrop => true | .fleetCommandTransmit => true | .hello => true
  | .pos => true | .taken => true | .pickBegin => true | .pickEnd => true | .placeBegin => true
  | .placeEnd => true | .triggerBFire => true | .aborted => true | .abortLate => true | .fault => true
  | .ready => true | .entryAsk => true | .exit => true | .arrived => true | .bye => true | .grantStep => true
  | .rescanTimerExpiry => true | .surveyTimerExpiry => true | .surveyBayStep => true

end Sys2Proof
end

