-- ==== Sys2Proof/Tests/Slice0.lean ====
section
/-! SUPPORT. Tests: the well-formedness smoke, values the spec works out by hand, one small step for many commands, and
for every statement with hypotheses a state and operands that meet them. -/
namespace Sys2Proof.Tests

open Sys2Proof Sys2Proof.Machine

/-! ## Small states -/

/-- The two-bay layout of chapter 1's worked load, in RUNNING. -/
def twoBays : Layout :=
  { opState := .running, bayCount := 2, portCount := 3, expected := none, loop := some ⟨4800, 40⟩
    bays := [(0, ⟨1100, 20, 1040, 600, 760, 300, 10, 0, 100, 60, 45⟩),
      (1, ⟨900, 20, 860, 2400, 2560, 200, 12, 10, 50, 50, 45⟩)]
    ports := [(0, ⟨0, 400, 120, .tool, true⟩), (1, ⟨1, 350, 120, .tool, true⟩), (2, ⟨1, 120, 120, .stocker, true⟩)]
    lock := false }

/-- The engine in RUNNING on that layout at engine time 5000, with nothing in its tables. -/
def run : State :=
  { State.reset with
    now := 5000, lyt := twoBays
    bac := { State.reset.bac with bays := [(0, freshBay), (1, freshBay)] } }

/-- A NORMAL MOVE from port 1 to port 0, with host tag 77, in QUEUED since 4000. -/
def order : Order :=
  { seq := 1, hostTag := 77, kind := .move, trigger := .once, cls := .normal, carrierTag := some [0x41#8]
    readTag := none, source := some (.port 1), targetBay := none, dest := some (.port 0), prior := none
    targeting := .nearest 0xFF#8, reachLimit := none, batchTag := none, state := .queued, waitReason := none
    suspendReason := none, abortPending := false, endReason := none, loc := none, storedAge := 0
    queuedSince := some 4000, etaPick := none, etaDone := none, asserted := false, serveCount := 0, acceptedAt := 4000
    endedAt := none, retargetLate := false, orphan := none }

/-- The vehicle with fleet id 214: ONLINE, IDLE and READY at (1, 400), with nothing on board. -/
def rover : Vehicle :=
  { fleetId := 214, link := .online, activity := .idle, idleLevel := .ready, idleSince := 4000, hostStall := false
    faultStall := false, lastFault := none, recovered := false, autoRelease := false, groupMask := 0xFF#8
    position := ⟨1, 400, 4000⟩, load := .empty, layer0 := .empty, layer1 := .empty, lastTaken := none
    takeTimer := none, noTakes := 0, silence := none, target := none }

/-- Order 0 with the record `o` and vehicle 0 with the record `v`. -/
def holds (o : Order) (v : Vehicle) : State :=
  { run with ort := { run.ort with orders := [(0, o)] }, vht := { run.vht with vehicles := [(0, v)] } }

/-- The order in a state on layer 0 of vehicle 0. -/
def aboard (st : OrderState) : Order := { order with state := st, loc := some (0, .l0) }

/-- The vehicle with the order STAGED in layer 0, and with it ACTIVE there. -/
def staged : Vehicle := { rover with activity := .working, layer0 := .staged 0, takeTimer := some ⟨4000, 4030⟩ }
def active : Vehicle := { rover with activity := .working, layer0 := .active 0 }

/-- One request in the host input queue, with frame tag 7. -/
def asking (k : Byte) (p : List Byte) (s : State) : State :=
  { s with liu := { s.liu with hostQueue := [.frame (k :: 7#8 :: 0#8 :: p)] } }

/-- One report of vehicle 214 in the fleet input queue. -/
def reporting (k : Byte) (p : List Byte) (s : State) : State :=
  { s with liu := { s.liu with fleetIn := [k :: 0xD6#8 :: 0#8 :: p] } }

/-- Handle 0 and host tag 77. -/
def ref : List Byte := [0#8, 77#8, 0#8, 0#8, 0#8]

theorem asks (k : Byte) (p : List Byte) (s : State) (h : s.liu.replySlot = none ∧ s.liu.restartPending = false) :
    requestWaits (asking k p s) (u8 k) 7 p := ⟨h.1, h.2, k, 7#8, 0#8, [], rfl, rfl, rfl⟩

theorem asksRun (k : Byte) (p : List Byte) : askedRunning (asking k p run) (u8 k) 7 p :=
  ⟨rfl, asks k p run ⟨rfl, rfl⟩⟩

theorem asksFor (k : Byte) (extra : List Byte) (o : Order) (v : Vehicle) (h : o.hostTag = 77) :
    asksOrder (asking k (ref ++ extra) (holds o v)) (u8 k) 7 0 o extra :=
  ⟨0#8, 77#8, 0#8, 0#8, 0#8, ⟨rfl, asks k _ _ ⟨rfl, rfl⟩⟩, rfl, rfl, h⟩

theorem asksRover (k : Byte) (extra : List Byte) (o : Order) (v : Vehicle) (h : v.fleetId = 214) :
    asksVehicle (asking k (0xD6#8 :: 0#8 :: extra) (holds o v)) (u8 k) 7 0 v extra := by
  refine ⟨0xD6#8, 0#8, ⟨rfl, asks k _ _ ⟨rfl, rfl⟩⟩, by decide, by decide, ?_, rfl⟩
  show ((([(0, v)] : Tbl Vehicle).find? (fun e => e.2.fleetId == 214)).map (fun e => e.1)) = some 0
  simp [h]

theorem reports (k : Byte) (p : List Byte) (o : Order) (v : Vehicle) (h : v.fleetId = 214) (hl : v.link = .online) :
    reportWaits (reporting k p (holds o v)) (u8 k) 0 v p := by
  refine ⟨⟨k, 0xD6#8, 0#8, [], rfl, rfl, ?_⟩, rfl, hl⟩
  show ((([(0, v)] : Tbl Vehicle).find? (fun e => e.2.fleetId == 214)).map (fun e => e.1)) = some 0
  simp [h]

theorem reportsOn (k : Byte) (p : List Byte) (st : OrderState) (v : Vehicle) (h : v.fleetId = 214 ∧ v.link = .online)
    (h0 : v.layer0 = .active 0) (h1 : v.layer1 = .empty) :
    reportsActive (reporting k p (holds (aboard st) v)) (u8 k) 0 v p 0 (aboard st) :=
  ⟨reports k p _ v h.1 h.2, rfl, .l0, h0, fun g e => by simp [Vehicle.layer, LayerId.other, h1] at e, rfl⟩

/-! ## Well-formedness: each check refuses an ill-formed command -/

theorem test_wellFormed_refuses :
    [Instr.batchDone 65536, .takeTimerExpiry 64, .noTakeLimit 64, .silenceTimerExpiry 64, .parkStep 64,
      .dormantStep 64, .lapseTimerExpiry 32 0, .lapseTimerExpiry 0 64, .yieldTimerExpiry 32,
      .starvationTimerExpiry 32 0, .starvationTimerExpiry 0 64, .orphanTimerExpiry 256].all
      (fun c => !c.wellFormed) = true := by decide

theorem test_wellFormed_takes_the_last_entries :
    [Instr.batchDone 65535, .takeTimerExpiry 63, .lapseTimerExpiry 31 63, .yieldTimerExpiry 31,
      .starvationTimerExpiry 31 63, .orphanTimerExpiry 255, .orderPlace].all Instr.wellFormed = true := by decide

/-! ## Values the spec works out -/

/-- R183: the CRC of "123456789" is 0x29B1. -/
theorem test_crc :
    crc16 [0x31#8, 0x32#8, 0x33#8, 0x34#8, 0x35#8, 0x36#8, 0x37#8, 0x38#8, 0x39#8] = 0x29B1#16 := by decide +kernel

/-- Section 2.2, worked cases with bays 3 and 7 as bays 0 and 1: three legs, ahead, and a wrap. -/
theorem test_travel :
    travel twoBays 0 900 1 350 = 655 ∧ travel twoBays 1 120 1 350 = 115 ∧ travel twoBays 1 400 1 350 = 425 ∧
      travel twoBays 1 350 0 400 = 1165 := by decide

/-- Section 2.4: slot 9 costs 425, slot 12 with 5 held over a soft limit of 4 costs 735, and slot 2 costs 325. -/
theorem test_reach_cost :
    (let y : BayState := { freshBay with soft := 4, admitted := List.replicate 5 ⟨9, true, 0, none⟩ }
     let s : State := { run with bac := { run.bac with bays := [(0, freshBay), (1, y)] } }
     let p : Stop := ⟨.port 1, 1, 350, 120⟩
     [reachCost s rover p, reachCost s { rover with position := ⟨0, 900, 0⟩, idleLevel := .parked } p,
      reachCost s { rover with position := ⟨255, 2040, 0⟩ } p]) = [425, 735, 325] := by decide

/-- Section 2.5: 1450 at age 4500, 1200 for a BULK order at age 60000, 12000 for a new HOT one, and its saturation. -/
theorem test_priority :
    priority .default { order with storedAge := 2000, queuedSince := some 10000 } 12500 = 1450 ∧
      priority .default { order with cls := .bulk, queuedSince := some 0 } 60000 = 1200 ∧
      priority .default { order with cls := .hot, queuedSince := some 5000 } 5000 = 12000 ∧
      priority .default { order with cls := .hot, queuedSince := some 0 } 107070 = 65535 ∧
      priority .default { order with cls := .hot, queuedSince := some 0 } 107069 = 65534 := by decide

/-- Section 1.3: the close of the first attempt fails check 7 at bay 1; with base 10 the layout is valid. -/
theorem test_validate :
    validate { twoBays with
      bays := [(0, ⟨1100, 20, 1040, 600, 760, 300, 10, 0, 100, 60, 45⟩),
        (1, ⟨900, 20, 860, 2400, 2560, 200, 12, 8, 50, 50, 45⟩)] } = some (7, 1) ∧
      validate twoBays = none := by decide

/-! ## Small steps -/

/-- The one field of an outcome that a test reads. -/
def after {α : Type} (f : State → α) : Host.Outcome State Fault Refusal → Option α
  | .next t => some (f t)
  | .fault _ => none
  | .refused _ => none

/-- Section 2.6: an order granted at C = 425 from port 1 to port 0 has eta done = eta pick + 120 + 1165 + 120. -/
theorem test_grant :
    after (fun t => (tblGet t.ort.orders 0).map (fun o => (o.state, o.etaPick, o.etaDone, o.storedAge)))
      (exec .grantStep { holds order rover with asa := { run.asa with examPending := true } }) =
      some (some (.assigned, some 5425, some 6830, 1000)) := by decide

theorem test_grant_stages :
    after (fun t => (tblGet t.vht.vehicles 0).map (fun v => (v.layer0, v.activity, v.takeTimer)))
      (exec .grantStep { holds order rover with asa := { run.asa with examPending := true } }) =
      some (some (.staged 0, .working, some ⟨5000, 5030⟩)) := by decide

/-- R58, R47: holding and clearing. -/
theorem test_hold :
    after (fun t => (tblGet t.ort.orders 0).map (fun o => (o.state, o.storedAge)))
      (exec .orderHold (asking 0x21#8 ref (holds order rover))) = some (some (.held, 1000)) := by decide

theorem test_clear :
    after (fun t => t.ort.orders)
      (exec .orderClear (asking 0x27#8 ref (holds { order with state := .done } rover))) = some [] := by decide

/-- Section 3.6: a cancel that comes too late. -/
theorem test_cancel_late :
    after (fun t => (tblGet t.ort.orders 0).map (fun o => o.state))
      (exec .abortLate (reporting 0x59#8 [0#8] (holds (aboard .cancelling) active))) = some (some .picking) := by
  decide

theorem test_cancel_sends_abort :
    after (fun t => t.liu.fleetOut)
      (exec .orderCancel (asking 0x23#8 ref (holds (aboard .toSource) active))) = some [⟨214, .abort 0⟩] := by decide

/-- R53: a TAKEN makes the staged order ACTIVE. -/
theorem test_taken :
    after (fun t => (tblGet t.vht.vehicles 0).map (fun v => (v.layer0, v.lastTaken, v.takeTimer)))
      (exec .taken (reporting 0x53#8 [0#8, 0#8] (holds (aboard .assigned) staged))) =
      some (some (.active 0, some .l0, none)) := by decide

/-- R36, R55: a PICK_END with the carrier's tag; eta done becomes now + T_sd + h_dst. -/
theorem test_pick_end :
    after (fun t => (tblGet t.ort.orders 0).map (fun o => (o.state, o.readTag, o.etaDone)))
      (exec .pickEnd (reporting 0x55#8 [0#8, 1#8, 1#8, 0x41#8] (holds (aboard .picking) active))) =
      some (some (.carrying, some (.tag [0x41#8]), some 6285)) := by decide

/-- R55: another tag suspends the order. -/
theorem test_pick_mismatch :
    after (fun t => (tblGet t.ort.orders 0).map (fun o => (o.state, o.suspendReason, o.orphan)))
      (exec .pickEnd (reporting 0x55#8 [0#8, 1#8, 1#8, 0x42#8] (holds (aboard .picking) active))) =
      some (some (.suspended, some .mismatch, some ⟨5000, 8000⟩)) := by decide

/-- R56: a PLACE_END in CARRYING at the destination ends the order. -/
theorem test_place_end :
    after (fun t => (tblGet t.ort.orders 0).map (fun o => (o.state, o.endReason)))
      (exec .placeEnd (reporting 0x57#8 [0#8, 0#8, 0#8, 0#8] (holds (aboard .carrying) active))) =
      some (some (.done, some .completed)) := by decide

/-- R56: at the prior destination the retarget came too late. -/
theorem test_place_late :
    after (fun t => (tblGet t.ort.orders 0).map (fun o => (o.state, o.dest, o.endReason)))
      (exec .placeEnd (reporting 0x57#8 [0#8, 0#8, 2#8, 0#8]
        (holds { aboard .carrying with prior := some (.port 2) } active))) =
      some (some (.done, some (.port 2), some .retargetLate)) := by decide

/-- R94: an unknown vehicle is enrolled into the lowest free slot. -/
theorem test_hello :
    after (fun t => (tblGet t.vht.vehicles 0).map (fun v => (v.fleetId, v.activity, v.position)))
      (exec .hello (reporting 0x51#8 [1#8, 100#8, 0#8, 0#8, 0#8] run)) =
      some (some (214, .idle, ⟨1, 100, 5000⟩)) := by decide

/-- R119: the first asker is granted, and a bay that is none is answered ENTRY_VOID. -/
theorem test_entry :
    after (fun t => t.liu.fleetOut) (exec .entryAsk (reporting 0x5C#8 [1#8] (holds order rover))) =
        some [⟨214, .entryGrant 1⟩] ∧
      after (fun t => t.liu.fleetOut) (exec .entryAsk (reporting 0x5C#8 [2#8] (holds order rover))) =
        some [⟨214, .entryVoid 2 .badBay⟩] := by decide

/-- R158, R159: a recoverable fault while carrying suspends the order. -/
theorem test_fault :
    after (fun t => (tblGet t.ort.orders 0).map (fun o => (o.state, o.suspendReason)))
      (exec .fault (reporting 0x5A#8 [0#8, 31#8] (holds (aboard .carrying) active))) =
      some (some (.suspended, some .fault)) := by decide

/-- R168: a fatal incident asserts ALMN. -/
theorem test_fault_fatal :
    after almnAsserted (exec .fault (reporting 0x5A#8 [1#8, 31#8] (holds order rover))) = some true := by decide

/-- R162: a READY with the carrier resumes a suspended order. -/
theorem test_ready :
    after (fun t => (tblGet t.ort.orders 0).map (fun o => o.state))
      (exec .ready (reporting 0x5B#8 [1#8, 1#8, 1#8, 0x41#8]
        (holds { aboard .suspended with suspendReason := some .fault } active))) = some (some .carrying) := by decide

/-- Section 7.6: the reserves of the worked sequence, then a locked bay. -/
theorem test_reserve :
    after (fun t => reserveOf t.shm 0) (exec .reserveSet (asking 0x11#8 [0#8, 2#8, 2#8, 0#8] run)) =
        some ⟨2, 2, false⟩ ∧
      after (fun t => t.liu.replySlot.map (fun r => r.status))
        (exec .reserveSet (asking 0x11#8 [0#8, 1#8, 3#8, 0#8]
          { run with shm := { run.shm with reserves := [(0, ⟨0, 4, true⟩)] } })) = some (some .locked) := by decide

/-- R97: a coordinate beyond the bay is clamped. -/
theorem test_pos :
    after (fun t => (tblGet t.vht.vehicles 0).map (fun v => v.position))
      (exec .pos (reporting 0x52#8 [1#8, 0x84#8, 3#8] (holds order rover))) = some (some ⟨1, 899, 5000⟩) := by decide

/-- R107: the third no-take stalls the vehicle. -/
theorem test_no_take :
    after (fun t => (tblGet t.vht.vehicles 0).map (fun v => (v.noTakes, v.faultStall, v.layer0)))
      (exec (.takeTimerExpiry 0) (holds (aboard .assigned) { staged with noTakes := 2 })) =
      some (some (3, true, .empty)) := by decide

/-- R179: values beyond a range are stored at its end. -/
theorem test_timing :
    after (fun t => (t.vht.tSilent, t.asa.wPark, t.asa.examPending))
      (exec .timingSet (asking 0x14#8 [2#8, 7#8, 0xFF#8, 0xFF#8, 1#8, 0xFF#8, 0xFF#8] run)) =
      some (600, 1000, true) := by decide

/-- R45: an accepted order takes entry 0 with accept sequence 1. -/
theorem test_place :
    after (fun t => (tblGet t.ort.orders 0).map (fun o => (o.seq, o.state, o.source, o.dest)))
      (exec .orderPlace (asking 0x20#8
        [1#8, 0#8, 0#8, 0#8, 0#8, 0#8, 1#8, 1#8, 0xFF#8, 0#8, 0#8, 1#8, 0#8, 0#8, 0#8, 0#8, 1#8, 1#8, 0x41#8] run)) =
      some (some (1, .queued, some (.port 1), some (.port 0))) := by decide

/-- No row has bits, so no word spells a command. -/
theorem test_words : decodeTableWord 8 0 = none ∧ (State.reset.withFetchWord 8 0).pending = [] := by decide

/-! ## What meets the hypotheses of the statements -/

theorem canonical_of (s : State) (ho : tblWf s.ort.orders = true ∧ ∀ e ∈ s.ort.orders, e.1 < 256)
    (hv : tblWf s.vht.vehicles = true ∧ ∀ e ∈ s.vht.vehicles, e.1 < 64)
    (hr : s.ort.batches = [] ∧ s.lyt = twoBays ∧ s.bac.bays = run.bac.bays ∧ s.shm.shelves = []) :
    TablesCanonical s := by
  obtain ⟨h1, h2, h3, h4⟩ := hr
  refine ⟨ho, ?_, hv, ?_, ?_, ?_⟩
  · rw [h1]; decide
  · rw [h2]; decide
  · rw [h3]; decide
  · rw [h4]; simp [tblWf]

theorem held_canonical (o : Order) (v : Vehicle) : TablesCanonical (holds o v) :=
  canonical_of _ ⟨rfl, by simp [holds]⟩ ⟨rfl, by simp [holds]⟩ ⟨rfl, rfl, rfl, rfl⟩

/-- One order and one vehicle that agree. -/
theorem held_consistent (o : Order) (v : Vehicle) (h : v.layer1 = .empty ∧ v.noTakes ≤ 3)
    (ho : (v.layer0 = .empty ∧ o.loc = none ∧ o.state.onVehicle = false) ∨
      (o.loc = some (0, .l0) ∧ o.state.onVehicle = true ∧ v.layer0 = if o.state = .assigned then .staged 0 else .active 0)) :
    FleetConsistent (holds o v) where
  oneActive := by
    intro e he a g
    rw [List.mem_singleton.1 he]
    simp [h.1]
  oneStaged := by
    intro e he a g
    rw [List.mem_singleton.1 he]
    simp [h.1]
  noTakes := by
    intro e he
    rw [List.mem_singleton.1 he]
    exact h.2
  distinctIds := by simp [holds]
  layers := by
    intro e he i g hl
    rw [List.mem_singleton.1 he] at hl ⊢
    cases i
    · obtain ⟨h0, -, -⟩ | ⟨h1, -, h3⟩ := ho
      · simp [Vehicle.layer, h0] at hl
      · refine ⟨o, ?_, h1, ?_⟩ <;> by_cases hs : o.state = .assigned <;>
          simp_all [Vehicle.layer, holds, tblGet]
    · simp [Vehicle.layer, h.1] at hl
  places := by
    intro e he
    rw [List.mem_singleton.1 he]
    obtain ⟨-, h0, h1⟩ | ⟨h1, h2, -⟩ := ho
    · simp [h0, h1]
    · simp [h1, h2]
  located := by
    intro e he slot i hl
    rw [List.mem_singleton.1 he] at hl ⊢
    obtain ⟨-, h0, -⟩ | ⟨h1, -, h3⟩ := ho
    · simp [h0] at hl
    · obtain ⟨rfl, rfl⟩ : slot = 0 ∧ i = .l0 := by simpa [h1, eq_comm] using hl
      refine ⟨v, rfl, ?_⟩
      by_cases hs : o.state = .assigned <;> simp_all [Vehicle.layer]

theorem witness_StepRunsTheFrontCommand :
    ({ run with pending := [.grantStep, .gwrdyRise] } : State).pending = .grantStep :: [.gwrdyRise] := rfl

/-- The engine in RUNNING with nothing due, or with the arbiter in this state alone. -/
def waiting (a : Arbiter) : State := { State.reset with now := 5000, lyt := twoBays, asa := a }

theorem witness_EmptyQueueTakesWhatIsDue :
    ((waiting Arbiter.reset).pending = [] ∧ ∀ c, ¬DueNow (waiting Arbiter.reset) c) ∧
      (∃ c, DueNow (waiting { Arbiter.reset with rescan := some ⟨4990, 5000⟩ }) c ∧ isExpiry c = true) ∧
      (∃ c, DueNow (waiting { Arbiter.reset with examPending := true }) c) ∧
      (∀ c, DueNow (waiting { Arbiter.reset with examPending := true }) c → isExpiry c = false) := by
  refine ⟨⟨rfl, fun c => ?_⟩, ⟨.rescanTimerExpiry, ⟨_, rfl, by decide, by decide⟩, rfl⟩, ⟨.grantStep, rfl, rfl⟩,
    fun c => ?_⟩ <;>
  cases c <;>
  simp [DueNow, takesHead, expired, isExpiry, waiting, State.reset, Lines.reset, Arbiter.reset, VehicleTable.reset,
    Survey.reset, OrderTable.reset, Admission.reset]

theorem witness_RestartRepliesThenResets :
    askedRunning (asking 0x3E#8 [0#8] run) 0x3E 7 [0#8] ∧
      (∃ s : State, s.liu.restartPending = true ∧ s.liu.replySlot = none ∧ tblWf s.shm.shelves = true) ∧
      ¬(run.liu.restartPending = true ∧ run.liu.replySlot = none) :=
  ⟨asksRun _ _, ⟨{ run with liu := { run.liu with restartPending := true } }, rfl, rfl, rfl⟩, by decide⟩

theorem witness_GwrdyFallLosesEveryVehicle :
    (holds order rover).gwrdy = true ∧ tblGet (holds order rover).vht.vehicles 0 = some rover ∧
      ({ run with gwrdy := false } : State).gwrdy = false ∧
      (TablesCanonical (holds (aboard .assigned) staged) ∧ FleetConsistent (holds (aboard .assigned) staged)) ∧
      (staged.link = .online ∧ staged.layer .l0 = .staged 0 ∧ (aboard .assigned).loc = some (0, .l0)) ∧
      (∀ st ∈ [OrderState.toSource, .picking, .carrying, .placing, .cancelling, .suspended],
        TablesCanonical (holds (aboard st) active) ∧ FleetConsistent (holds (aboard st) active) ∧
          active.link = .online ∧ active.layer .l0 = .active 0 ∧ (aboard st).loc = some (0, .l0)) :=
  ⟨rfl, rfl, rfl, ⟨held_canonical _ _, held_consistent _ _ (by decide) (by decide)⟩, by decide,
    fun st h => ⟨held_canonical _ _, held_consistent _ _ (by decide) (by revert st; decide), rfl, rfl, rfl⟩⟩

theorem witness_FramesAreReceivedWhole :
    (∀ n ∈ [4, 1024], 4 ≤ (List.replicate n 0#8).length ∧ (List.replicate n 0#8).length ≤ 1024) ∧
      run.liu.hostRx = [] ∧ run.liu.fleetRx = [] ∧ run.gwrdy = true ∧ 0xA5#8 ∉ [0#8, 0xA4#8] ∧
      ({ run with gwrdy := false } : State).gwrdy = false := by
  refine ⟨fun n h => ?_, rfl, rfl, rfl, by decide, rfl⟩
  simp at h ⊢; omega

theorem witness_ReceiversIgnoreHowBytesAreCut :
    ∃ t, exec (.hostFrameReceived [0xA5#8]) run = .next t ∧
      ∃ u, exec (.fleetFrameReceived [0xA5#8]) run = .next u := ⟨_, rfl, _, rfl⟩

theorem witness_MessagesLeaveInOrder :
    (∃ s : State, s.liu.replySlot ≠ none) ∧
      (∃ s : State, s.liu.replySlot = none ∧ s.liu.restartPending = false ∧ s.liu.notices ≠ [] ∧ s.gwrdy = true ∧
        s.liu.fleetOut ≠ [] ∧ s.liu.notices.length = 63 ∧ s.liu.fleetOut.length = 31) ∧
      (∃ s : State, s.liu.notices.length = 64 ∧ s.liu.fleetOut.length = 32) ∧ (∃ s : State, s.gwrdy = false) :=
  ⟨⟨{ run with liu := { run.liu with replySlot := some ⟨0x80, 7, .busy, .none⟩ } }, by decide⟩,
    ⟨{ run with
      liu := { run.liu with
        notices := List.replicate 63 ⟨false, .batchDone 0 0 0⟩, fleetOut := List.replicate 31 ⟨214, .abort 0⟩ } },
      rfl, rfl, by simp, rfl, by simp, by simp, by simp⟩,
    ⟨{ run with
      liu := { run.liu with
        notices := List.replicate 64 ⟨false, .batchDone 0 0 0⟩, fleetOut := List.replicate 32 ⟨214, .abort 0⟩ } },
      by simp, by simp⟩, ⟨{ run with gwrdy := false }, rfl⟩⟩

theorem witness_HeadsAreScreened :
    (∃ s : State, s.liu.replySlot = none ∧ s.liu.restartPending = false ∧ s.liu.hostQueue = .mark 7 :: []) ∧
      (requestWaits (asking 0x00#8 [0#8] run) 0x00 7 [0#8] ∧ hostRow 0x00 = none) ∧
      (requestWaits (asking 0x21#8 [0#8] run) 0x21 7 [0#8] ∧ hostRow 0x21 = some .orderHold ∧
        requestFits 0x21 [0#8] = false) ∧
      fleetRow 0x21 [0#8] = none ∧ fleetRow 0x52 [0#8] = none ∧
      (∃ s : State, s.liu.restartPending = true) ∧
      (requestWaits (asking 0x21#8 ref State.reset) 0x21 7 ref ∧ takenInEveryState 0x21 = false ∧
        requestFits 0x21 ref = true ∧ State.reset.lyt.opState ≠ .running) ∧
      ((decodeHello [255#8, 0#8, 0#8, 0#8, 0#8]).isSome = true ∧ 0 < u16 0xD6#8 0#8 ∧ u16 0xD6#8 0#8 < 65535) ∧
      ((reporting 0x5F#8 [0#8] run).liu.fleetIn = [0x5F#8, 0xD6#8, 0#8, 0#8] :: [] ∧
        fleetRow (u8 0x5F#8) [0#8] = some .bye ∧ slotOf run.vht (u16 0xD6#8 0#8) = none ∧
        ∃ v : Vehicle, slotOf (holds order v).vht (u16 0xD6#8 0#8) = some 0 ∧ v.link ≠ .online) :=
  ⟨⟨{ run with liu := { run.liu with hostQueue := [.mark 7] } }, rfl, rfl, rfl⟩,
    ⟨asks _ _ _ ⟨rfl, rfl⟩, rfl⟩, ⟨asks _ _ _ ⟨rfl, rfl⟩, by decide, by decide⟩, by decide, by decide,
    ⟨{ run with liu := { run.liu with restartPending := true } }, rfl⟩,
    ⟨asks _ _ _ ⟨rfl, rfl⟩, by decide, by decide, by decide⟩, by decide, rfl, by decide, by decide,
    { rover with link := .offline .bye }, by decide⟩

theorem witness_PayloadsAreReadAsLaidOut :
    fixedSize 0x21 = some 5 ∧
      OrderPlaceSized
        { hostTag := 4294967295, kind := 255, trigger := 255, cls := 255, targeting := 255, target := 65535
          source := ⟨255, 65535⟩, dest := ⟨255, 65535⟩, carrierTag := some (List.replicate 12 0#8)
          reachLimit := some 65535, batchTag := none, hold := true } ∧
      BayTuneSized { bay := 255, capacity := some 255, soft := none, quota := some 0, openFlag := some 1 } ∧
      3 ≤ u8 3#8 ∧
      ((List.replicate 255 (⟨255, 65535, 255⟩ : WeightEntry)).length < 256 ∧
        ∀ e ∈ List.replicate 255 (⟨255, 65535, 255⟩ : WeightEntry), e.cls < 256 ∧ e.base < 65536 ∧ e.rate < 256) ∧
      ((List.replicate 255 (255, 255)).length < 256 ∧
        ∀ e ∈ List.replicate 255 (255, 255), e.1 < 256 ∧ e.2 < 256) ∧
      (∀ t, Load.tagged (List.replicate 12 0x41#8) = .tagged t → 1 ≤ t.length ∧ t.length ≤ 12) := by
  refine ⟨rfl, ?_, ?_, by decide, ⟨?_, fun e h => ?_⟩, ⟨?_, fun e h => ?_⟩, fun t h => ?_⟩
  · constructor <;> simp
  · constructor <;> simp
  · rw [List.length_replicate]; omega
  · rw [List.eq_of_mem_replicate h]; decide
  · rw [List.length_replicate]; omega
  · rw [List.eq_of_mem_replicate h]; decide
  · cases h; simp

theorem witness_LayoutOpenByEngineState :
    (∀ p, requestWaits (asking 0x01#8 p State.reset) 0x01 7 p) ∧
      (∀ (p : List Byte) (o : Order), requestWaits (asking 0x01#8 p (holds o rover)) 0x01 7 p) ∧
      (1 ≤ u8 1#8 ∧ u8 32#8 ≤ 32 ∧ u16 0#8 2#8 ≤ 512) ∧ ¬(1 ≤ u8 0#8) ∧ ¬(u8 33#8 ≤ 32) ∧ ¬(u16 1#8 2#8 ≤ 512) ∧
      State.reset.lyt.opState = .unloaded ∧ run.lyt.opState = .running ∧ run.lyt.lock = false ∧
      (∀ e ∈ run.ort.orders, e.2.state.live = false) ∧
      (∃ e ∈ (holds order rover).ort.orders, e.2.state.live = true) ∧
      (∃ l : Layout, l.opState = .loading ∧ l.expected = some .loopDef) ∧
      (∃ l : Layout, l.opState = .running ∧ l.lock = true) :=
  ⟨fun _ => asks _ _ _ ⟨rfl, rfl⟩, fun _ _ => asks _ _ _ ⟨rfl, rfl⟩, by decide, by decide, by decide, by decide, rfl, rfl,
    rfl, by decide, ⟨_, .head _, rfl⟩, ⟨{ twoBays with opState := .loading, expected := some .loopDef }, rfl, rfl⟩,
    ⟨{ twoBays with lock := true }, rfl, rfl⟩⟩

/-- A load that expects this record. -/
def loading (r : LayoutRecord) : State :=
  { State.reset with lyt := { twoBays with opState := .loading, expected := some r } }

theorem witness_MatchingLoopDefIsStored :
    (∀ l0 l1 v, requestWaits (asking 0x02#8 [l0, l1, v] (loading .loopDef)) 0x02 7 [l0, l1, v]) ∧
      (loading .loopDef).lyt.opState = .loading ∧ (loading .loopDef).lyt.expected = some .loopDef ∧
      (64 ≤ u16 64#8 0#8 ∧ 1 ≤ u8 1#8 ∧ u8 1#8 ≤ 120) ∧ (64 ≤ u16 255#8 255#8 ∧ 1 ≤ u8 120#8 ∧ u8 120#8 ≤ 120) ∧
      ¬(64 ≤ u16 63#8 0#8) ∧ ¬(1 ≤ u8 0#8) ∧ ¬(u8 121#8 ≤ 120) :=
  ⟨fun _ _ _ => asks _ _ _ ⟨rfl, rfl⟩, by decide⟩

theorem witness_LayoutRecordsAreTakenInOrder :
    (∀ p ∈ [[1#8, 16#8, 0#8, 1#8, 1#8, 0#8, 0#8, 0#8, 1#8, 0#8, 0#8, 0#8, 64#8, 255#8, 3#8, 0#8, 0#8, 1#8, 1#8, 0#8]],
      requestWaits (asking 0x03#8 p (loading (.bayDef 1))) 0x03 7 p) ∧
      (16 ≤ u16 16#8 0#8 ∧ u8 60#8 ≤ 60 ∧ u8 64#8 ≤ 64 ∧ u16 255#8 3#8 ≤ 1023 ∧ u16 88#8 2#8 ≤ 600) ∧
      ¬(16 ≤ u16 15#8 0#8) ∧ ¬(u8 61#8 ≤ 60) ∧ ¬(u8 65#8 ≤ 64) ∧ ¬(u16 0#8 4#8 ≤ 1023) ∧ ¬(u16 89#8 2#8 ≤ 600) ∧
      (∀ k ∈ [0#8, 1#8, 2#8],
        requestWaits (asking 0x04#8 [2#8, 0#8, 1#8, 0#8, 0#8, 88#8, 2#8, k] (loading (.portDef 2))) 0x04 7
          [2#8, 0#8, 1#8, 0#8, 0#8, 88#8, 2#8, k]) ∧
      (u8 0#8 = 0 ∧ u8 1#8 = 1 ∧ ¬(u8 2#8 ≤ 1) ∧ u8 1#8 < twoBays.bayCount ∧ ¬(u8 2#8 < twoBays.bayCount)) ∧
      (requestFits 0x05 [0#8] = true ∧ hostRow 0x05 = some .layoutClose ∧
        recordOf 0x05 [0#8] = some .layoutClose ∧ State.reset.lyt.opState = .unloaded ∧
        State.reset.lyt.expected = some .layoutOpen ∧ run.lyt.opState = .running ∧
        LayoutRecord.portDef 2 ≠ .layoutClose) :=
  ⟨fun _ _ => asks _ _ _ ⟨rfl, rfl⟩, by decide, by decide, by decide, by decide, by decide, by decide,
    fun _ _ => asks _ _ _ ⟨rfl, rfl⟩, by decide, by decide⟩

theorem twoBays_valid : LayoutValid twoBays where
  junctions := by decide
  distinct := by decide
  exits := by decide
  parks := by decide
  ports := by decide
  racks := by decide
  pool := by decide
  apart := by
    refine List.pairwise_cons.2 ⟨fun e he => ?_, List.pairwise_singleton ..⟩
    simp only [List.mem_singleton] at he
    subst he
    rintro ⟨k, h1, h2, h3, h4⟩
    simp only at h1 h2 h3 h4
    omega

theorem witness_LayoutCloseAcceptsExactlyValidLayouts :
    requestWaits (asking 0x05#8 [0#8] (loading .layoutClose)) 0x05 7 [0#8] ∧
      (loading .layoutClose).lyt.opState = .loading ∧ (loading .layoutClose).lyt.expected = some .layoutClose ∧
      LayoutValid (loading .layoutClose).lyt ∧
      ¬LayoutValid { (loading .layoutClose).lyt with ports := [(0, ⟨0, 1100, 120, .tool, true⟩)] } ∧
      TablesCanonical (loading .layoutClose) := by
  refine ⟨asks _ _ _ ⟨rfl, rfl⟩, rfl, rfl, ⟨twoBays_valid.1, twoBays_valid.2, twoBays_valid.3, twoBays_valid.4,
    twoBays_valid.5, twoBays_valid.6, twoBays_valid.7, twoBays_valid.8⟩, fun h => ?_, ?_⟩
  · exact absurd (h.ports _ (.head _)) (by decide)
  · constructor <;> decide

theorem witness_ClassWeightsAreSetTogether :
    askedRunning (asking 0x13#8 [1#8, 3#8, 1#8, 0#8, 2#8] run) 0x13 7 [1#8, 3#8, 1#8, 0#8, 2#8] ∧
      decodeClassWeights [1#8, 3#8, 1#8, 0#8, 2#8] = some [⟨3, 1, 2⟩] ∧
      decodeClassWeights [1#8, 4#8, 1#8, 0#8, 2#8] = some [⟨4, 1, 2⟩] := ⟨asksRun _ _, by decide⟩

theorem witness_TimingsAreClampedAndStored :
    askedRunning (asking 0x14#8 [1#8, 15#8, 1#8, 0#8] run) 0x14 7 [1#8, 15#8, 1#8, 0#8] ∧
      decodeTimingSet [1#8, 15#8, 1#8, 0#8] = some [(15, 1)] ∧
      decodeTimingSet [1#8, 16#8, 1#8, 0#8] = some [(16, 1)] := ⟨asksRun _ _, by decide⟩

theorem witness_LockPortsRoutesAndGateAreSet :
    askedRunning (asking 0x06#8 [0#8] run) 0x06 7 [0#8] ∧
      (∀ v, askedRunning (asking 0x12#8 [2#8, 0#8, v] run) 0x12 7 [2#8, 0#8, v]) ∧
      tblGet run.lyt.ports (u16 2#8 0#8) ≠ none ∧ tblGet run.lyt.ports (u16 3#8 0#8) = none ∧ 2 ≤ u8 2#8 ∧
      askedRunning (asking 0x15#8 [1#8, 12#8, 3#8] run) 0x15 7 [1#8, 12#8, 3#8] ∧ run.fcr.routes.length = 12 ∧
      decodeIncidentRoute [1#8, 12#8, 3#8] = some [(12, 3)] ∧
      decodeIncidentRoute [1#8, 13#8, 3#8] = some [(13, 3)] ∧
      (∀ g, askedRunning (asking 0x16#8 [g] run) 0x16 7 [g]) ∧ u8 7#8 ≤ 7 ∧ 7 < u8 8#8 ∧
      routeOf run.fcr .noTake ≠ .silent ∧
      routeOf { run.fcr with routes := .silent :: defaultRoutes.tail } .noTake = .silent :=
  ⟨asksRun _ _, fun _ => asksRun _ _, by decide, by decide, by decide, asksRun _ _, rfl, by decide, by decide,
    fun _ => asksRun _ _, by decide⟩

theorem witness_BayTuneStoresItsValues :
    (∀ p, askedRunning (asking 0x10#8 p run) 0x10 7 p) ∧ tblGet run.bac.bays 1 = some freshBay ∧ 1 < run.lyt.bayCount ∧
      decodeBayTune [1#8, 1#8, 32#8] = some ⟨1, some 32, none, none, none⟩ ∧
      decodeBayTune [1#8, 9#8, 1#8, 0#8] = some ⟨1, some 1, none, none, some 0⟩ ∧
      decodeBayTune [1#8, 1#8, 33#8] = some ⟨1, some 33, none, none, none⟩ ∧
      decodeBayTune [1#8, 2#8, 0#8] = some ⟨1, none, some 0, none, none⟩ ∧
      decodeBayTune [1#8, 8#8, 2#8] = some ⟨1, none, none, none, some 2⟩ ∧
      decodeBayTune [2#8, 0#8] = some ⟨2, none, none, none, none⟩ ∧ tblGet run.bac.bays 2 = none :=
  ⟨fun _ => asksRun _ _, by decide⟩

/-- Pool index 3 HELD with carrier A, pool index 4 OUTBOUND. -/
def shelved : State :=
  { run with
    shm := { run.shm with shelves := [(3, ⟨.held, some [0x41#8], false, none⟩), (4, ⟨.outbound, none, true, some 9⟩)] } }

theorem asksShelved (k : Byte) (p : List Byte) : askedRunning (asking k p shelved) (u8 k) 7 p :=
  ⟨rfl, asks k p shelved ⟨rfl, rfl⟩⟩

theorem witness_ReservesAndShelvesAreSet :
    (∀ b h e l, askedRunning (asking 0x11#8 [b, h, e, l] run) 0x11 7 [b, h, e, l]) ∧
      (tblGet run.lyt.bays 2 = none ∧ 64 < u8 65#8 ∧ 1 < u8 2#8) ∧
      (∃ y, tblGet run.lyt.bays (u8 1#8) = some y ∧ u8 1#8 < run.lyt.bayCount ∧ y.rackCount < u8 6#8 + u8 7#8 ∧
        u8 6#8 + u8 6#8 ≤ y.rackCount) ∧ (reserveOf run.shm 1).lock = false ∧
      (∃ m : ShelfMap, (reserveOf m 1).lock = true) ∧
      (∀ p, askedRunning (asking 0x38#8 p shelved) 0x38 7 p) ∧
      decodeShelfSet [21#8, 0#8, 2#8, 0#8, 1#8, 1#8, 0x41#8] = some ⟨21, 2, 0, some [0x41#8]⟩ ∧
      declaredShelf ⟨21, 2, 0, some [0x41#8]⟩ ≠ none ∧ rackOf shelved.lyt 21 ≠ none ∧
      (shelfAt shelved.shm 21).state = .free ∧
      (∃ f ∈ shelved.shm.shelves, f.1 ≠ 21 ∧ f.2.state = .held ∧ f.2.tag = some [0x41#8]) ∧
      (∀ f ∈ shelved.shm.shelves, f.1 ≠ 21 → f.2.tag ≠ some [0x42#8]) ∧
      (shelfAt shelved.shm 4).state = .outbound ∧ rackOf shelved.lyt 4 ≠ none ∧
      declaredShelf ⟨21, 1, 0, none⟩ = none ∧ rackOf shelved.lyt 22 = none :=
  ⟨fun _ _ _ _ => asksRun _ _, by decide, ⟨_, rfl, by decide⟩, rfl, ⟨{ shelves := [], reserves := [(1, ⟨0, 0, true⟩)] }, rfl⟩,
    fun _ => asksShelved _ _, by decide, by decide, by decide, by decide, by decide, by decide, by decide, by decide,
    by decide, by decide⟩

/-- An ORDER_PLACE of a NORMAL NEAREST MOVE from port 1 to port 0, host tag 1, tag A. -/
def placing : OrderPlaceReq :=
  { hostTag := 1, kind := 0, trigger := 0, cls := 1, targeting := 1, target := 255, source := ⟨0, 1⟩, dest := ⟨0, 0⟩
    carrierTag := some [0x41#8], reachLimit := none, batchTag := none, hold := false }

theorem placing_allowed (r : OrderPlaceReq) (h : r.kind = 0 ∧ r.trigger = 0 ∧ r.cls ≤ 3 ∧
    ((r.targeting = 0 ∧ 1 ≤ r.target ∧ r.target ≤ 65534) ∨ (r.targeting = 1 ∧ r.target % 256 ≠ 0)) ∧
    r.source = ⟨0, 1⟩ ∧ r.dest = ⟨0, 0⟩ ∧ r.carrierTag = some [0x41#8] ∧ r.reachLimit = none) :
    PlaceFieldsAllowed twoBays r := by
  obtain ⟨a, b, c, d, e, f, g, i⟩ := h
  refine ⟨⟨by omega, by omega, c⟩, d, ?_, ?_, ?_, ?_, ?_, ?_, ?_, ?_, ?_, ?_, ?_⟩ <;> simp [a, b, e, f, g, i] <;> decide

theorem run_canonical (s : State) (h : s.ort.orders = [] ∨ ∃ o, s.ort.orders = [(0, o)])
    (hv : s.vht.vehicles = [] ∨ ∃ v, s.vht.vehicles = [(0, v)])
    (hr : s.ort.batches = [] ∧ s.lyt = twoBays ∧ s.bac.bays = run.bac.bays ∧ s.shm.shelves = []) :
    TablesCanonical s := by
  obtain ⟨h1, h2, h3, h4⟩ := hr
  constructor
  · obtain h | ⟨o, h⟩ := h <;> rw [h] <;> simp [tblWf]
  · rw [h1]; decide
  · obtain h | ⟨o, h⟩ := hv <;> rw [h] <;> simp [tblWf]
  · rw [h2]; decide
  · rw [h3]; decide
  · rw [h4]; simp [tblWf]

theorem witness_OrderPlaceChecksInOrder :
    (∀ (p : List Byte) (o : Order), requestWaits (asking 0x20#8 p (holds o rover)) 0x20 7 p) ∧
      (∀ (p : List Byte) (o : Order), TablesCanonical (asking 0x20#8 p (holds o rover))) ∧
      decodeOrderPlace (encodeOrderPlace placing) = some placing ∧ PlaceFieldsAllowed twoBays placing ∧
      ¬PlaceFieldsAllowed twoBays { placing with kind := 5 } ∧
      placeRepeats (holds order rover) placing ∧ ¬placeRepeats run placing ∧
      (PlaceFieldsAllowed twoBays { placing with targeting := 0, target := 65534 } ∧
        placeUnknown run { placing with targeting := 0, target := 65534 }) ∧ ¬placeUnknown run placing ∧
      (∃ s : State, placeGated s { placing with cls := 0 } ∧ s.ort.gate = 1) ∧ ¬placeGated run placing ∧
      (∃ s : State, placeNoRoom s { placing with batchTag := some 40 }) ∧ ¬placeNoRoom run placing := by
  refine ⟨fun p o => asks _ _ _ ⟨rfl, rfl⟩, fun p o => run_canonical _ (.inr ⟨o, rfl⟩) (.inr ⟨rover, rfl⟩)
    ⟨rfl, rfl, rfl, rfl⟩, by decide, placing_allowed _ (by decide), ?_, ⟨_, .head _, rfl, .inr (by decide)⟩, ?_,
    ⟨placing_allowed _ (by decide), .inr (by decide)⟩, ?_,
    ⟨{ run with ort := { run.ort with
      gate := 1, orders := (List.range 32).map (fun h => (h, order)) } }, ⟨rfl, by decide, ?_⟩, rfl⟩, ?_,
    ⟨{ run with ort := { run.ort with batches := (List.range 32).map (fun k => (k, ⟨1, 0, 1⟩)) } },
      .inr ⟨40, rfl, by decide, by decide⟩⟩, ?_⟩
  · intro h; exact absurd h.codes.1 (by decide)
  · rintro ⟨e, h, -⟩; exact absurd h (List.not_mem_nil)
  · rintro (⟨h, -⟩ | ⟨h, -⟩) <;> exact absurd h (by decide)
  · decide
  · rintro ⟨h, -⟩; exact absurd h (by decide)
  · rintro (⟨h, -⟩ | ⟨b, h, -⟩)
    · exact h 0 (by decide) rfl
    · exact absurd h (by simp [placing])

theorem witness_OrderPlaceTakesAnEntry :
    askedRunning (asking 0x20#8 (encodeOrderPlace placing) run) 0x20 7 (encodeOrderPlace placing) ∧
      TablesCanonical (asking 0x20#8 (encodeOrderPlace placing) run) ∧
      decodeOrderPlace (encodeOrderPlace placing) = some placing ∧ PlaceFieldsAllowed run.lyt placing ∧
      ¬placeRepeats run placing ∧ ¬placeUnknown run placing ∧ ¬placeGated run placing ∧ ¬placeNoRoom run placing :=
  let w := witness_OrderPlaceChecksInOrder
  ⟨asksRun _ _, run_canonical _ (.inl rfl) (.inl rfl) ⟨rfl, rfl, rfl, rfl⟩, w.2.2.1, w.2.2.2.1, w.2.2.2.2.2.2.1,
    w.2.2.2.2.2.2.2.2.1, w.2.2.2.2.2.2.2.2.2.2.1, w.2.2.2.2.2.2.2.2.2.2.2.2⟩

/-- The order as the last open one of batch 3. -/
def batched (v : Vehicle) : State :=
  { holds { order with batchTag := some 3 } v with
    ort := { run.ort with orders := [(0, { order with batchTag := some 3 })], batches := [(3, ⟨1, 0, 1⟩)] } }

theorem witness_OrdersAndBatchesAreNamed :
    (askedRunning (asking 0x21#8 ref run) 0x21 7 ref ∧ hostRow 0x21 = some .orderHold ∧ requestFits 0x21 ref = true ∧
      tblGet run.ort.orders (u8 0#8) = none) ∧
      (∀ st, asksOrder (asking 0x26#8 ref (holds { order with state := st } rover)) 0x26 7 0
        { order with state := st } []) ∧
      askedRunning (asking 0x2A#8 [3#8, 0#8] run) 0x2A 7 [3#8, 0#8] ∧ tblGet run.ort.batches (u16 3#8 0#8) = none ∧
      tblGet ([(3, ⟨0, 0, 1⟩)] : Tbl Batch) (u16 3#8 0#8) = some ⟨0, 0, 1⟩ ∧
      (asksOrder (asking 0x23#8 ref (batched rover)) 0x23 7 0 { order with batchTag := some 3 } [] ∧
        tblGet (batched rover).ort.batches 3 = some ⟨1, 0, 1⟩) :=
  ⟨⟨asksRun _ _, by decide, by decide, rfl⟩, fun _ => asksFor _ [] _ _ rfl, asksRun _ _, rfl, rfl,
    ⟨0#8, 77#8, 0#8, 0#8, 0#8, ⟨rfl, asks 0x23#8 _ _ ⟨rfl, rfl⟩⟩, rfl, rfl, rfl⟩, rfl⟩

theorem witness_HoldAndReleaseByState :
    (∀ st, asksOrder (asking 0x21#8 ref (holds { order with state := st } rover)) 0x21 7 0
        { order with state := st } []) ∧
      (∀ st, asksOrder (asking 0x22#8 ref (holds { order with state := st } rover)) 0x22 7 0
        { order with state := st } []) ∧
      (asksOrder (asking 0x21#8 ref (holds (aboard .assigned) staged)) 0x21 7 0 (aboard .assigned) [] ∧
        (aboard .assigned).loc = some (0, .l0) ∧
        tblGet (holds (aboard .assigned) staged).vht.vehicles 0 = some staged ∧ staged.layer .l0 = .staged 0) :=
  ⟨fun _ => asksFor _ [] _ _ rfl, fun _ => asksFor _ [] _ _ rfl, asksFor _ [] _ _ rfl, rfl, rfl, rfl⟩

theorem witness_CancelByState :
    (∀ st, asksOrder (asking 0x23#8 ref (holds { order with state := st } rover)) 0x23 7 0
        { order with state := st } []) ∧
      (asksOrder (asking 0x23#8 ref (holds (aboard .assigned) staged)) 0x23 7 0 (aboard .assigned) [] ∧
        staged.layer .l0 = .staged 0) ∧
      (asksOrder (asking 0x23#8 ref (holds (aboard .toSource) active)) 0x23 7 0 (aboard .toSource) [] ∧
        (aboard .toSource).loc = some (0, .l0) ∧
        tblGet (holds (aboard .toSource) active).vht.vehicles 0 = some active) :=
  ⟨fun _ => asksFor _ [] _ _ rfl, ⟨asksFor _ [] _ _ rfl, rfl⟩, asksFor _ [] _ _ rfl, rfl, rfl⟩

theorem witness_RetargetChecksInOrder :
    (∀ (o : Order) (p : List Byte), o.hostTag = 77 →
      asksOrder (asking 0x24#8 (ref ++ p) (holds o rover)) 0x24 7 0 o p) ∧
      order.kind ≠ .supplyEmpty ∧ order.trigger = .once ∧ ¬(u16 3#8 0#8 < twoBays.portCount) ∧
      order.source = some (.port (u16 1#8 0#8)) ∧ order.kind ≠ .store :=
  ⟨fun _ _ h => asksFor _ _ _ _ h, by decide⟩

theorem witness_RetargetChangesTheDestination :
    (∀ (o : Order) (v : Vehicle) (p : List Byte), o.hostTag = 77 →
      asksOrder (asking 0x24#8 (ref ++ p) (holds o v)) 0x24 7 0 o p) ∧
      (order.kind ≠ .supplyEmpty ∧ order.trigger = .once ∧ u16 2#8 0#8 < twoBays.portCount ∧
        order.source ≠ some (.port (u16 2#8 0#8)) ∧ order.dest ≠ some (.port (u16 2#8 0#8)) ∧
        order.dest = some (.port (u16 0#8 0#8)) ∧ order.loc = none ∧ order.state = .queued) ∧
      (∀ st, (aboard st).loc = some (0, .l0) ∧ tblGet (holds (aboard st) active).vht.vehicles 0 = some active) ∧
      (∃ o : Order, o.hostTag = 77 ∧ o.kind = .store ∧ o.trigger = .once ∧ o.state = .held ∧ o.dest = none ∧
        o.targetBay = some (u16 1#8 0#8) ∧ o.targetBay ≠ some (u16 0#8 0#8) ∧ u16 1#8 0#8 < twoBays.bayCount) :=
  ⟨fun _ _ _ h => asksFor _ _ _ _ h, by decide, fun _ => ⟨rfl, rfl⟩,
    { order with kind := .store, state := .held, dest := none, targetBay := some 1 }, by decide⟩

/-- A MISMATCH suspension that has read tag B. -/
def mixed : Order :=
  { aboard .suspended with suspendReason := some .mismatch, readTag := some (.tag [0x42#8]) }

theorem witness_MismatchRetargetResumes :
    (∀ (o : Order) (p : List Byte), o.hostTag = 77 →
      asksOrder (asking 0x24#8 (ref ++ p) (holds o active)) 0x24 7 0 o p) ∧
      (mixed.kind ≠ .supplyEmpty ∧ mixed.trigger = .once ∧ mixed.state = .suspended ∧
        mixed.suspendReason = some .mismatch ∧ mixed.loc = some (0, .l0) ∧ mixed.readTag = some (.tag [0x42#8]) ∧
        mixed.source ≠ some (.port (u16 2#8 0#8)) ∧ u16 2#8 0#8 < twoBays.portCount) ∧
      tblGet (holds mixed active).vht.vehicles 0 = some active ∧
      (∀ p ∈ (holds mixed active).ort.orders, p.1 = 0) ∧
      (∃ p ∈ ([(0, mixed), (1, { order with carrierTag := some [0x42#8] })] : Tbl Order),
        p.1 ≠ 0 ∧ p.2.state.live = true ∧ p.2.carrierTag = some [0x42#8]) ∧
      ({ mixed with readTag := some .unread } : Order).readTag = some .unread ∧
      (({ mixed with readTag := none } : Order).readTag = none ∧ active.load = .empty ∧
        ({ active with load := .tagged [0x42#8] } : Vehicle).load = .tagged [0x42#8]) :=
  ⟨fun _ _ h => asksFor _ _ _ _ h, by decide, rfl, by decide, by decide, rfl, by decide⟩

theorem witness_ResourceByCase :
    (∀ st p, asksOrder (asking 0x25#8 (ref ++ p) (holds (aboard st) active)) 0x25 7 0 (aboard st) p) ∧
      twoBays.portCount ≤ u16 3#8 0#8 ∧ u16 2#8 0#8 < twoBays.portCount ∧
      (aboard .suspended).dest = some (.port (u16 0#8 0#8)) ∧ (aboard .suspended).dest ≠ some (.port (u16 2#8 0#8)) ∧
      (aboard .suspended).loc = some (0, .l0) ∧ active.layer .l0 = .active 0 :=
  ⟨fun _ _ => asksFor _ _ _ _ rfl, by decide⟩

theorem witness_ClearFreesTerminalOrders :
    ∀ st, asksOrder (asking 0x27#8 ref (holds { order with state := st } rover)) 0x27 7 0
      { order with state := st } [] := fun _ => asksFor _ [] _ _ rfl

theorem witness_DemandsAreAcknowledgedAndDropped :
    (∀ t st a, asksOrder (asking 0x28#8 (ref ++ [a]) (holds { order with trigger := t, state := st } rover)) 0x28 7 0
        { order with trigger := t, state := st } [a]) ∧
      (u8 0#8 ≤ 1 ∧ u8 1#8 ≤ 1 ∧ 2 ≤ u8 2#8) ∧
      (∀ t st, asksOrder (asking 0x29#8 ref (holds { order with trigger := t, state := st } rover)) 0x29 7 0
        { order with trigger := t, state := st } []) ∧
      asksOrder (asking 0x29#8 ref (holds { aboard .assigned with trigger := .standing } staged)) 0x29 7 0
        { aboard .assigned with trigger := .standing } [] ∧ staged.layer .l0 = .staged 0 :=
  ⟨fun _ _ _ => asksFor _ _ _ _ rfl, by decide, fun _ _ => asksFor _ [] _ _ rfl, asksFor _ [] _ _ rfl, rfl⟩

theorem witness_StallsAreSetAndCleared :
    (∀ k ∈ [0x30#8, 0x31#8, 0x32#8], ∀ (o : Order) (v : Vehicle), v.fleetId = 214 →
      asksVehicle (asking k [0xD6#8, 0#8] (holds o v)) (u8 k) 7 0 v []) ∧
      (rover.hostStall = false ∧ rover.layer0 = .empty ∧ rover.layer1 = .empty) ∧
      (staged.hostStall = false ∧ staged.layer .l0 = .staged 0 ∧ staged.layer1 = .empty ∧
        tblGet (holds (aboard .assigned) staged).ort.orders 0 = some (aboard .assigned) ∧
        (aboard .assigned).state = .assigned ∧ (aboard .assigned).loc = some (0, .l0)) ∧
      (∃ v : Vehicle, v.fleetId = 214 ∧ v.faultStall = true ∧ v.load ≠ .empty ∧ v.layer0 = .empty ∧
        v.layer1 = .empty) ∧
      (∃ v : Vehicle, v.fleetId = 214 ∧ v.faultStall = true ∧ v.load ≠ .empty ∧ v.layer .l0 = .active 0) ∧
      (∃ v : Vehicle, v.fleetId = 214 ∧ v.hostStall = true ∧ v.faultStall = true ∧ v.load = .empty) :=
  ⟨fun k _ o v h => asksRover k [] o v h, by decide, by decide,
    ⟨{ rover with faultStall := true, load := .unknown }, by decide⟩,
    ⟨{ active with faultStall := true, load := .unknown }, by decide⟩,
    ⟨{ rover with faultStall := true, hostStall := true }, by decide⟩⟩

/-- The vehicle lost, idle and INSIDE bay 1. -/
def gone : State :=
  { holds order { rover with link := .offline .bye } with
    bac := { run.bac with bays := [(0, freshBay), (1, { freshBay with admitted := [⟨0, true, 4000, none⟩] })] } }

theorem witness_VehicleSettingsAndRetire :
    (∀ k ∈ [0x33#8, 0x34#8, 0x36#8], ∀ (p : List Byte) (o : Order) (v : Vehicle), v.fleetId = 214 →
      asksVehicle (asking k (0xD6#8 :: 0#8 :: p) (holds o v)) (u8 k) 7 0 v p) ∧
      (u8 0#8 = 0 ∧ u8 1#8 = 1 ∧ 2 ≤ u8 2#8) ∧ rover.faultStall = false ∧
      (∃ v : Vehicle, v.fleetId = 214 ∧ v.faultStall = true) ∧
      (∃ v : Vehicle, v.fleetId = 214 ∧ v.link ≠ .online ∧ v.layer0 = .empty ∧ v.layer1 = .empty) ∧
      (∃ v : Vehicle, v.fleetId = 214 ∧ v.link ≠ .online ∧ v.layer0 ≠ .empty) ∧
      (tblWf run.bac.bays = true ∧ ∀ e ∈ run.bac.bays, ∀ w ∈ e.2.queue, w.slot ≠ 0) ∧
      (∀ f ∈ [[0#8, 0#8], [255#8, 255#8], [254#8, 255#8]],
        askedRunning (asking 0x36#8 f run) 0x36 7 f ∧ requestFits 0x36 f = true) ∧
      hostRow 0x36 = some .vehicleRetire ∧ u16 0#8 0#8 = 0 ∧ u16 255#8 255#8 = 65535 ∧
      (0 < u16 254#8 255#8 ∧ u16 254#8 255#8 < 65535 ∧ slotOf run.vht (u16 254#8 255#8) = none) ∧
      (asksVehicle (asking 0x36#8 [0xD6#8, 0#8] gone) 0x36 7 0 { rover with link := .offline .bye } [] ∧
        (∃ y, tblGet gone.bac.bays 1 = some y ∧ ∃ a ∈ y.admitted, a.slot = 0) ∧
        ∀ e ∈ gone.bac.bays, e.1 ≠ 1 → ∀ a ∈ e.2.admitted, a.slot ≠ 0) :=
  ⟨fun k _ p o v h => asksRover k p o v h, by decide, rfl, ⟨{ rover with faultStall := true }, by decide⟩,
    ⟨{ rover with link := .offline .bye }, by decide⟩, ⟨{ active with link := .offline .bye }, by decide⟩,
    by decide, fun f hf => ⟨asksRun _ _, by revert f; decide⟩, by decide, by decide, by decide, by decide,
    ⟨0xD6#8, 0#8, ⟨rfl, asks 0x36#8 _ _ ⟨rfl, rfl⟩⟩, by decide, by decide, by decide, rfl⟩, ⟨_, rfl, by decide⟩,
    by decide⟩

theorem witness_QueriesChangeNothing :
    requestWaits (asking 0x3D#8 [0#8] State.reset) 0x3D 7 [0#8] ∧
      (∀ k ∈ [0x35#8, 0x39#8], ∀ p, askedRunning (asking k p (holds order rover)) (u8 k) 7 p) ∧
      (slotOf (holds order rover).vht (u16 0xD6#8 0#8) = some 0 ∧ tblGet (holds order rover).vht.vehicles 0 = some rover) ∧
      slotOf (holds order rover).vht (u16 0xD7#8 0#8) = none ∧
      (u16 63#8 0#8 < 64 ∧ tblGet (holds order rover).vht.vehicles (u16 63#8 0#8) = none ∧ 64 ≤ u16 64#8 0#8) ∧
      (u16 255#8 3#8 ≤ 1023 ∧ 1023 < u16 0#8 4#8 ∧ tblGet run.lyt.bays (u16 1#8 0#8) ≠ none ∧
        tblGet run.lyt.bays (u16 2#8 0#8) = none ∧ 2 ≤ u8 2#8) ∧
      rackOf run.lyt (u16 21#8 0#8) ≠ none ∧ rackOf run.lyt (u16 22#8 0#8) = none :=
  ⟨asks _ _ _ ⟨rfl, rfl⟩, fun k _ p => ⟨rfl, asks k p _ ⟨rfl, rfl⟩⟩, by decide⟩

theorem witness_CaptureHoldsTheFirstIncident :
    (IncidentClass.noTake.fatal = false ∧ IncidentClass.strayLoad.fatal = true) ∧ run.fcr.capture = none ∧
      requestWaits (asking 0x3F#8 [0#8] State.reset) 0x3F 7 [0#8] ∧
      requestWaits (asking 0x37#8 [0#8] State.reset) 0x37 7 [0#8] :=
  ⟨by decide, rfl, asks _ _ _ ⟨rfl, rfl⟩, asks _ _ _ ⟨rfl, rfl⟩⟩

/-- The sequencer in a state, with trigger B on. -/
def surveying (st : SurveyState) : State := { run with iss := { run.iss with state := st, bOn := true } }

theorem witness_SurveyRequestsByState :
    (∀ st, ∀ k ∈ [0x3A#8, 0x3B#8, 0x3C#8], ∀ p, askedRunning (asking k p (surveying st)) (u8 k) 7 p) ∧
      (surveyModeOf (u8 3#8) = some .rangeRepeat ∧ u8 0#8 < twoBays.bayCount ∧ u8 1#8 < twoBays.bayCount ∧
        u8 0#8 ≤ u8 1#8 ∧ u16 1#8 0#8 ≠ 0 ∧ u8 15#8 ≤ 15 ∧ 1 ≤ u8 1#8 ∧ u8 16#8 ≤ 16) ∧
      (¬(u8 4#8 ≤ 3) ∧ ¬(u8 2#8 < twoBays.bayCount) ∧ u16 0#8 0#8 = 0 ∧ ¬(u8 16#8 ≤ 15) ∧ ¬(1 ≤ u8 0#8) ∧
        ¬(u8 17#8 ≤ 16)) :=
  ⟨fun _ k _ p => ⟨rfl, asks k p _ ⟨rfl, rfl⟩⟩, by decide, by decide⟩

theorem witness_SurveyPassesThroughItsBays :
    (∃ s : State, s.iss.timer = some ⟨4400, 5000⟩ ∧ s.now = 5000) ∧
      (∃ s : State, s.iss.bOn = true ∧ s.iss.state = .armed ∧ s.iss.everyM ≤ s.iss.stepCount) ∧
      (∀ st, (surveying st).iss.bOn = true) ∧
      (bayOpen (surveying .surveying).bac 0 = true ∧
        supply (surveying .surveying).vht 0 < quotaOf (surveying .surveying).bac 0) ∧
      (∃ s : State, s.iss.state = .surveying ∧ bayOpen s.bac s.iss.current = false) ∧
      (∃ s : State, s.iss.state = .surveying ∧ bayOpen s.bac s.iss.current = true ∧
        supply s.vht s.iss.current < quotaOf s.bac s.iss.current ∧ tblWf s.vht.vehicles = true ∧
        ∃ e ∈ s.vht.vehicles, Donor s s.iss.current e.2) ∧
      (∃ s : State, reportsActive (reporting 0x57#8 [0#8, 0#8, 0#8, 0#8] s) 0x57 0 active [0#8, 0#8, 0#8, 0#8] 0
          (aboard .placing) ∧ (aboard .placing).dest = some (.port (u16 0#8 0#8)) ∧ s.iss.bOn = true ∧
        s.iss.state = .armed ∧ s.iss.skipLeft = 0 ∧ s.iss.everyM = s.iss.stepCount + 1) := by
  refine ⟨⟨{ run with iss := { run.iss with timer := some ⟨4400, 5000⟩ } }, rfl, rfl⟩,
    ⟨{ run with iss := { run.iss with state := .armed, bOn := true, stepCount := 4 } }, by decide⟩, fun _ => rfl,
    by decide, ⟨{ surveying .surveying with bac := { run.bac with bays := [] } }, rfl, rfl⟩,
    ⟨{ surveying .surveying with
      vht := { run.vht with vehicles := [(0, { rover with position := ⟨255, 0, 0⟩ })] } }, rfl, by decide, by decide,
      by decide, _, .head _, ⟨rfl, rfl, rfl, rfl, rfl, rfl, .inl rfl⟩⟩,
    { holds (aboard .placing) active with
      iss := { run.iss with state := .armed, bOn := true, everyM := 1 } },
    ⟨⟨⟨_, _, _, [], rfl, rfl, rfl⟩, rfl, rfl⟩, rfl, .l0, rfl, ?_, rfl⟩, rfl, rfl, rfl, rfl, rfl⟩
  exact fun g h => absurd (show Layer.empty = .active g from h) (by simp)

theorem witness_HelloEnrollsAnUnknownVehicle :
    (∀ f0 f1 : Byte, ∀ z : Byte, ∃ r, r.zone = u8 z ∧ r.load = .empty ∧
      helloWaits { run with liu := { run.liu with fleetIn := [[0x51#8, f0, f1, z, 0#8, 0#8, 0#8, 0#8]] } } (u16 f0 f1)
        r) ∧
      (u16 0#8 0#8 = 0 ∧ u16 255#8 255#8 = 65535 ∧ 0 < u16 1#8 0#8 ∧ u16 254#8 255#8 < 65535) ∧
      (u8 1#8 < twoBays.bayCount ∧ u8 255#8 = 255 ∧ ¬(u8 2#8 < twoBays.bayCount ∨ u8 2#8 = 255)) ∧
      (slotOf run.vht 214 = none ∧ tblGet run.vht.vehicles 0 = none ∧ notAdmitted run 0) ∧
      (∃ t : Tbl Vehicle, (∀ k, k < 64 → tblGet t k ≠ none) ∧ t.find? (fun e => e.2.fleetId == 1) = none) ∧
      (slotOf (holds order rover).vht 214 = some 0 ∧ tblGet (holds order rover).vht.vehicles 0 = some rover) := by
  refine ⟨fun f0 f1 z => ⟨⟨u8 z, 0, .empty⟩, rfl, rfl, rfl, 0x51#8, f0, f1, _, [], rfl, rfl, rfl, ?_⟩, by decide,
    by decide, ⟨rfl, rfl, ?_⟩, ⟨(List.range 64).map (fun k => (k, rover)), by decide, by decide⟩, by decide⟩
  · simp [decodeHello, decodeLoad, loadOfCode, u16, u8]
  · intro e he a ha
    simp [run, freshBay] at he
    rcases he with rfl | rfl <;> simp at ha

/-- The vehicle lost with the order suspended on it. -/
def lost : Vehicle := { active with link := .offline .silent }

theorem witness_HelloReenrollsAKnownVehicle :
    (∀ v ∈ [rover, lost, { rover with link := .offline .bye }], ∀ z ∈ [1#8, 255#8], ∀ p ∈
      [[0#8, 0#8], [1#8, 1#8, 1#8, 0x41#8], [2#8, 0#8]], ∃ r,
      helloWaits (reporting 0x51#8 (z :: 0#8 :: 0#8 :: p) (holds (aboard .suspended) v)) 214 r ∧
        (r.zone < twoBays.bayCount ∨ r.zone = 255) ∧ encodeLoad r.load = p) ∧
      (∀ v ∈ [rover, lost, { rover with link := .offline .bye }], v.fleetId = 214 ∧
        slotOf (holds (aboard .suspended) v).vht 214 = some 0 ∧ tblWf (holds (aboard .suspended) v).vht.vehicles = true) ∧
      (lost.layer .l0 = .active 0 ∧ lost.layer1 = .empty ∧ (aboard .suspended).loc = some (0, .l0) ∧
        (aboard .suspended).carrierTag = some [0x41#8]) ∧
      ((∃ a, entryIn gone.bac 1 0 = some a ∧ a.inside = true) ∧ (∀ e ∈ run.bac.bays, e.2.admitted = []) ∧
        tblWf gone.bac.bays = true ∧ ∀ e ∈ gone.bac.bays, e.1 ≠ 1 → e.2.admitted = []) := by
  refine ⟨fun v _ z hz p hp => ?_, by decide, by decide, ⟨_, rfl, rfl⟩, by decide, by decide, by decide⟩
  simp only [List.mem_cons, List.not_mem_nil, or_false] at hz hp
  rcases hz with rfl | rfl <;> rcases hp with rfl | rfl | rfl <;>
    exact ⟨_, ⟨rfl, 0x51#8, 0xD6#8, 0#8, _, [], rfl, rfl, rfl, rfl⟩, by decide, by decide⟩

/-- Bay 1 with vehicle 0 in its admitted set. -/
def within (inside : Bool) : State :=
  { holds order rover with
    bac := { run.bac with
      bays := [(0, freshBay), (1, { freshBay with
        admitted := [⟨0, inside, 4000, if inside then none else some ⟨4000, 5000⟩⟩] })] } }

theorem reportsWithin (k : Byte) (p : List Byte) (b : Bool) :
    reportWaits (reporting k p (within b)) (u8 k) 0 rover p := ⟨⟨k, 0xD6#8, 0#8, [], rfl, rfl, rfl⟩, rfl, rfl⟩

theorem witness_PositionsMoveTheVehicle :
    (∀ p, reportWaits (reporting 0x52#8 p (holds order rover)) 0x52 0 rover p) ∧
      (∀ b p, reportWaits (reporting 0x52#8 p (within b)) 0x52 0 rover p) ∧
      (¬(u8 2#8 < twoBays.bayCount ∨ u8 2#8 = 255) ∧ u8 1#8 < twoBays.bayCount ∧ u8 1#8 ≠ 255 ∧ u8 255#8 = 255) ∧
      (zoneLength twoBays 1 ≤ u16 0x84#8 3#8 ∧ ¬(zoneLength twoBays 1 ≤ u16 0x83#8 3#8)) ∧
      (∀ b, ∃ y a, tblGet (within b).bac.bays 1 = some y ∧ y.admitted.find? (fun e => e.slot == 0) = some a ∧
        a.inside = b) ∧
      (tblWf run.bac.bays = true ∧ tblGet run.bac.bays 1 = some freshBay ∧ ∀ a ∈ freshBay.admitted, a.slot ≠ 0) ∧
      reportWaits (reporting 0x5E#8 [0#8] (holds order rover)) 0x5E 0 rover [0#8] :=
  ⟨fun _ => reports _ _ _ _ rfl rfl, fun b _ => reportsWithin _ _ b, by decide, by decide, fun _ => ⟨_, _, rfl, rfl, rfl⟩,
    by decide, reports _ _ _ _ rfl rfl⟩

/-- Vehicle 0 in bay 1's queue. -/
def waitingFor (v : Vehicle) (o : Order) (starved : Bool) : State :=
  { holds o v with
    bac := { run.bac with
      bays := [(0, freshBay), (1, { freshBay with
        isOpen := false, queue := [⟨0, false, 4000, starved, if starved then none else some ⟨4000, 4600⟩⟩] })] } }

theorem witness_TakenOrStale :
    reportWaits (reporting 0x53#8 [0#8, 0#8] (holds (aboard .assigned) staged)) 0x53 0 staged [0#8, 0#8] ∧
      (u8 0#8 = 0 ∧ staged.layer .l0 = .staged 0 ∧ (∀ g, staged.layer LayerId.l0.other ≠ .active g) ∧
        (aboard .assigned).abortPending = false) ∧
      (reportWaits (reporting 0x53#8 [0#8, 0#8] (waitingFor staged (aboard .assigned) true)) 0x53 0 staged
          [0#8, 0#8] ∧
        (∀ e ∈ (waitingFor staged (aboard .assigned) true).bac.bays, e.1 ≠ 1 → e.2.queue = []) ∧
        tblWf (waitingFor staged (aboard .assigned) true).bac.bays = true ∧
        ∃ y, tblGet (waitingFor staged (aboard .assigned) true).bac.bays 1 = some y ∧ (∃ w ∈ y.queue, w.slot = 0) ∧
          ∀ w ∈ y.queue, w.slot = 0 → w.starved = true) ∧
      (∀ l ∈ [1#8, 2#8], reportWaits (reporting 0x53#8 [0#8, l] (holds (aboard .assigned) staged)) 0x53 0 staged
        [0#8, l]) ∧ staged.layer .l1 ≠ .staged (u8 0#8) ∧
      (reportWaits (reporting 0x54#8 [0#8] (holds (aboard .assigned) staged)) 0x54 0 staged [0#8] ∧
        fleetRow 0x54 [0#8] = some .pickBegin ∧ staged.layer0 ≠ .active (u8 0#8) ∧ staged.layer1 ≠ .active (u8 0#8)) :=
  ⟨reports _ _ _ _ rfl rfl, ⟨rfl, rfl, fun _ => by simp [staged, rover, Vehicle.layer, LayerId.other], rfl⟩,
    ⟨⟨⟨_, _, _, [], rfl, rfl, rfl⟩, rfl, rfl⟩, by decide, by decide, _, rfl, by decide, by decide⟩,
    fun _ _ => reports _ _ _ _ rfl rfl, by decide, reports _ _ _ _ rfl rfl, by decide⟩

theorem witness_PicksBeginAndEnd :
    (∀ st, reportsActive (reporting 0x54#8 [0#8] (holds (aboard st) active)) 0x54 0 active [0#8] 0 (aboard st)) ∧
      (∀ st p, reportsActive (reporting 0x55#8 p (holds (aboard st) active)) 0x55 0 active p 0 (aboard st)) ∧
      decodePickEnd [0#8, 0#8] = some ⟨0, none⟩ ∧ decodePickEnd [0#8, 1#8, 1#8, 0x41#8] = some ⟨0, some [0x41#8]⟩ ∧
      (∀ st, (aboard st).carrierTag = some [0x41#8]) ∧
      (∀ c, reportsActive (reporting 0x55#8 [0#8, 0#8]
          (holds (aboard .cancelling) { active with faultStall := true, lastFault := some (c, .noTake) })) 0x55 0
          { active with faultStall := true, lastFault := some (c, .noTake) } [0#8, 0#8] 0 (aboard .cancelling) ∧
        faultClassOf { active with faultStall := true, lastFault := some (c, .noTake) } = c) :=
  ⟨fun _ => reportsOn _ _ _ _ ⟨rfl, rfl⟩ rfl rfl, fun _ _ => reportsOn _ _ _ _ ⟨rfl, rfl⟩ rfl rfl, by decide, by decide,
    fun _ => rfl, fun _ => ⟨reportsOn _ _ _ _ ⟨rfl, rfl⟩ rfl rfl, rfl⟩⟩

theorem witness_PlacementsBeginAndEnd :
    (∀ st p, ∀ k ∈ [0x56#8, 0x57#8],
      reportsActive (reporting k p (holds (aboard st) active)) (u8 k) 0 active p 0 (aboard st)) ∧
      (∀ st, (aboard st).dest = some (.port (u16 0#8 0#8)) ∧ (aboard st).dest ≠ some (.port (u16 2#8 0#8)) ∧
        (aboard st).prior ≠ some (.port (u16 2#8 0#8))) ∧ u8 0#8 = 0 ∧ 2 ≤ u8 2#8 ∧
      (∃ o : Order, o.state = .carrying ∧ o.loc = some (0, .l0) ∧ o.dest ≠ some (.shelf (u16 3#8 0#8)) ∧
        o.prior = some (.shelf (u16 3#8 0#8))) :=
  ⟨fun _ _ _ _ => reportsOn _ _ _ _ ⟨rfl, rfl⟩ rfl rfl,
    fun st => ⟨rfl, fun h => absurd (show some (Endpoint.port 0) = some (.port (u16 2#8 0#8)) from h) (by decide),
      fun h => absurd (show none = some (Endpoint.port (u16 2#8 0#8)) from h) (by decide)⟩, rfl, by decide,
    { aboard .carrying with prior := some (.shelf 3) }, by decide⟩

theorem witness_AbortsAreAnswered :
    ∀ st a, ∀ k ∈ [0x58#8, 0x59#8],
      reportsActive (reporting k [0#8] (holds { aboard st with abortPending := a } active)) (u8 k) 0 active [0#8] 0
        { aboard st with abortPending := a } :=
  fun _ _ k _ => ⟨reports k [0#8] _ _ rfl rfl, rfl, .l0, rfl,
    fun g => by simp [active, rover, Vehicle.layer, LayerId.other], rfl⟩

/-- The vehicle with order 0 ACTIVE and order 1 STAGED. -/
def both (st : OrderState) : State :=
  { holds (aboard st) { active with layer1 := .staged 1 } with
    ort := { run.ort with orders := [(0, aboard st), (1, { order with state := .assigned, loc := some (0, .l1) })] } }

theorem both_waits (st : OrderState) : otherLayerWaits (both st) 0 { active with layer1 := .staged 1 } .l0 0 :=
  .inr ⟨1, _, rfl, by decide, rfl, rfl, rfl⟩

theorem witness_FaultStallsTheVehicle :
    (∀ sv c, reportWaits (reporting 0x5A#8 [sv, c] (holds order rover)) 0x5A 0 rover [sv, c]) ∧
      (∀ sv c, reportWaits (reporting 0x5A#8 [sv, c] (holds (aboard .assigned) staged)) 0x5A 0 staged [sv, c]) ∧
      (∀ st sv c, reportWaits (reporting 0x5A#8 [sv, c] (both st)) 0x5A 0 { active with layer1 := .staged 1 }
        [sv, c] ∧ otherLayerWaits (both st) 0 { active with layer1 := .staged 1 } .l0 0) ∧
      u8 0#8 = 0 ∧ u8 1#8 ≠ 0 :=
  ⟨fun _ _ => reports _ _ _ _ rfl rfl, fun _ _ => reports _ _ _ _ rfl rfl,
    fun st _ _ => ⟨⟨⟨_, _, _, [], rfl, rfl, rfl⟩, rfl, rfl⟩, both_waits st⟩, rfl, by decide⟩

theorem witness_ReadyRecoversTheVehicle :
    (∀ p o v, v.fleetId = 214 → v.link = .online → reportWaits (reporting 0x5B#8 p (holds o v)) 0x5B 0 v p) ∧
      decodeLoad [2#8, 0#8] = some .unknown ∧ decodeLoad [0#8, 0#8] = some .empty ∧
      decodeLoad [1#8, 1#8, 1#8, 0x41#8] = some (.tagged [0x41#8]) ∧
      (rover.load = .empty ∧ rover.layer0 = .empty ∧ rover.layer1 = .empty) ∧
      (active.layer .l0 = .active 0 ∧ (aboard .suspended).loc = some (0, .l0) ∧
        (aboard .suspended).carrierTag = some [0x41#8] ∧ mixed.suspendReason = some .mismatch ∧
        (aboard .suspended).suspendReason ≠ some .mismatch) :=
  ⟨fun _ _ _ h hl => reports _ _ _ _ h hl, by decide⟩

theorem witness_LostVehiclesGiveUpTheirWork :
    (tblWf run.bac.bays = true ∧ ∀ e ∈ run.bac.bays, (e.2.admitted.map (fun a => a.slot)).Nodup) ∧
      (∀ o v, v.fleetId = 214 → v.link = .online → reportWaits (reporting 0x5F#8 [0#8] (holds o v)) 0x5F 0 v [0#8]) ∧
      (∃ v : Vehicle, v.link = .online ∧ v.silence = some ⟨4950, 5000⟩ ∧ tblGet (holds order v).vht.vehicles 0 = some v) ∧
      (∀ st, otherLayerWaits (both st) 0 { active with layer1 := .staged 1 } .l0 0) :=
  ⟨by decide, fun _ _ h hl => reports _ _ _ _ h hl, ⟨{ rover with silence := some ⟨4950, 5000⟩ }, rfl, rfl, rfl⟩,
    both_waits⟩

/-- Bay 1 closed, with vehicle 0 inside. -/
def shutWithin : State :=
  { holds order rover with
    bac := { run.bac with
      bays := [(0, freshBay), (1, { freshBay with isOpen := false, admitted := [⟨0, true, 4000, none⟩] })] } }

theorem witness_EntryIsAskedFor :
    (∀ b, reportWaits (reporting 0x5C#8 [b] (holds order rover)) 0x5C 0 rover [b]) ∧
      (∀ b, reportWaits (reporting 0x5C#8 [1#8] (within b)) 0x5C 0 rover [1#8]) ∧
      (reportWaits (reporting 0x5C#8 [1#8] (waitingFor rover order false)) 0x5C 0 rover [1#8]) ∧
      (twoBays.bayCount ≤ u8 2#8 ∧ u8 1#8 < twoBays.bayCount ∧ u8 0#8 < twoBays.bayCount) ∧
      (tblGet run.bac.bays (u8 1#8) = some freshBay ∧ freshBay.isOpen = true ∧
        freshBay.admitted.length < freshBay.capacity ∧ freshBay.queue = []) ∧
      (notAdmitted run 0 ∧ notWaiting run 0) ∧
      (∀ b, ∃ y, tblGet (within b).bac.bays 1 = some y ∧ y.isOpen = true ∧ y.queue = [] ∧
        (∃ e ∈ y.admitted, e.slot = 0) ∧ (y.admitted.filter (fun e => e.slot != 0)).length < y.capacity) ∧
      (∃ y, tblGet (waitingFor rover order false).bac.bays 1 = some y ∧ (∃ w ∈ y.queue, w.slot = 0)) ∧
      (∃ y : BayState, y.isOpen = false ∧ y.queue = []) ∧
      (reportWaits (reporting 0x5C#8 [0#8] (waitingFor rover order false)) 0x5C 0 rover [0#8] ∧
        tblWf (waitingFor rover order false).bac.bays = true ∧
        (∀ e ∈ (waitingFor rover order false).bac.bays, e.1 ≠ 1 → ∀ w ∈ e.2.queue, w.slot ≠ 0) ∧
        ∀ e ∈ (waitingFor rover order false).bac.bays, e.2.admitted = []) ∧
      (reportWaits (reporting 0x5C#8 [1#8] shutWithin) 0x5C 0 rover [1#8] ∧ tblWf shutWithin.bac.bays = true ∧
        (∀ e ∈ shutWithin.bac.bays, e.2.queue = [] ∧ (e.1 ≠ 1 → e.2.admitted = [])) ∧
        ∃ y, tblGet shutWithin.bac.bays 1 = some y ∧ y.isOpen = false ∧ ∃ e ∈ y.admitted, e.slot = 0) := by
  refine ⟨fun _ => reports _ _ _ _ rfl rfl, fun b => reportsWithin _ _ b, ⟨⟨_, _, _, [], rfl, rfl, rfl⟩, rfl, rfl⟩,
    by decide, by decide, ⟨?_, ?_⟩, by decide, ⟨_, rfl, by decide⟩, ⟨{ freshBay with isOpen := false }, rfl, rfl⟩,
    ⟨⟨⟨_, _, _, [], rfl, rfl, rfl⟩, rfl, rfl⟩, by decide, by decide, by decide⟩,
    ⟨⟨_, _, _, [], rfl, rfl, rfl⟩, rfl, rfl⟩, by decide, by decide, _, rfl, by decide⟩ <;>
  · intro e he a ha
    simp [run, freshBay] at he
    rcases he with rfl | rfl <;> simp at ha

theorem witness_PlacesAreGivenUp :
    (∀ b, reportWaits (reporting 0x5D#8 [1#8] (within b)) 0x5D 0 rover [1#8]) ∧
      (∀ b, reportWaits (reporting 0x5D#8 [b] (holds order rover)) 0x5D 0 rover [b]) ∧
      tblGet run.bac.bays (u8 1#8) = some freshBay ∧ freshBay.admitted = [] ∧
      (∃ y a, tblGet (within false).bac.bays 1 = some y ∧ y.admitted.find? (fun e => e.slot == 0) = some a ∧
        a.inside = false ∧ a.lapse = some ⟨4000, 5000⟩) ∧
      tblGet (within false).vht.vehicles 0 = some rover :=
  ⟨fun b => reportsWithin _ _ b, fun _ => reports _ _ _ _ rfl rfl, rfl, rfl, ⟨_, _, rfl, rfl, rfl, rfl⟩, rfl⟩

/-- Bay 1 full with the idle vehicle 0 in it and vehicle 5 in its queue, its yield timer due. -/
def pressed : State :=
  { within true with
    bac := { run.bac with
      bays := [(0, freshBay), (1, { freshBay with
        capacity := 1, admitted := [⟨0, true, 4000, none⟩], queue := [⟨5, false, 4000, false, none⟩]
        yield := some ⟨4850, 5000⟩ })] } }

theorem witness_BayTimersEvictAndStarve :
    (∃ y, tblGet pressed.bac.bays 1 = some y ∧ y.yield = some ⟨4850, 5000⟩ ∧ Evictable y 0 rover ∧
      (∀ k w, tblGet pressed.vht.vehicles k = some w → k = 0 ∧ w = rover)) ∧
      (tblWf pressed.vht.vehicles = true ∧ tblWf pressed.bac.bays = true ∧ EvictionTarget pressed 1 0 ∧
        ∀ d, EvictionTarget pressed 1 d → d = 0) ∧
      (∀ c, ¬EvictionTarget { pressed with bac := { pressed.bac with bays := pressed.bac.bays.tail } } 1 c) ∧
      (∀ v ∈ [rover, active, { rover with activity := .repositioning, target := some 1 }],
        ∃ y w, tblGet (waitingFor v (aboard .toSource) false).vht.vehicles 0 = some v ∧
          tblGet (waitingFor v (aboard .toSource) false).bac.bays 1 = some y ∧
          y.queue.find? (fun e => e.slot == 0) = some w ∧ w.starve = some ⟨4000, 4600⟩) := by
  refine ⟨⟨_, rfl, rfl, ⟨⟨_, rfl, rfl⟩, rfl, rfl, rfl, rfl, rfl, rfl⟩, fun k w h => ?_⟩,
    ⟨by decide, by decide, ⟨by decide, _, rfl, by decide⟩, fun d h => ?_⟩, fun c h => ?_,
    fun v _ => ⟨_, _, rfl, rfl, rfl, rfl⟩⟩
  · simp only [pressed, within, holds, tblGet] at h
    split at h
    · rename_i hk; exact ⟨hk.symm, (Option.some.inj h).symm⟩
    · exact absurd h (by simp)
  · obtain ⟨hd, y, hy, -, -⟩ := h
    simp only [pressed, tblGet] at hy
    split at hy
    · rename_i hk; exact hk.symm
    · split at hy
      · rename_i hk; exact absurd hk.symm hd
      · exact absurd hy (by simp)
  · obtain ⟨hd, y, hy, -, -⟩ := h
    simp only [pressed, List.tail, tblGet] at hy
    split at hy
    · rename_i hk; exact absurd hk.symm hd
    · exact absurd hy (by simp)

theorem witness_EvaluationTakesTheStagesInOrder :
    (∃ s : State, ∃ b ∈ orderBays s.lyt order, bayOpen s.bac b = false) ∧
      (∃ l : Layout, ∃ p ∈ endpointPort order.source ++ endpointPort order.dest, portOpen l p = false) ∧
      ((∀ b ∈ orderBays run.lyt order, bayOpen run.bac b = true) ∧
        ∀ p ∈ endpointPort order.source ++ endpointPort order.dest, portOpen run.lyt p = true) ∧
      (∀ e ∈ run.vht.vehicles, candidateOf run order e.1 e.2 = none) ∧
      (∃ e ∈ (holds order rover).vht.vehicles, candidateOf (holds order rover) order e.1 e.2 ≠ none) ∧
      (resolveShelf (holds order rover) { order with kind := .supplyEmpty, source := none } = .missing .noEmpty ∧
        ∀ r, resolveShelf (holds order rover) order ≠ .missing r) ∧
      (∀ c ∈ candidates (holds order rover) order, costOf (holds order rover) order.source c = 425) ∧
      candidates (holds order rover) order ≠ [] ∧ tblWf (holds order rover).vht.vehicles = true ∧
      (rover.layer0 = .empty ∧ rover.layer1 = .empty ∧ rover.activity = .idle) ∧
      candidateOf (holds (aboard .assigned) staged) { order with cls := .hot } 0 staged =
        some { slot := 0, vehicle := { rover with takeTimer := some ⟨4000, 4030⟩ }, displaces := some .l0 } ∧
      (∃ v : Vehicle, v.layer0 = .empty ∧ v.layer1 = .empty ∧ v.activity = .repositioning) ∧
      (∃ o : Order, o.state = .carrying ∧ o.etaDone = some 5200 ∧ active.layer .l0 = .active 0 ∧
        active.layer1 = .empty ∧ active.activity ≠ .idle ∧ (stopOf? run.lyt o.dest).isSome = true) := by
  refine ⟨⟨{ run with bac := { run.bac with bays := [] } }, by decide⟩, ⟨{ twoBays with ports := [] }, by decide⟩,
    by decide, by decide, ⟨_, .head _, by decide⟩, ⟨by decide, fun r => ?_⟩, by decide, by decide, by decide, by decide,
    by decide, ⟨{ rover with activity := .repositioning, target := some 0 }, by decide⟩,
    { aboard .carrying with etaDone := some 5200 }, by decide⟩
  rw [show resolveShelf (holds order rover) order = .notNeeded from by decide]; simp

/-- Bay 0 with a hot reserve of 2 and an empty reserve of 3: pool indices 0 to 4 general, 5 to 7 for empties, 8 and 9
hot. -/
def reserved (shelves : Tbl Shelf) : State :=
  { run with shm := { shelves := shelves, reserves := [(0, ⟨2, 3, false⟩)] } }

/-- The records of general shelves 0 to 4 filled. -/
def generalFull : Tbl Shelf := (List.range 5).map (fun k => (k, ⟨.held, none, false, none⟩))

theorem witness_ShelvesAreSearchedInOrder :
    (∃ y, tblGet run.lyt.bays 0 = some y ∧ (2 : Nat) + 3 ≤ y.rackCount ∧
      FirstShelf (reserved []) y 0 (emptyFrom (reserved []) 0 y) isFree 0 ∧
      NoShelf (reserved generalFull) y 0 (emptyFrom (reserved generalFull) 0 y) isFree ∧
      FirstShelf (reserved generalFull) y (hotFrom (reserved generalFull) 0 y) y.rackCount isFree 8) ∧
      (∀ e ∈ run.lyt.bays, (reserveOf (reserved []).shm e.1).hot + (reserveOf (reserved []).shm e.1).empty ≤
        e.2.rackCount) ∧
      (stopOf? run.lyt (some (.port 0))).isSome = true ∧
      OffersReturn (reserved []) 0 5 ∧ (∀ c k, ¬OffersReturn run c k) ∧
      OffersSupply (reserved [(6, ⟨.held, none, true, none⟩)]) 0 6 ∧ (∀ c k, ¬OffersSupply run c k) ∧
      [resolveShelf (reserved []) { order with kind := .returnEmpty, source := some (.port 0), dest := none },
        resolveShelf (reserved [(6, ⟨.held, none, true, none⟩)])
          { order with kind := .supplyEmpty, source := none, dest := some (.port 0) },
        resolveShelf (reserved generalFull)
          { order with kind := .store, cls := .hot, dest := none, targetBay := some 0 }] =
        [.found 5, .found 6, .found 8] := by
  refine ⟨⟨_, rfl, by decide, ⟨0, by decide, by decide, rfl, rfl, fun j _ h => absurd h (by omega)⟩, ?_,
      8, by decide, by decide, rfl, rfl, fun j h1 h2 => ?_⟩, by decide, by decide,
    ⟨rfl, _, rfl, 5, by decide, by decide, rfl, rfl, fun j h1 h2 => ?_⟩, fun c k => ?_,
    ⟨rfl, _, rfl, .inl ⟨6, by decide, by decide, rfl, ⟨rfl, rfl⟩, fun j h1 h2 => ?_⟩⟩, fun c k => ?_, by decide⟩
  · show ∀ i, 0 ≤ i → i < 5 → (shelfAt (reserved generalFull).shm (0 + i)).state ≠ .free
    intro i _ h
    revert i
    decide
  · have h : j < 8 := h2
    have : (8 : Nat) ≤ j := h1
    omega
  · have h : j < 5 := h2
    have : (5 : Nat) ≤ j := h1
    omega
  · rintro ⟨-, y, -, i, h1, h2, -⟩
    have h : y.rackCount - 0 - 0 ≤ i := h1
    have : i < y.rackCount - 0 := h2
    omega
  · have h : j < 6 := h2
    have : (5 : Nat) ≤ j := h1
    obtain rfl : j = 5 := by omega
    rintro ⟨h, -⟩
    exact absurd h (by decide)
  · rintro ⟨-, y, -, ⟨i, -, -, -, ⟨h, -⟩, -⟩ | ⟨-, i, -, -, -, ⟨h, -⟩, -⟩⟩ <;>
    exact absurd h (by simp [shelfAt, run, tblGet, State.reset, ShelfMap.reset, freeShelf])

/-- The order QUEUED and about to be examined. -/
def examined : State := { holds order rover with asa := { run.asa with examPending := true } }

/-- A HOT order 1 behind which the staged order 0 is displaced. -/
def displacing : State :=
  { holds (aboard .assigned) staged with
    ort := { run.ort with orders := [(0, aboard .assigned), (1, { order with cls := .hot, seq := 2 })] }
    asa := { run.asa with examPending := true } }

theorem witness_GrantStepServesTheFirstServableOrder :
    (State.reset.lyt.opState ≠ .running ∧ run.asa.examPending = false) ∧
      (TablesCanonical examined ∧ examined.lyt.opState = .running ∧ examined.asa.examPending = true) ∧
      (tblGet examined.ort.orders 0 = some order ∧ order.state = .queued ∧
        ∃ g, evaluate examined order = .servable g ∧ g.cand.displaces = none) ∧
      (evaluate { examined with vht := run.vht } order = .waits .noVehicle) ∧
      (TablesCanonical displacing ∧ displacing.asa.examPending = true ∧
        ∃ g, evaluate displacing { order with cls := .hot, seq := 2 } = .servable g ∧ g.cand.displaces = some .l0 ∧
          staged.layer .l0 = .staged 0 ∧ tblGet displacing.ort.orders 0 = some (aboard .assigned)) :=
  ⟨by decide, ⟨canonical_of _ (by decide) (by decide) ⟨rfl, rfl, rfl, rfl⟩, rfl, rfl⟩,
    ⟨rfl, rfl, _, rfl, rfl⟩, by decide,
    canonical_of _ (by decide) (by decide) ⟨rfl, rfl, rfl, rfl⟩, rfl, _, rfl, rfl, rfl, rfl⟩

theorem witness_TimersExpire :
    (∃ s : State, s.asa.rescan = some ⟨4990, 5000⟩ ∧ s.now = 5000 ∧ ∃ e ∈ s.ort.orders, e.2.state = .queued) ∧
      (∃ s : State, s.asa.rescan = some ⟨4990, 5000⟩ ∧ s.now = 5000 ∧ ∀ e ∈ s.ort.orders, e.2.state ≠ .queued) ∧
      (∃ v : Vehicle, v.activity = .idle ∧ v.idleLevel = .ready ∧ run.vht.parkOn = true ∧
        min 4294967295 (v.idleSince + run.vht.tPark) = run.now) ∧
      (∃ v : Vehicle, v.activity = .idle ∧ v.idleLevel ≠ .dormant ∧ run.vht.dormOn = true ∧
        min 4294967295 (v.idleSince + run.vht.tPark + run.vht.tDorm) = run.now) ∧
      (staged.takeTimer = some ⟨4000, 4030⟩ ∧ staged.layer .l0 = .staged 0 ∧ staged.layer1 = .empty ∧
        tblGet (holds (aboard .assigned) staged).ort.orders 0 = some (aboard .assigned) ∧ staged.noTakes ≤ 3) ∧
      (∃ v : Vehicle, v.noTakes = 3 ∧ v.faultStall = false ∧ tblGet (holds order v).vht.vehicles 0 = some v) ∧
      (∃ o : Order, o.orphan = some ⟨2000, 5000⟩ ∧ o.loc = some (0, .l0) ∧ tblGet (holds o active).ort.orders 0 = some o ∧
        tblGet (holds o active).vht.vehicles 0 = some active) :=
  ⟨⟨{ holds order rover with asa := { run.asa with rescan := some ⟨4990, 5000⟩ } }, rfl, rfl, _, .head _, rfl⟩,
    ⟨{ run with asa := { run.asa with rescan := some ⟨4990, 5000⟩ } }, rfl, rfl, by decide⟩,
    ⟨{ rover with idleSince := 4700 }, by decide⟩, ⟨{ rover with idleSince := 2900, idleLevel := .parked }, by decide⟩,
    by decide, ⟨{ rover with noTakes := 3 }, rfl, rfl, rfl⟩,
    ⟨{ aboard .suspended with orphan := some ⟨2000, 5000⟩ }, rfl, rfl, rfl, rfl⟩⟩

/-- A grant step about to be taken with an order and a vehicle in the tables. -/
def kept : State :=
  { holds order { rover with silence := some ⟨4990, 5040⟩ } with
    pending := [.grantStep], asa := { run.asa with examPending := true, rescan := some ⟨5000, 5010⟩ } }

theorem kept_canonical : TablesCanonical kept :=
  canonical_of _ (by decide) (by decide) ⟨rfl, rfl, rfl, rfl⟩

theorem kept_consistent : FleetConsistent kept :=
  let c := held_consistent order { rover with silence := some ⟨4990, 5040⟩ } (by decide) (by decide)
  ⟨c.1, c.2, c.3, c.4, c.5, c.6, c.7⟩

theorem witness_EveryStepKeepsTheBounds :
    (∃ t, step kept = .next t) ∧ LinesBounded kept.liu ∧ SettingsInRange kept := by
  refine ⟨⟨_, rfl⟩, ?_, ?_⟩ <;> constructor <;> decide

theorem witness_EveryStepKeepsTheTables :
    (∃ t, step kept = .next t) ∧ TablesCanonical kept ∧ FleetConsistent kept :=
  ⟨⟨_, rfl⟩, kept_canonical, kept_consistent⟩

theorem witness_TimersFollowTheirConditions :
    (∃ t, step kept = .next t) ∧ RescanFollowsQueue kept ∧ TablesCanonical kept ∧ YieldFollowsPressure kept ∧
      SurveyAtRest kept ∧ FleetConsistent kept ∧ TimersRun kept := by
  refine ⟨⟨_, rfl⟩, ?_, kept_canonical, ?_, ?_, kept_consistent, ?_⟩
  · constructor <;> decide
  · unfold YieldFollowsPressure; decide
  · constructor <;> decide
  · constructor <;> try decide
    intro e he
    rw [List.mem_singleton.1 he]
    simp only [rover, Option.isSome_none, Bool.false_eq_true, false_iff]
    rintro ⟨⟨i, h, hl⟩, -⟩
    cases i <;> simp [Vehicle.layer] at hl

theorem witness_OnlyAClearEmptiesTheCapture :
    ∃ s t : State, step s = .next t ∧ s.pending.head? = some .grantStep ∧ s.fcr.capture ≠ none ∧
      s.fcr.furtherFatal = true :=
  ⟨{ run with
    pending := [.grantStep]
    fcr := { run.fcr with capture := some ⟨.noTake, 0, none, none, none, none, none⟩, furtherFatal := true } }, _, rfl,
    by decide⟩

theorem witness_ALockedLayoutStays :
    ∃ s t : State, step s = .next t ∧ s.pending.head? = some .portState ∧ s.lyt.lock = true ∧ s.lyt.opState = .running :=
  ⟨{ asking 0x12#8 [2#8, 0#8, 0#8] run with pending := [.portState], lyt := { twoBays with lock := true } }, _, rfl,
    by decide⟩

theorem witness_EntryToTheQueueSetsTheFlag :
    (∃ s t : State, ∃ p, step s = .next t ∧ tblGet t.ort.orders 0 = some p ∧ p.state = .queued ∧
      ∀ o, tblGet s.ort.orders 0 = some o → o.state ≠ .queued) ∧
      (∃ s t : State, ∃ v w, step s = .next t ∧ tblGet s.vht.vehicles 0 = some v ∧ v.activity = .working ∧
        tblGet t.vht.vehicles 0 = some w ∧ w.activity = .idle) ∧
      (∃ s t : State, step s = .next t ∧ s.pending = [.shelfSet] ∧ rackOf s.lyt 3 ≠ none ∧
        shelfAt t.shm 3 ≠ shelfAt s.shm 3 ∧ (shelfAt t.shm 3).state = .free) :=
  ⟨⟨{ asking 0x22#8 ref (holds { order with state := .held } rover) with pending := [.orderRelease] }, _, _, rfl, rfl,
    rfl, fun o h => by
      rw [← Option.some.inj (show some { order with state := OrderState.held } = some o from h)]; decide⟩,
    ⟨{ asking 0x23#8 ref (holds (aboard .assigned) staged) with pending := [.orderCancel] }, _, _, _, rfl, rfl, rfl, rfl,
      rfl⟩,
    ⟨{ asking 0x38#8 [3#8, 0#8, 0#8, 0#8, 0#8] shelved with pending := [.shelfSet] }, _, rfl, rfl, by decide, by decide,
      by decide⟩⟩

end Sys2Proof.Tests
end

