-- ==== Sys2Proof/Proofs/LayoutLoad.lean ====
section
/-! The layout load: what a waiting request leaves when its rule's answer is known, and LAYOUT_OPEN and LOOP_DEF by the
engine state (R5 to R7, R12, R13). -/
namespace Sys2Proof.Machine

open Sys2Proof

/-! ## Answers of a waiting request -/

/-- Whatever the rule of a waiting request answers is what stands in the reply slot, over the state it leaves. -/
theorem takeRequest_of_answer {α : Type} {kind tag : Nat} {payload : List Byte} {form : List Byte → Option α}
    {act : α → State → Answered} {s t : State} {r : α} {st : Status} {p : ReplyPayload}
    (h : requestWaits s kind tag payload) (hf : form payload = some r) (ha : act r (popHost s) = ⟨t, st, p⟩) :
    takeRequest kind form act s = placeReply ⟨kind + 0x80, tag, st, p⟩ t := by
  rw [takeRequest_of_waits h hf, ha]

/-! ## The checks of a record -/

theorem inRange_iff {lo hi v : Nat} : inRange lo hi v = true ↔ lo ≤ v ∧ v ≤ hi := by
  simp [inRange]

theorem countsFit_iff {r : LayoutOpenReq} : countsFit r = true ↔ 1 ≤ r.bays ∧ r.bays ≤ 32 ∧ r.ports ≤ 512 := by
  simp [countsFit, inRange_iff, and_assoc]

/-- A length has 16 bits, so that of a LOOP_DEF meets the upper end of its range. -/
theorem u16_le_max (a b : Byte) : u16 a b ≤ 65535 := by
  have ha := a.isLt
  have hb := b.isLt
  unfold u16
  omega

theorem tblCount_eq_zero_iff {α : Type} {p : α → Bool} {t : Tbl α} :
    tblCount p t = 0 ↔ ∀ e ∈ t, p e.2 = false := by
  simp [tblCount]

theorem liveCount_eq_zero_iff {t : OrderTable} : liveCount t = 0 ↔ ∀ e ∈ t.orders, e.2.state.live = false :=
  tblCount_eq_zero_iff

/-! ## LAYOUT_OPEN by the engine state -/

section Open

variable {r : LayoutOpenReq} {s : State}

theorem openLayout_unloaded_accepts (ho : s.lyt.opState = .unloaded) (hc : countsFit r = true) :
    openLayout r s = accept { s with lyt := openedLayout s.lyt r } .none := by
  simp [openLayout, ho, hc]

theorem openLayout_unloaded_refuses (ho : s.lyt.opState = .unloaded) (hc : ¬ countsFit r = true) :
    openLayout r s = refuse s .badField := by
  simp [openLayout, ho, hc]

/-- An abandoned load names the record it expected. -/
theorem abandonLoad_of_expected {x : LayoutRecord} (hx : s.lyt.expected = some x) :
    abandonLoad s = ⟨{ s with lyt := unloadedLayout s.lyt }, .orderSeq, .expected x⟩ := by
  simp [abandonLoad, expectedRecord, hx]

theorem openLayout_loading {x : LayoutRecord} (ho : s.lyt.opState = .loading) (hx : s.lyt.expected = some x) :
    openLayout r s = ⟨{ s with lyt := unloadedLayout s.lyt }, .orderSeq, .expected x⟩ := by
  simp [openLayout, ho, abandonLoad_of_expected hx]

theorem openLayout_locked (ho : s.lyt.opState = .running) (hl : s.lyt.lock = true) :
    openLayout r s = refuse s .locked := by
  simp [openLayout, ho, hl]

theorem openLayout_live (ho : s.lyt.opState = .running) (hl : s.lyt.lock = false) (hn : liveCount s.ort ≠ 0) :
    openLayout r s = refuse s .wrongState := by
  simp [openLayout, ho, hl, hn]

theorem openLayout_running_refuses (ho : s.lyt.opState = .running) (hl : s.lyt.lock = false)
    (hn : liveCount s.ort = 0) (hc : ¬ countsFit r = true) : openLayout r s = refuse s .badField := by
  simp [openLayout, ho, hl, hn, hc]

/-- An accepted LAYOUT_OPEN in RUNNING found the lock clear, and leaves it so. -/
theorem openLayout_running_accepts (ho : s.lyt.opState = .running) (hl : s.lyt.lock = false)
    (hn : liveCount s.ort = 0) (hc : countsFit r = true) :
    openLayout r s = accept { emptiedForLoad s with lyt := { openedLayout s.lyt r with lock := false } } .none := by
  simp [openLayout, ho, hl, hn, hc, openedLayout]

end Open

/-- A waiting LAYOUT_OPEN is answered by `openLayout` on its counts. -/
theorem exec_layoutOpen_of_waits {s t : State} {tag : Nat} {b p0 p1 : Byte} {st : Status} {p : ReplyPayload}
    (h : requestWaits s 0x01 tag [b, p0, p1]) (ha : openLayout ⟨u8 b, u16 p0 p1⟩ (popHost s) = ⟨t, st, p⟩) :
    exec .layoutOpen s = .next (placeReply ⟨0x81, tag, st, p⟩ t) :=
  congrArg Host.Outcome.next (takeRequest_of_answer (form := decodeLayoutOpen) h rfl ha)

/-- Settles O11, by the operating state: in each, the equation of `openLayout` for the check that decides. -/
theorem layoutOpenByEngineState : Obligations.LayoutOpenByEngineState := by
  intro s tag b p0 p1 hw
  refine ⟨fun ho hc => ?unloadedFits, fun ho hc => ?unloadedUnfit, fun x ho hx => ?loading, fun ho hl => ?locked,
    fun ho hl hlive => ?live, fun ho hl hdead hc => ?runningUnfit, fun ho hl hdead hc => ?runningFits⟩
  case unloadedFits => exact exec_layoutOpen_of_waits hw (openLayout_unloaded_accepts ho (countsFit_iff.2 hc))
  case unloadedUnfit => exact exec_layoutOpen_of_waits hw (openLayout_unloaded_refuses ho (mt countsFit_iff.1 hc))
  case loading => exact exec_layoutOpen_of_waits hw (openLayout_loading ho hx)
  case locked => exact exec_layoutOpen_of_waits hw (openLayout_locked ho hl)
  case live =>
    have hn : liveCount s.ort ≠ 0 := by
      obtain ⟨e, he, hlv⟩ := hlive
      intro h0
      simp [liveCount_eq_zero_iff.1 h0 e he] at hlv
    exact exec_layoutOpen_of_waits hw (openLayout_live ho hl hn)
  case runningUnfit =>
    exact exec_layoutOpen_of_waits hw
      (openLayout_running_refuses ho hl (liveCount_eq_zero_iff.2 hdead) (mt countsFit_iff.1 hc))
  case runningFits =>
    exact exec_layoutOpen_of_waits hw
      (openLayout_running_accepts ho hl (liveCount_eq_zero_iff.2 hdead) (countsFit_iff.2 hc))

/-! ## Records of a load -/

/-- In LOADING the expected record is taken as its own rule states (R5). -/
theorem takeRecord_of_expected {x : LayoutRecord} {store : State → Answered} {s : State}
    (ho : s.lyt.opState = .loading) (hx : s.lyt.expected = some x) : takeRecord x store s = store s := by
  simp [takeRecord, ho, hx]

theorem defLoop_of_expected {r : LoopDefReq} {s : State} (ho : s.lyt.opState = .loading)
    (hx : s.lyt.expected = some .loopDef) :
    defLoop r s =
      if inRange 64 65535 r.length && inRange 1 120 r.speed then
        accept { s with lyt := { s.lyt with loop := some ⟨r.length, r.speed⟩, expected := some (.bayDef 0) } } .none
      else refuse s .badField :=
  takeRecord_of_expected ho hx

/-- The check of a LOOP_DEF's fields, as R7 has it. -/
theorem loopFits_iff {l0 l1 v : Byte} :
    (inRange 64 65535 (u16 l0 l1) && inRange 1 120 (u8 v)) = true ↔ 64 ≤ u16 l0 l1 ∧ 1 ≤ u8 v ∧ u8 v ≤ 120 := by
  simp [inRange_iff, u16_le_max]

/-- A waiting LOOP_DEF is answered by `defLoop` on its fields. -/
theorem exec_loopDef_of_waits {s t : State} {tag : Nat} {l0 l1 v : Byte} {st : Status} {p : ReplyPayload}
    (h : requestWaits s 0x02 tag [l0, l1, v]) (ha : defLoop ⟨u16 l0 l1, u8 v⟩ (popHost s) = ⟨t, st, p⟩) :
    exec .loopDef s = .next (placeReply ⟨0x82, tag, st, p⟩ t) :=
  congrArg Host.Outcome.next (takeRequest_of_answer (form := decodeLoopDef) h rfl ha)

/-- Settles O12: the record is the expected one, so that its ranges alone decide. -/
theorem matchingLoopDefIsStored : Obligations.MatchingLoopDefIsStored := by
  intro s tag l0 l1 v hw ho hx
  have hdef := defLoop_of_expected (r := ⟨u16 l0 l1, u8 v⟩) (s := popHost s) ho hx
  refine ⟨fun hfit => ?stored, fun hfit => ?refused⟩
  case stored => exact exec_loopDef_of_waits hw (hdef.trans (if_pos (loopFits_iff.2 hfit)))
  case refused => exact exec_loopDef_of_waits hw (hdef.trans (if_neg (mt loopFits_iff.1 hfit)))

end Sys2Proof.Machine
end

