-- ==== Sys2Proof/Proofs/OrderTable.lean ====
section
/-! The order table: its power-on values with every other block's, and ORDER_HOLD and ORDER_RELEASE by the order's state
(R18, R50, R51, R58, R59, R68). -/
namespace Sys2Proof.Machine

open Sys2Proof

/-! ## The power-on reset -/

/-- A power-on reset leaves the reset state but for the pin, the waiting commands and the model's counter. -/
theorem exec_powerOnReset (s : State) :
    exec .powerOnReset s =
      .next { State.reset with gwrdy := s.gwrdy, pending := s.pending, choices := s.choices } := rfl

/-- ALMN is deasserted while the capture is empty (R168). -/
theorem almnAsserted_of_empty {s : State} (h : s.fcr.capture = none) : almnAsserted s = false := by
  simp [almnAsserted, captureStateOf, h]

/-- Settles O3: the reset state, block by block. -/
theorem powerOnResetSetsEveryBlock : Obligations.PowerOnResetSetsEveryBlock := by
  intro s
  refine ⟨_, exec_powerOnReset s, rfl, rfl, rfl, rfl, rfl, rfl, rfl, ?survey, rfl, almnAsserted_of_empty rfl, ?lines⟩
  case survey => exact ⟨rfl, rfl, rfl, rfl, rfl, rfl, rfl, rfl, rfl, rfl, rfl, rfl, rfl, rfl⟩
  case lines => exact ⟨rfl, rfl, rfl, rfl, rfl, rfl, rfl, rfl, rfl, rfl⟩

/-! ## Requests that name an order and nothing more (R48) -/

/-- Whatever a request's rule answers on the order it names is what stands in the reply slot. -/
theorem takeRequest_onOrder {s t : State} {kind tag h : Nat} {o : Order} {act : Nat → Order → State → Answered}
    {st : Status} {p : ReplyPayload} (a : asksOrder s kind tag h o []) (ha : act h o (popHost s) = ⟨t, st, p⟩) :
    takeRequest kind decodeOrderRef (whenRunning (fun r => onOrder r (act r.handle))) s =
      placeReply ⟨kind + 0x80, tag, st, p⟩ t := by
  obtain ⟨b, t0, t1, t2, t3, hw, hr, rfl, hn⟩ := asksOrder_namedOrder a
  exact takeRequest_of_answer (form := decodeOrderRef) hw rfl (by simp [whenRunning, onOrder, hr, hn, ha])

/-- Taking the request leaves the order it names in its entry. -/
theorem asksOrder_record {s : State} {kind tag h : Nat} {o : Order} {extra : List Byte}
    (a : asksOrder s kind tag h o extra) : tblGet (popHost s).ort.orders h = some o := by
  obtain ⟨_, _, _, _, _, _, _, ho, _⟩ := a
  exact ho

theorem exec_orderHold_of_asks {s t : State} {tag h : Nat} {o : Order} {st : Status} {p : ReplyPayload}
    (a : asksOrder s 0x21 tag h o []) (ha : holdOrder h o (popHost s) = ⟨t, st, p⟩) :
    exec .orderHold s = .next (placeReply ⟨0xA1, tag, st, p⟩ t) :=
  congrArg Host.Outcome.next (takeRequest_onOrder (act := holdOrder) a ha)

theorem exec_orderRelease_of_asks {s t : State} {tag h : Nat} {o : Order} {st : Status} {p : ReplyPayload}
    (a : asksOrder s 0x22 tag h o []) (ha : releaseOrder h o (popHost s) = ⟨t, st, p⟩) :
    exec .orderRelease s = .next (placeReply ⟨0xA2, tag, st, p⟩ t) :=
  congrArg Host.Outcome.next (takeRequest_onOrder (act := releaseOrder) a ha)

/-! ## The rules by the order's state (R58, R59) -/

section Rules

variable {h : Nat} {o : Order} {s : State}

theorem holdOrder_queued (hq : o.state = .queued) :
    holdOrder h o s = accept (moveOrder h id .held .none none s) .none := by
  simp [holdOrder, hq]

theorem holdOrder_assigned (hs : o.state = .assigned) :
    holdOrder h o s = accept (returnOrder h .held (sendRecall h s)) .none := by
  simp [holdOrder, hs]

theorem holdOrder_held (hs : o.state = .held) : holdOrder h o s = accept s .none := by
  simp [holdOrder, hs]

theorem holdOrder_late (hq : o.state ≠ .queued) (ha : o.state ≠ .assigned) (hh : o.state ≠ .held) :
    holdOrder h o s = refuse s .tooLate := by
  cases hs : o.state with
  | queued => exact absurd hs hq
  | assigned => exact absurd hs ha
  | held => exact absurd hs hh
  | _ => simp [holdOrder, hs]

theorem releaseOrder_held (hs : o.state = .held) :
    releaseOrder h o s = accept (moveOrder h id .queued .none none s) .none := by
  simp [releaseOrder, hs]

theorem releaseOrder_live (hs : o.state ≠ .held) (hl : o.state.live = true) :
    releaseOrder h o s = refuse s .wrongState := by
  simp [releaseOrder, hs, hl]

/-- The terminal states (R41). -/
theorem live_eq_false_iff {st : OrderState} : st.live = false ↔ st = .done ∨ st = .failed ∨ st = .cancelled := by
  cases st <;> decide

theorem releaseOrder_terminal (hl : o.state.live = false) : releaseOrder h o s = refuse s .tooLate := by
  have hs : o.state ≠ .held := by
    intro e
    simp [e, OrderState.live] at hl
  simp [releaseOrder, hs, hl]

end Rules

/-! ## What an accepted hold or release makes of the order -/

section Moves

variable {h : Nat} {o : Order} {s : State}

@[simp] theorem enterState_leaveState_hostTag (now : Nat) (st : OrderState) (o : Order) :
    (enterState now st (leaveState now o)).hostTag = o.hostTag := by
  unfold enterState leaveState
  split <;> split <;> rfl

@[simp] theorem enterState_leaveState_loc (now : Nat) (st : OrderState) (o : Order) :
    (enterState now st (leaveState now o)).loc = o.loc := by
  unfold enterState leaveState
  split <;> split <;> rfl

/-- An order moved with no change to its record but those of leaving and entering a state (R32, R49, R79). -/
theorem moveOrder_id_stepped (ho : tblGet s.ort.orders h = some o) (st : OrderState) :
    OrderStepped h o (enterState s.now st (leaveState s.now o)) .none s (moveOrder h id st .none none s) := by
  have hloc : (enterState s.now st (id (leaveState s.now o))).loc = o.loc := enterState_leaveState_loc _ _ _
  refine moveOrder_stepped ho id st .none none (enterState_leaveState_hostTag _ _ _) ?_
  rw [hloc]
  exact carrierId_eq s o

/-- A QUEUED order held keeps the age it has earned and loses its wait reason (R32, R58, R79). -/
theorem moveOrder_held_stepped (ho : tblGet s.ort.orders h = some o) (hq : o.state = .queued) :
    OrderStepped h o { o with state := .held, storedAge := ageAt o s.now, waitReason := none } .none s
      (moveOrder h id .held .none none s) := by
  simpa [enterState, leaveState, hq] using moveOrder_id_stepped ho .held

/-- A HELD order released is queued from now on, without a wait reason (R32, R59). -/
theorem moveOrder_released_stepped (ho : tblGet s.ort.orders h = some o) (hs : o.state = .held) :
    OrderStepped h o { o with state := .queued, queuedSince := some s.now, waitReason := none } .none s
      (moveOrder h id .queued .none none s) := by
  simpa [enterState, leaveState, hs] using moveOrder_id_stepped ho .queued

/-- The RECALL of an order goes to the vehicle its record names (R50). -/
theorem sendRecall_eq_issue {slot : Nat} {i : LayerId} {v : Vehicle} (ho : tblGet s.ort.orders h = some o)
    (hl : o.loc = some (slot, i)) (hv : tblGet s.vht.vehicles slot = some v) :
    sendRecall h s = issue v.fleetId (.recall h i) s := by
  simp [sendRecall, issueTo, fleetIdAt, ho, hl, hv]

@[simp] theorem issue_ort (f : Nat) (b : CommandBody) (s : State) : (issue f b s).ort = s.ort := by
  unfold issue
  split <;> rfl

end Moves

/-! ## ORDER_HOLD and ORDER_RELEASE -/

/-- A hold of an ASSIGNED order recalls it from its vehicle and returns it to HELD (R50, R51, R58). -/
theorem exec_orderHold_assigned {s : State} {tag h slot : Nat} {o : Order} {i : LayerId} {v : Vehicle}
    (a : asksOrder s 0x21 tag h o []) (hs : o.state = .assigned) (hl : o.loc = some (slot, i))
    (hv : tblGet s.vht.vehicles slot = some v) :
    ∃ t, exec .orderHold s = .next t ∧
      OrderReturned h o .held (issue v.fleetId (.recall h i) (replied 0x21 tag .ok .none s)) t := by
  have ho := asksOrder_record a
  have hrecall := sendRecall_eq_issue (s := popHost s) ho hl hv
  have hback : OrderReturned h o .held (issue v.fleetId (.recall h i) (popHost s))
      (returnOrder h .held (sendRecall h (popHost s))) := by
    rw [hrecall]
    exact returnOrder_returned (by rw [issue_ort]; exact ho) (by simp [hs]) .held
  refine ⟨_, exec_orderHold_of_asks a (holdOrder_assigned hs), ?_⟩
  have e := hback.placeReply ⟨0xA1, tag, .ok, .none⟩
  rwa [issue_placeReply] at e

/-- Settles O23, by the order's state: in each, the equation of the rule and what its move makes of the order, under the
reply. -/
theorem holdAndReleaseByState : Obligations.HoldAndReleaseByState := by
  constructor
  · intro s tag h o a
    refine ⟨fun hq => ?queued, fun slot i v hs hl hv _ => exec_orderHold_assigned a hs hl hv, fun hs => ?held,
      fun hq ha hh => ?late⟩
    case queued =>
      exact ⟨_, exec_orderHold_of_asks a (holdOrder_queued hq),
        (moveOrder_held_stepped (asksOrder_record a) hq).placeReply _⟩
    case held => exact exec_orderHold_of_asks a (holdOrder_held hs)
    case late => exact exec_orderHold_of_asks a (holdOrder_late hq ha hh)
  · intro s tag h o a
    refine ⟨fun hs => ?held, fun hs hl => ?live, fun hend => ?terminal⟩
    case held =>
      have moved := moveOrder_released_stepped (asksOrder_record a) hs
      exact ⟨_, exec_orderRelease_of_asks a (releaseOrder_held hs), by simp [moved.exam], moved.placeReply _⟩
    case live => exact exec_orderRelease_of_asks a (releaseOrder_live hs hl)
    case terminal => exact exec_orderRelease_of_asks a (releaseOrder_terminal (live_eq_false_iff.2 hend))

end Sys2Proof.Machine
end

