-- ==== Sys2Proof/Proofs/FaultCapture.lean ====
section
/-! The fault capture: the record by its state and the incident's severity, ALMN, and CAPTURE_READ and CAPTURE_CLEAR
(R168, R170). -/
namespace Sys2Proof.Machine

open Sys2Proof

/-! ## The state of the record (R168) -/

theorem captureStateOf_recoverable {j : Incident} (hj : j.cls.fatal = false) :
    captureStateOf (some j) = .recoverable := by
  simp [captureStateOf, hj]

theorem captureStateOf_fatal {j : Incident} (hj : j.cls.fatal = true) : captureStateOf (some j) = .fatal := by
  simp [captureStateOf, hj]

theorem captureStateOf_eq_fatal_iff {c : Option Incident} :
    captureStateOf c = .fatal ↔ ∃ i, c = some i ∧ i.cls.fatal = true := by
  cases c with
  | none => simp [captureStateOf]
  | some j => cases hj : j.cls.fatal <;> simp [captureStateOf, hj]

/-- ALMN follows the record alone (R168). -/
theorem almnAsserted_iff (s : State) :
    almnAsserted s = true ↔ ∃ i, s.fcr.capture = some i ∧ i.cls.fatal = true :=
  decide_eq_true_iff.trans captureStateOf_eq_fatal_iff

/-! ## An incident offered to the capture (R168) -/

section Offer

variable {f : FaultCapture} {i j : Incident}

theorem captureOffer_empty (hf : f.capture = none) : captureOffer f i = { f with capture := some i } := by
  simp [captureOffer, hf, captureStateOf]

theorem captureOffer_recoverable (hf : f.capture = some j) (hj : j.cls.fatal = false) :
    captureOffer f i =
      if i.cls.fatal then { f with capture := some i, furtherRec := true } else { f with furtherRec := true } := by
  simp [captureOffer, hf, captureStateOf_recoverable hj]

theorem captureOffer_fatal (hf : f.capture = some j) (hj : j.cls.fatal = true) :
    captureOffer f i = if i.cls.fatal then { f with furtherFatal := true } else { f with furtherRec := true } := by
  simp [captureOffer, hf, captureStateOf_fatal hj]

end Offer

/-! ## A raised incident leaves the capture to its offer (R167) -/

@[simp] theorem queueNotice_fcr (n : Notice) (s : State) : (queueNotice n s).fcr = s.fcr := by
  rw [queueNotice_eq]

@[simp] theorem routeNotice_fcr (i : Incident) (c : Bool) (s : State) : (routeNotice i c s).fcr = s.fcr := by
  unfold routeNotice
  split
  · rfl
  · exact queueNotice_fcr _ s

/-- Whatever the route and the engine state, the capture is what the offer makes of it (R167, R168). -/
theorem raiseIncident_fcr (i : Incident) (s : State) : (raiseIncident i s).fcr = captureOffer s.fcr i :=
  routeNotice_fcr _ _ _

/-! ## CAPTURE_READ and CAPTURE_CLEAR (R170) -/

theorem exec_captureRead_of_waits {s : State} {tag : Nat} {b : Byte} (h : requestWaits s 0x3F tag [b]) :
    exec .captureRead s = .next (replied 0x3F tag .ok (captureView s.fcr) s) :=
  congrArg Host.Outcome.next
    (takeRequest_of_answer (form := decodeFiller) (act := fun _ s => accept s (captureView s.fcr)) h rfl rfl)

/-- The reply is formed from the capture as the request found it, before the record is emptied. -/
theorem exec_captureClear_of_waits {s : State} {tag : Nat} {b : Byte} (h : requestWaits s 0x37 tag [b]) :
    exec .captureClear s =
      .next (replied 0x37 tag .ok (captureView s.fcr)
        { s with fcr := { s.fcr with capture := none, furtherRec := false, furtherFatal := false } }) :=
  congrArg Host.Outcome.next (takeRequest_of_answer (form := decodeFiller) (act := clearCapture) h rfl rfl)

/-- Settles O34: the capture by the record's state and the incident's severity, then ALMN and the two requests. -/
theorem captureHoldsTheFirstIncident : Obligations.CaptureHoldsTheFirstIncident := by
  refine ⟨fun i s => ?offer, almnAsserted_iff, fun _ _ _ => exec_captureRead_of_waits,
    fun _ _ _ => exec_captureClear_of_waits⟩
  rw [raiseIncident_fcr]
  refine ⟨captureOffer_empty, fun j hc hj hi => ?secondRecoverable, fun j hc hj hi => ?firstFatal,
    fun j hc hj hi => ?recoverableAfterFatal, fun j hc hj hi => ?secondFatal⟩
  case secondRecoverable => simp [captureOffer_recoverable hc hj, hi]
  case firstFatal => simp [captureOffer_recoverable hc hj, hi]
  case recoverableAfterFatal => simp [captureOffer_fatal hc hj, hi]
  case secondFatal => simp [captureOffer_fatal hc hj, hi]

end Sys2Proof.Machine
end

section
/-! What an operation about orders and vehicles keeps beside what `Steady` says: layers and orders in agreement, the
timers of vehicles, orders and places under their conditions, and the examination-pending flag set by what R70 and R132
name. -/
namespace Sys2Proof.Machine

open Sys2Proof

/-! ## Operations that only tell -/

/-- Nothing but the line interface and the capture has changed: messages were sent and incidents raised. -/
def OnlyTold (s t : State) : Prop := t = { s with liu := t.liu, fcr := t.fcr }

theorem OnlyTold.refl (s : State) : OnlyTold s s := rfl

theorem OnlyTold.trans {s t u : State} (h : OnlyTold s t) (k : OnlyTold t u) : OnlyTold s u := by
  unfold OnlyTold at *
  rw [k, h]

theorem queueNotice_told (n : Notice) (s : State) : OnlyTold s (queueNotice n s) := by
  unfold queueNotice
  split <;> rfl

theorem issue_told (f : Nat) (b : CommandBody) (s : State) : OnlyTold s (issue f b s) := by
  unfold issue
  split <;> rfl

theorem issueTo_told (slot : Nat) (b : CommandBody) (s : State) : OnlyTold s (issueTo slot b s) := by
  unfold issueTo
  split
  · exact issue_told _ _ s
  · exact .refl s

theorem raiseIncident_told (i : Incident) (s : State) : OnlyTold s (raiseIncident i s) := by
  unfold raiseIncident routeNotice
  split
  · rfl
  · exact OnlyTold.trans (t := { s with fcr := captureOffer s.fcr i }) rfl (queueNotice_told _ _)

theorem raiseVehicle_told (c : IncidentClass) (slot : Nat) (h : Option Nat) (p : Option Endpoint) (k : Option Nat)
    (s : State) : OnlyTold s (raiseVehicle c slot h p k s) := by
  unfold raiseVehicle
  split
  · exact raiseIncident_told _ s
  · exact .refl s

theorem vehicleNotice_told (slot : Nat) (ev : VehicleEvent) (s : State) : OnlyTold s (vehicleNotice slot ev s) := by
  unfold vehicleNotice
  split
  · exact queueNotice_told _ s
  · exact .refl s

theorem sendRecall_told (h : Nat) (s : State) : OnlyTold s (sendRecall h s) := by
  unfold sendRecall
  split
  · split
    · exact issueTo_told _ _ s
    · exact .refl s
  · exact .refl s

section Told

variable {s t : State}

theorem OnlyTold.now (h : OnlyTold s t) : t.now = s.now := by rw [h]
theorem OnlyTold.gwrdy (h : OnlyTold s t) : t.gwrdy = s.gwrdy := by rw [h]
theorem OnlyTold.lyt (h : OnlyTold s t) : t.lyt = s.lyt := by rw [h]
theorem OnlyTold.ort (h : OnlyTold s t) : t.ort = s.ort := by rw [h]
theorem OnlyTold.asa (h : OnlyTold s t) : t.asa = s.asa := by rw [h]
theorem OnlyTold.vht (h : OnlyTold s t) : t.vht = s.vht := by rw [h]
theorem OnlyTold.bac (h : OnlyTold s t) : t.bac = s.bac := by rw [h]
theorem OnlyTold.shm (h : OnlyTold s t) : t.shm = s.shm := by rw [h]
theorem OnlyTold.iss (h : OnlyTold s t) : t.iss = s.iss := by rw [h]

end Told

/-! ## Layers and orders in agreement, entry by entry (R41, R90, R91) -/

/-- A layer holds this order. -/
def Layer.holds (y : Layer) (h : Nat) : Prop := y = .staged h ∨ y = .active h

@[simp] theorem not_holds_empty (h : Nat) : ¬ Layer.empty.holds h := by simp [Layer.holds]

@[simp] theorem holds_staged_iff {g h : Nat} : (Layer.staged g).holds h ↔ g = h := by simp [Layer.holds]

@[simp] theorem holds_active_iff {g h : Nat} : (Layer.active g).holds h ↔ g = h := by simp [Layer.holds]

theorem Layer.holds_inj {y : Layer} {g h : Nat} (hg : y.holds g) (hh : y.holds h) : g = h := by
  cases y <;> simp_all

@[simp] theorem LayerId.other_other (i : LayerId) : i.other.other = i := by cases i <;> rfl

@[simp] theorem LayerId.other_ne (i : LayerId) : i.other ≠ i := by cases i <;> decide

/-- Of the two layers one is `i` and the other is `i.other`. -/
theorem LayerId.eq_or_other (i j : LayerId) : j = i ∨ j = i.other := by cases i <;> cases j <;> decide

/-- At most one ACTIVE and one STAGED layer, and 0 to 3 no-takes (R90, R91). -/
structure VehicleSound (v : Vehicle) : Prop where
  oneActive : ∀ i h g, v.layer i = .active h → v.layer i.other ≠ .active g
  oneStaged : ∀ i h g, v.layer i = .staged h → v.layer i.other ≠ .staged g
  noTakes : v.noTakes ≤ 3

/-- A vehicle's take timer and silence timer run exactly under their conditions (R99, R107). -/
structure VehicleTimed (v : Vehicle) : Prop where
  take : v.takeTimer.isSome = true ↔ (∃ i h, v.layer i = .staged h) ∧ ∀ i h, v.layer i ≠ .active h
  silence : v.silence.isSome = true ↔ v.link = .online

/-- An order's orphan timer runs exactly while it is SUSPENDED (R163). -/
def OrderTimed (o : Order) : Prop := o.orphan.isSome = true ↔ o.state = .suspended

/-- Layers and orders agree both ways: `FleetConsistent` by the records of the entries. -/
structure Agreed (s : State) : Prop where
  sound : ∀ k v, tblGet s.vht.vehicles k = some v → VehicleSound v
  layers : ∀ k v i h, tblGet s.vht.vehicles k = some v → (v.layer i).holds h →
    ∃ o, tblGet s.ort.orders h = some o ∧ o.loc = some (k, i) ∧ (o.state = .assigned ↔ v.layer i = .staged h)
  places : ∀ h o, tblGet s.ort.orders h = some o → (o.loc ≠ none ↔ o.state.onVehicle = true)
  located : ∀ h o k i, tblGet s.ort.orders h = some o → o.loc = some (k, i) →
    ∃ v, tblGet s.vht.vehicles k = some v ∧ (v.layer i).holds h

/-- The timers of vehicles and orders run exactly under their conditions. -/
structure FleetTimed (s : State) : Prop where
  vehicles : ∀ k v, tblGet s.vht.vehicles k = some v → VehicleTimed v
  orders : ∀ h o, tblGet s.ort.orders h = some o → OrderTimed o

/-- The agreement of layers and orders is kept, and with it the timers' conditions. -/
def FleetKept (s t : State) : Prop := Agreed s → Agreed t ∧ (FleetTimed s → FleetTimed t)

theorem FleetKept.refl (s : State) : FleetKept s s := fun h => ⟨h, id⟩

theorem FleetKept.trans {s t u : State} (h : FleetKept s t) (k : FleetKept t u) : FleetKept s u := fun a =>
  ⟨(k (h a).1).1, fun x => (k (h a).1).2 ((h a).2 x)⟩

theorem FleetKept.of_eq {s t : State} (ho : t.ort.orders = s.ort.orders) (hv : t.vht.vehicles = s.vht.vehicles) :
    FleetKept s t := by
  intro a
  refine ⟨⟨?_, ?_, ?_, ?_⟩, fun x => ⟨?_, ?_⟩⟩
  · rw [hv]; exact a.sound
  · rw [hv, ho]; exact a.layers
  · rw [ho]; exact a.places
  · rw [hv, ho]; exact a.located
  · rw [hv]; exact x.vehicles
  · rw [ho]; exact x.orders

/-- Where layers and orders agree, an order that stands in a layer is on a vehicle and nowhere else. -/
theorem Agreed.layer_unique {s : State} (a : Agreed s) {k j : Nat} {v w : Vehicle} {i l : LayerId} {h : Nat}
    (hv : tblGet s.vht.vehicles k = some v) (hw : tblGet s.vht.vehicles j = some w) (h1 : (v.layer i).holds h)
    (h2 : (w.layer l).holds h) : k = j ∧ i = l := by
  obtain ⟨o, ho, hl, _⟩ := a.layers k v i h hv h1
  obtain ⟨p, hp, hm, _⟩ := a.layers j w l h hw h2
  rw [ho] at hp
  cases hp
  rw [hl] at hm
  cases hm
  exact ⟨rfl, rfl⟩

/-- The order in a vehicle's STAGED layer is ASSIGNED to it (R91). -/
theorem Agreed.staged_order {s : State} (a : Agreed s) {k : Nat} {v : Vehicle} {i : LayerId} {h : Nat}
    (hv : tblGet s.vht.vehicles k = some v) (hs : v.layer i = .staged h) :
    ∃ o, tblGet s.ort.orders h = some o ∧ o.loc = some (k, i) ∧ o.state = .assigned := by
  obtain ⟨o, ho, hl, ha⟩ := a.layers k v i h hv (.inl hs)
  exact ⟨o, ho, hl, ha.2 hs⟩

/-- The order in a vehicle's ACTIVE layer is on it, past ASSIGNED (R91). -/
theorem Agreed.active_order {s : State} (a : Agreed s) {k : Nat} {v : Vehicle} {i : LayerId} {h : Nat}
    (hv : tblGet s.vht.vehicles k = some v) (hs : v.layer i = .active h) :
    ∃ o, tblGet s.ort.orders h = some o ∧ o.loc = some (k, i) ∧ o.state ≠ .assigned ∧ o.state.onVehicle = true := by
  obtain ⟨o, ho, hl, ha⟩ := a.layers k v i h hv (.inr hs)
  exact ⟨o, ho, hl, fun e => by simpa [hs] using ha.1 e, (a.places h o ho).1 (by simp [hl])⟩

theorem vehicleSound_iff {v : Vehicle} :
    VehicleSound v ↔ (∀ h g, ¬(v.layer0 = .active h ∧ v.layer1 = .active g)) ∧
      (∀ h g, ¬(v.layer0 = .staged h ∧ v.layer1 = .staged g)) ∧ v.noTakes ≤ 3 := by
  constructor
  · intro a
    exact ⟨fun h g e => a.oneActive .l0 h g e.1 e.2, fun h g e => a.oneStaged .l0 h g e.1 e.2, a.noTakes⟩
  · rintro ⟨h1, h2, h3⟩
    refine ⟨fun i h g e f => ?_, fun i h g e f => ?_, h3⟩ <;> cases i
    · exact h1 h g ⟨e, f⟩
    · exact h1 g h ⟨f, e⟩
    · exact h2 h g ⟨e, f⟩
    · exact h2 g h ⟨f, e⟩

/-- `FleetConsistent` lists what `Agreed` reads. -/
theorem FleetConsistent.agreed {s : State} (f : FleetConsistent s) : Agreed s where
  sound := fun k v hv => vehicleSound_iff.2
    ⟨f.oneActive _ (tblGet_mem hv), f.oneStaged _ (tblGet_mem hv), f.noTakes _ (tblGet_mem hv)⟩
  layers := fun k v i h hv hl => f.layers _ (tblGet_mem hv) i h hl
  places := fun h o ho => f.places _ (tblGet_mem ho)
  located := fun h o k i ho hl => f.located _ (tblGet_mem ho) k i hl

/-- In canonical tables what is read is what is listed. -/
theorem Agreed.consistent {s : State} (a : Agreed s) (c : TablesCanonical s)
    (ids : (s.vht.vehicles.map (fun e => e.2.fleetId)).Nodup) : FleetConsistent s where
  oneActive := fun e he => (vehicleSound_iff.1 (a.sound _ _ (tblGet_of_mem c.vehicles.1 he))).1
  oneStaged := fun e he => (vehicleSound_iff.1 (a.sound _ _ (tblGet_of_mem c.vehicles.1 he))).2.1
  noTakes := fun e he => (a.sound _ _ (tblGet_of_mem c.vehicles.1 he)).noTakes
  distinctIds := ids
  layers := fun e he i h hl => a.layers _ _ i h (tblGet_of_mem c.vehicles.1 he) hl
  places := fun e he => a.places _ _ (tblGet_of_mem c.orders.1 he)
  located := fun e he k i hl => a.located _ _ k i (tblGet_of_mem c.orders.1 he) hl

/-! ## Places and their timers (R122, R127) -/

/-- A lapse timer runs with each GRANTED entry, a starvation timer until an entry has starved. -/
structure BayTimed (y : BayState) : Prop where
  lapse : ∀ a ∈ y.admitted, a.lapse.isSome = true ↔ a.inside = false
  starve : ∀ w ∈ y.queue, w.starve.isSome = true ↔ w.starved = false

/-- The timers of every bay's places run exactly under their conditions. -/
def PlacesTimed (s : State) : Prop := ∀ e ∈ s.bac.bays, BayTimed e.2

/-! ## What the examination-pending flag follows (R70, R132) -/

/-- Nothing that sets the examination-pending flag has happened: no order entered QUEUED or CARRYING, no vehicle became
IDLE or had its take timer started, no racked shelf became FREE or HELD, and no vehicle's place ended. -/
structure Unflagged (s t : State) : Prop where
  orders : ∀ h p, tblGet t.ort.orders h = some p → p.state = .queued ∨ p.state = .carrying →
    ∃ o, tblGet s.ort.orders h = some o ∧ o.state = p.state
  idle : ∀ k w, tblGet t.vht.vehicles k = some w → w.activity = .idle →
    ∃ v, tblGet s.vht.vehicles k = some v ∧ v.activity = .idle
  take : ∀ k w, tblGet t.vht.vehicles k = some w → w.takeTimer ≠ none →
    ∃ v, tblGet s.vht.vehicles k = some v ∧ v.takeTimer = w.takeTimer
  shelves : ∀ k, racked s.lyt k = true → shelfAt t.shm k = shelfAt s.shm k ∨
    ((shelfAt t.shm k).state ≠ .free ∧ (shelfAt t.shm k).state ≠ .held)
  admitted : ∀ b y a, tblGet s.bac.bays b = some y → a ∈ y.admitted →
    ∃ z e, tblGet t.bac.bays b = some z ∧ e ∈ z.admitted ∧ e.slot = a.slot

theorem Unflagged.of_eq {s t : State} (ho : t.ort.orders = s.ort.orders) (hv : t.vht.vehicles = s.vht.vehicles)
    (hm : t.shm.shelves = s.shm.shelves) (hb : t.bac.bays = s.bac.bays) : Unflagged s t where
  orders := fun h p hp _ => ⟨p, by rw [← ho]; exact hp, rfl⟩
  idle := fun k w hw hi => ⟨w, by rw [← hv]; exact hw, hi⟩
  take := fun k w hw _ => ⟨w, by rw [← hv]; exact hw, rfl⟩
  shelves := fun k _ => .inl (by unfold shelfAt; rw [hm])
  admitted := fun b y a hy ha => ⟨y, a, by rw [hb]; exact hy, ha, rfl⟩

theorem Unflagged.trans {s t u : State} (hl : racked t.lyt = racked s.lyt) (h : Unflagged s t) (k : Unflagged t u) :
    Unflagged s u where
  orders := fun g p hp hq => by
    obtain ⟨o, ho, e⟩ := k.orders g p hp hq
    obtain ⟨q, hq', e'⟩ := h.orders g o ho (by rw [e]; exact hq)
    exact ⟨q, hq', e'.trans e⟩
  idle := fun j w hw hi => by
    obtain ⟨v, hv, hi'⟩ := k.idle j w hw hi
    exact h.idle j v hv hi'
  take := fun j w hw ht => by
    obtain ⟨v, hv, e⟩ := k.take j w hw ht
    obtain ⟨x, hx, e'⟩ := h.take j v hv (by rw [e]; exact ht)
    exact ⟨x, hx, e'.trans e⟩
  shelves := fun j hj => by
    rcases k.shelves j (by rw [hl]; exact hj) with e | e
    · rw [e]; exact h.shelves j hj
    · exact .inr e
  admitted := fun b y a hy ha => by
    obtain ⟨z, e, hz, he, h1⟩ := h.admitted b y a hy ha
    obtain ⟨z', e', hz', he', h2⟩ := k.admitted b z e hz he
    exact ⟨z', e', hz', he', h2.trans h1⟩

/-- The examination-pending flag is kept, and set by all that R70 and R132 name. -/
structure FlagKept (s t : State) : Prop where
  exam : s.asa.examPending = true → t.asa.examPending = true
  flagged : t.asa.examPending = true ∨ Unflagged s t

theorem FlagKept.of_exam {s t : State} (h : t.asa.examPending = true) : FlagKept s t := ⟨fun _ => h, .inl h⟩

theorem FlagKept.trans {s t u : State} (hl : racked t.lyt = racked s.lyt) (h : FlagKept s t) (k : FlagKept t u) :
    FlagKept s u where
  exam := fun a => k.exam (h.exam a)
  flagged := by
    rcases k.flagged with a | a
    · exact .inl a
    · rcases h.flagged with b | b
      · exact .inl (k.exam b)
      · exact .inr (b.trans hl a)

/-! ## The relations -/

/-- What `Steady` says, with the timers of places kept and, where `A` holds, the agreement of layers and orders. -/
structure Sound (A : Prop) (s t : State) : Prop where
  steady : Steady s t
  fleet : A → FleetKept s t
  places : PlacesTimed s → PlacesTimed t

/-- The same, and the examination-pending flag set by all that R70 and R132 name. -/
structure Careful (A : Prop) (s t : State) : Prop extends Sound A s t where
  flag : FlagKept s t

section Relations

variable {A : Prop} {s t u : State}

theorem Sound.refl (s : State) : Sound A s s := ⟨.refl s, fun _ => .refl s, id⟩

theorem Sound.trans (h : Sound A s t) (k : Sound A t u) : Sound A s u :=
  ⟨h.steady.trans k.steady, fun a => (h.fleet a).trans (k.fleet a), fun a => k.places (h.places a)⟩

theorem Careful.refl (s : State) : Careful A s s :=
  ⟨.refl s, id, .inr (.of_eq rfl rfl rfl rfl)⟩

theorem Careful.trans (h : Careful A s t) (k : Careful A t u) : Careful A s u :=
  ⟨h.toSound.trans k.toSound, h.flag.trans (by rw [h.steady.framed.lyt]) k.flag⟩

/-- `Careful.trans` with the later step first. -/
theorem Careful.after (k : Careful A t u) (h : Careful A s t) : Careful A s u := h.trans k

theorem Sound.after (k : Sound A t u) (h : Sound A s t) : Sound A s u := h.trans k

theorem Careful.ite (c : Prop) [Decidable c] (h : Careful A s t) (k : Careful A s u) :
    Careful A s (if c then t else u) := by split <;> assumption

theorem Sound.with_flag (h : Sound A s t) (k : FlagKept s t) : Careful A s t := { h with flag := k }

/-- What `A` says may be the agreement of the state before. -/
theorem Careful.of_agreed {B : Prop} (h : Careful (B ∧ Agreed s) s t) : Careful B s t :=
  { h with fleet := fun b a => h.fleet ⟨b, a⟩ a }

/-- Once the flag is set, nothing more is asked of it. -/
theorem Sound.setExam (h : Sound A s t) : Careful A s (setExam t) :=
  ⟨h.trans ⟨setExam_steady t, fun _ => .of_eq rfl rfl, id⟩, .of_exam rfl⟩

theorem Careful.setExamIf (h : Careful A s t) (b : Bool) : Careful A s (setExamIf b t) := by
  cases b
  · exact h
  · exact h.toSound.setExam

/-- Messages and incidents change none of the tables. -/
theorem OnlyTold.careful (h : OnlyTold s t) (k : Steady s t) : Careful A s t where
  steady := k
  fleet := fun _ => .of_eq (by rw [h.ort]) (by rw [h.vht])
  places := by unfold PlacesTimed; rw [h.bac]; exact id
  flag := ⟨by rw [h.asa]; exact id, .inr (.of_eq (by rw [h.ort]) (by rw [h.vht]) (by rw [h.shm]) (by rw [h.bac]))⟩

theorem queueNotice_careful (n : Notice) (s : State) : Careful A s (queueNotice n s) :=
  (queueNotice_told n s).careful (queueNotice_steady n s)

theorem issue_careful (f : Nat) (b : CommandBody) (s : State) : Careful A s (issue f b s) :=
  (issue_told f b s).careful (issue_steady f b s)

theorem issueTo_careful (slot : Nat) (b : CommandBody) (s : State) : Careful A s (issueTo slot b s) :=
  (issueTo_told slot b s).careful (issueTo_steady slot b s)

theorem raiseIncident_careful (i : Incident) (s : State) : Careful A s (raiseIncident i s) :=
  (raiseIncident_told i s).careful (raiseIncident_steady i s)

theorem raiseVehicle_careful (c : IncidentClass) (slot : Nat) (h : Option Nat) (p : Option Endpoint) (k : Option Nat)
    (s : State) : Careful A s (raiseVehicle c slot h p k s) :=
  (raiseVehicle_told c slot h p k s).careful (raiseVehicle_steady c slot h p k s)

theorem vehicleNotice_careful (slot : Nat) (ev : VehicleEvent) (s : State) : Careful A s (vehicleNotice slot ev s) :=
  (vehicleNotice_told slot ev s).careful (vehicleNotice_steady slot ev s)

theorem sendRecall_careful (h : Nat) (s : State) : Careful A s (sendRecall h s) :=
  (sendRecall_told h s).careful (sendRecall_steady h s)

end Relations

end Sys2Proof.Machine
end

section
/-! Each operation that the rules share keeps layers and orders in agreement, the timers' conditions and what the
examination-pending flag follows (R49 to R52, R104, R111, R112, R118, R159, R162, R165). -/
namespace Sys2Proof.Machine

open Sys2Proof

section Operations

variable {A : Prop} {s t : State}

/-! ## Vehicles -/

/-- A vehicle's record changed but for its layers, its timers still running under their conditions. -/
structure Quiet (v w : Vehicle) : Prop where
  fleetId : w.fleetId = v.fleetId
  layer0 : w.layer0 = v.layer0
  layer1 : w.layer1 = v.layer1
  noTakes : v.noTakes ≤ 3 → w.noTakes ≤ 3
  timed : VehicleTimed v → VehicleTimed w

theorem Quiet.layer {v w : Vehicle} (q : Quiet v w) (i : LayerId) : w.layer i = v.layer i := by
  cases i
  · exact q.layer0
  · exact q.layer1

theorem Quiet.sound {v w : Vehicle} (q : Quiet v w) (h : VehicleSound v) : VehicleSound w where
  oneActive := by intro i a b; rw [q.layer, q.layer]; exact h.oneActive i a b
  oneStaged := by intro i a b; rw [q.layer, q.layer]; exact h.oneStaged i a b
  noTakes := q.noTakes h.noTakes

theorem VehicleTimed.of_layers {v w : Vehicle} (h0 : w.layer0 = v.layer0) (h1 : w.layer1 = v.layer1)
    (ht : w.takeTimer = v.takeTimer)
    (hs : (v.silence.isSome = true ↔ v.link = .online) → (w.silence.isSome = true ↔ w.link = .online))
    (h : VehicleTimed v) : VehicleTimed w where
  take := by
    have e : w.layer = v.layer := by
      funext i
      cases i
      · exact h0
      · exact h1
    simp only [e, ht]
    exact h.take
  silence := hs h.silence

/-- A change that leaves the layers and the take timer alone, and the silence timer with the link. -/
theorem Quiet.of_eq {v w : Vehicle} (hf : w.fleetId = v.fleetId) (h0 : w.layer0 = v.layer0) (h1 : w.layer1 = v.layer1)
    (ht : w.takeTimer = v.takeTimer) (hn : v.noTakes ≤ 3 → w.noTakes ≤ 3)
    (hs : (v.silence.isSome = true ↔ v.link = .online) → (w.silence.isSome = true ↔ w.link = .online)) : Quiet v w :=
  ⟨hf, h0, h1, hn, .of_layers h0 h1 ht hs⟩

theorem Quiet.steady {v w : Vehicle} (q : Quiet v w) : VehicleSteady v w :=
  .of_layers q.fleetId q.noTakes (fun h e => by rw [← q.layer0]; exact e) (fun h e => by rw [← q.layer1]; exact e)

/-- Vehicles changed quietly keep the agreement of layers and orders. -/
theorem fleetKept_of_quiet (ho : t.ort.orders = s.ort.orders)
    (hq : ∀ k w, tblGet t.vht.vehicles k = some w → ∃ v, tblGet s.vht.vehicles k = some v ∧ Quiet v w)
    (hv : ∀ k v, tblGet s.vht.vehicles k = some v → ∃ w, tblGet t.vht.vehicles k = some w ∧ Quiet v w) :
    FleetKept s t := by
  intro a
  refine ⟨⟨?_, ?_, ?_, ?_⟩, fun x => ⟨?_, ?_⟩⟩
  · intro k w hw
    obtain ⟨v, hv', q⟩ := hq k w hw
    exact q.sound (a.sound k v hv')
  · intro k w i h hw hl
    obtain ⟨v, hv', q⟩ := hq k w hw
    rw [q.layer] at hl ⊢
    rw [ho]
    exact a.layers k v i h hv' hl
  · rw [ho]; exact a.places
  · intro h o k i hp hl
    rw [ho] at hp
    obtain ⟨v, hv', hh⟩ := a.located h o k i hp hl
    obtain ⟨w, hw, q⟩ := hv k v hv'
    exact ⟨w, hw, by rw [q.layer]; exact hh⟩
  · intro k w hw
    obtain ⟨v, hv', q⟩ := hq k w hw
    exact q.timed (x.vehicles k v hv')
  · rw [ho]; exact x.orders

theorem Quiet.refl (v : Vehicle) : Quiet v v := .of_eq rfl rfl rfl rfl id id

@[simp] theorem updVehicle_ort (slot : Nat) (f : Vehicle → Vehicle) (s : State) : (updVehicle slot f s).ort = s.ort := by
  rw [(updVehicle_only slot f s).eq]

@[simp] theorem updVehicle_bac (slot : Nat) (f : Vehicle → Vehicle) (s : State) : (updVehicle slot f s).bac = s.bac := by
  rw [(updVehicle_only slot f s).eq]

@[simp] theorem updVehicle_shm (slot : Nat) (f : Vehicle → Vehicle) (s : State) : (updVehicle slot f s).shm = s.shm := by
  rw [(updVehicle_only slot f s).eq]

@[simp] theorem updVehicle_lyt (slot : Nat) (f : Vehicle → Vehicle) (s : State) : (updVehicle slot f s).lyt = s.lyt := by
  rw [(updVehicle_only slot f s).eq]

@[simp] theorem updVehicle_asa (slot : Nat) (f : Vehicle → Vehicle) (s : State) : (updVehicle slot f s).asa = s.asa := by
  unfold updVehicle
  split <;> rfl

theorem updVehicle_sound {slot : Nat} {f : Vehicle → Vehicle}
    (hf : ∀ v, tblGet s.vht.vehicles slot = some v → Quiet v (f v)) : Sound A s (updVehicle slot f s) where
  steady := updVehicle_steady fun v hv => (hf v hv).steady
  fleet := fun _ => by
    refine fleetKept_of_quiet (by simp) (fun k w hw => ?_) (fun k v hv => ?_)
    · rw [updVehicle_get] at hw
      split at hw
      · rename_i hk
        subst hk
        obtain ⟨v, hv, rfl⟩ := Option.map_eq_some_iff.1 hw
        exact ⟨v, hv, hf v hv⟩
      · exact ⟨w, hw, .refl w⟩
    · rw [updVehicle_get, hv]
      split
      · rename_i hk
        subst hk
        exact ⟨_, rfl, hf v hv⟩
      · exact ⟨v, rfl, .refl v⟩
  places := by unfold PlacesTimed; simp

/-- A vehicle's record changed with nothing that sets the examination-pending flag. -/
theorem updVehicle_flag {slot : Nat} {f : Vehicle → Vehicle}
    (hi : ∀ v, tblGet s.vht.vehicles slot = some v → (f v).activity = .idle → v.activity = .idle)
    (ht : ∀ v, tblGet s.vht.vehicles slot = some v → (f v).takeTimer ≠ none → (f v).takeTimer = v.takeTimer) :
    FlagKept s (updVehicle slot f s) where
  exam := by simp
  flagged := by
    refine .inr { Unflagged.of_eq (s := s) (t := { updVehicle slot f s with vht := s.vht }) (by simp) rfl (by simp)
      (by simp) with idle := ?_, take := ?_ }
    · intro k w hw hidle
      rw [updVehicle_get] at hw
      split at hw
      · rename_i hk
        subst hk
        obtain ⟨v, hv, rfl⟩ := Option.map_eq_some_iff.1 hw
        exact ⟨v, hv, hi v hv hidle⟩
      · exact ⟨w, hw, hidle⟩
    · intro k w hw hn
      rw [updVehicle_get] at hw
      split at hw
      · rename_i hk
        subst hk
        obtain ⟨v, hv, rfl⟩ := Option.map_eq_some_iff.1 hw
        exact ⟨v, hv, (ht v hv hn).symm⟩
      · exact ⟨w, hw, rfl⟩

theorem updVehicle_careful {slot : Nat} {f : Vehicle → Vehicle}
    (hf : ∀ v, tblGet s.vht.vehicles slot = some v → Quiet v (f v))
    (hi : ∀ v, tblGet s.vht.vehicles slot = some v → (f v).activity = .idle → v.activity = .idle)
    (ht : ∀ v, tblGet s.vht.vehicles slot = some v → (f v).takeTimer ≠ none → (f v).takeTimer = v.takeTimer := by
      intros; rfl) :
    Careful A s (updVehicle slot f s) :=
  (updVehicle_sound hf).with_flag (updVehicle_flag hi ht)

/-! ## Shelves -/

theorem setShelf_careful (k : Nat) (sh : Shelf) (s : State) : Careful A s (setShelf k sh s) := by
  have only := setShelf_only k sh s
  refine ⟨⟨setShelf_steady k sh s, fun _ => .of_eq (by rw [only.eq]) (by rw [only.eq]), ?_⟩, only.exam, ?_⟩
  · unfold PlacesTimed; rw [only.eq]; exact id
  · by_cases hc : sh ≠ shelfAt s.shm k ∧ racked s.lyt k = true ∧ (sh.state = .free ∨ sh.state = .held)
    · left
      unfold setShelf
      rw [setExamIf_examPending]
      simp [hc]
    · right
      refine { Unflagged.of_eq (s := s) (t := { setShelf k sh s with shm := s.shm }) (by simp only; rw [only.eq])
        (by simp only; rw [only.eq]) rfl (by simp only; rw [only.eq]) with shelves := ?_ }
      intro j hj
      rw [setShelf_at]
      split
      · rename_i hjk
        subst hjk
        by_cases he : sh = shelfAt s.shm j
        · exact .inl he
        · exact .inr (by
            simp only [not_and] at hc
            simpa [not_or] using hc he hj)
      · exact .inl rfl

theorem releaseInbound_careful (h : Nat) (e : Option Endpoint) (s : State) : Careful A s (releaseInbound h e s) := by
  unfold releaseInbound
  split
  · exact .ite _ (setShelf_careful _ _ s) (.refl s)
  · exact .refl s

theorem releaseOutbound_careful (h : Nat) (e : Option Endpoint) (s : State) : Careful A s (releaseOutbound h e s) := by
  unfold releaseOutbound
  split
  · exact .ite _ (setShelf_careful _ _ s) (.refl s)
  · exact .refl s

theorem vacateSource_careful (h : Nat) (e : Option Endpoint) (s : State) : Careful A s (vacateSource h e s) := by
  unfold vacateSource
  split
  · exact .ite _ (setShelf_careful _ _ s) (.refl s)
  · exact .refl s

theorem releaseGrantClaims_careful (h : Nat) (o : Order) (s : State) : Careful A s (releaseGrantClaims h o s) := by
  unfold releaseGrantClaims
  refine .after (releaseInbound_careful _ _ _) ?_
  split <;> split
  · exact .after (releaseOutbound_careful _ _ _) (releaseInbound_careful _ _ s)
  · exact releaseOutbound_careful _ _ s
  · exact releaseInbound_careful _ _ s
  · exact .refl s

theorem releaseAllClaims_careful (h : Nat) (o : Order) (s : State) : Careful A s (releaseAllClaims h o s) :=
  ((releaseOutbound_careful _ _ s).trans (releaseInbound_careful _ _ _)).trans (releaseInbound_careful _ _ _)

/-! ## Orders that stay where they are -/

/-- An order's record changed with its place, and with it its state as R91 sees it, kept. -/
structure PlaceKept (o p : Order) : Prop where
  loc : p.loc = o.loc
  assigned : p.state = .assigned ↔ o.state = .assigned
  onVehicle : p.state.onVehicle = o.state.onVehicle
  timed : OrderTimed o → OrderTimed p

/-- One order's record changed, its place kept. -/
theorem fleetKept_of_placeKept {h : Nat} {o p : Order} (ho : tblGet s.ort.orders h = some o) (hk : PlaceKept o p)
    (hp : tblGet t.ort.orders h = some p) (others : otherOrdersKept h s t) (hv : t.vht.vehicles = s.vht.vehicles) :
    FleetKept s t := by
  have read : ∀ g q, tblGet t.ort.orders g = some q →
      ∃ r, tblGet s.ort.orders g = some r ∧ PlaceKept r q := by
    intro g q hq
    by_cases hg : g = h
    · subst hg
      rw [hp] at hq
      cases hq
      exact ⟨o, ho, hk⟩
    · rw [others g hg] at hq
      exact ⟨q, hq, ⟨rfl, .rfl, rfl, id⟩⟩
  intro a
  refine ⟨⟨by rw [hv]; exact a.sound, ?_, ?_, ?_⟩, fun x => ⟨by rw [hv]; exact x.vehicles, ?_⟩⟩
  · intro k v i g hv' hl
    rw [hv] at hv'
    obtain ⟨q, hq, hloc, hs⟩ := a.layers k v i g hv' hl
    by_cases hg : g = h
    · subst hg
      rw [ho] at hq
      cases hq
      exact ⟨p, hp, hk.loc.trans hloc, hk.assigned.trans hs⟩
    · exact ⟨q, by rw [others g hg]; exact hq, hloc, hs⟩
  · intro g q hq
    obtain ⟨r, hr, e⟩ := read g q hq
    rw [e.loc, e.onVehicle]
    exact a.places g r hr
  · intro g q k i hq hl
    obtain ⟨r, hr, e⟩ := read g q hq
    rw [hv]
    exact a.located g r k i hr (by rw [← e.loc]; exact hl)
  · intro g q hq
    obtain ⟨r, hr, e⟩ := read g q hq
    exact e.timed (x.orders g r hr)

theorem putOrder_others (h : Nat) (o : Order) (s : State) : otherOrdersKept h s (putOrder h o s) := by
  intro k hk
  simp [putOrder, tblGet_set_other _ _ hk]

@[simp] theorem putOrder_record (h : Nat) (o : Order) (s : State) : tblGet (putOrder h o s).ort.orders h = some o := by
  simp [putOrder]

/-- One order's record changed, where it enters neither QUEUED nor CARRYING. -/
theorem Unflagged.of_order {h : Nat} {o p : Order} (ho : tblGet s.ort.orders h = some o)
    (hp : tblGet t.ort.orders h = some p) (others : otherOrdersKept h s t)
    (hs : p.state = .queued ∨ p.state = .carrying → o.state = p.state) (hv : t.vht.vehicles = s.vht.vehicles)
    (hm : t.shm.shelves = s.shm.shelves) (hb : t.bac.bays = s.bac.bays) : Unflagged s t :=
  { Unflagged.of_eq (s := s) (t := { t with ort := s.ort }) rfl hv hm hb with
    orders := fun g q hq he => by
      by_cases hg : g = h
      · subst hg
        rw [hp] at hq
        cases hq
        exact ⟨o, ho, hs he⟩
      · rw [others g hg] at hq
        exact ⟨q, hq, rfl⟩ }

theorem updOrder_careful {h : Nat} {f : Order → Order} (hk : ∀ o, tblGet s.ort.orders h = some o → PlaceKept o (f o))
    (hs : ∀ o, (f o).state = o.state) : Careful A s (updOrder h f s) := by
  unfold updOrder
  split
  · rename_i o ho
    exact ⟨⟨putOrder_steady _ ho, fun _ => fleetKept_of_placeKept ho (hk o ho) (putOrder_record _ _ _)
        (putOrder_others _ _ s) rfl, id⟩, id,
      .inr (.of_order ho (putOrder_record _ _ _) (putOrder_others _ _ s) (fun _ => (hs o).symm) rfl rfl rfl)⟩
  · exact .refl s

/-- What moving an order leaves in the tables (R49). -/
structure OrderMoved (h : Nat) (p : Order) (st : OrderState) (s t : State) : Prop where
  record : tblGet t.ort.orders h = some p
  others : otherOrdersKept h s t
  batches : t.ort.batches = s.ort.batches
  vht : t.vht = s.vht
  bac : t.bac = s.bac
  shm : t.shm = s.shm
  exam : t.asa.examPending = (s.asa.examPending || decide (st = .queued))

/-- Moving an order: its new record stands in its entry, and nothing else of the tables has changed. -/
theorem moveOrder_moved {h : Nat} {o : Order} (ho : tblGet s.ort.orders h = some o) (f : Order → Order)
    (st : OrderState) (why : OrderReason) (left : Option Nat) :
    OrderMoved h (enterState s.now st (f (leaveState s.now o))) st s (moveOrder h f st why left s) := by
  rw [moveOrder_eq ho]
  refine ⟨?_, ?_, ?_, ?_, ?_, ?_, ?_⟩
  · rw [setExamIf_ort, queueNotice_eq]; simp
  · intro k hk; rw [setExamIf_ort, queueNotice_eq]; exact putOrder_others _ _ s k hk
  · rw [setExamIf_ort, queueNotice_eq]; rfl
  · rw [setExamIf_vht, queueNotice_eq]; rfl
  · rw [setExamIf_bac, queueNotice_eq]; rfl
  · rw [setExamIf_shm, queueNotice_eq]; rfl
  · rw [setExamIf_examPending, queueNotice_eq]; rfl

theorem OrderMoved.flag {h : Nat} {p : Order} {st : OrderState} (m : OrderMoved h p st s t) {o : Order}
    (ho : tblGet s.ort.orders h = some o) (hp : p.state = st) (hst : st ≠ .carrying) : FlagKept s t where
  exam := fun e => by simp [m.exam, e]
  flagged := by
    by_cases hq : st = .queued
    · exact .inl (by simp [m.exam, hq])
    · exact .inr (.of_order ho m.record m.others (fun e => by rw [hp] at e; simp [hq, hst] at e) (by rw [m.vht])
        (by rw [m.shm]) (by rw [m.bac]))

/-- An order moved between states of one kind, its place kept (R49). -/
theorem moveOrder_sound {h : Nat} {o : Order} {f : Order → Order} {st : OrderState} {why : OrderReason}
    {left : Option Nat} (ho : tblGet s.ort.orders h = some o)
    (hk : A → PlaceKept o (enterState s.now st (f (leaveState s.now o)))) :
    Sound A s (moveOrder h f st why left s) where
  steady := moveOrder_steady _ _ _ _ _ s
  fleet := fun a => by
    have m := moveOrder_moved ho f st why left
    exact fleetKept_of_placeKept ho (hk a) m.record m.others (by rw [m.vht])
  places := by
    unfold PlacesTimed
    rw [(moveOrder_moved ho f st why left).bac]
    exact id

theorem moveOrder_flag {h : Nat} {f : Order → Order} {st : OrderState} {why : OrderReason} {left : Option Nat}
    (hst : st ≠ .carrying) : FlagKept s (moveOrder h f st why left s) := by
  cases ho : tblGet s.ort.orders h with
  | none =>
    simp only [moveOrder, ho]
    exact (Careful.refl (A := True) s).flag
  | some o => exact (moveOrder_moved ho f st why left).flag ho (enterState_state _ _ _) hst

/-! ## An order that leaves its vehicle (R50 to R52) -/

section Left

variable (now tTake : Nat) (i : LayerId) (v : Vehicle)

@[simp] theorem leftVehicle_layer : (leftVehicle now tTake i v).layer i = .empty := by
  unfold leftVehicle
  split <;> (try split) <;> (cases i <;> simp_all [Vehicle.layer, Vehicle.withLayer, LayerId.other])

@[simp] theorem leftVehicle_layer_other : (leftVehicle now tTake i v).layer i.other = v.layer i.other := by
  unfold leftVehicle
  split <;> (try split) <;> (cases i <;> simp_all [Vehicle.layer, Vehicle.withLayer, LayerId.other])

theorem leftVehicle_kept : (leftVehicle now tTake i v).fleetId = v.fleetId ∧
    (leftVehicle now tTake i v).noTakes = v.noTakes ∧ (leftVehicle now tTake i v).link = v.link ∧
    (leftVehicle now tTake i v).silence = v.silence := by
  unfold leftVehicle
  split <;> (try split) <;> (cases i <;> simp [Vehicle.withLayer])

theorem leftVehicle_holds {j : LayerId} {h : Nat} (hh : ((leftVehicle now tTake i v).layer j).holds h) :
    j = i.other ∧ (leftVehicle now tTake i v).layer j = v.layer j := by
  rcases LayerId.eq_or_other i j with rfl | rfl
  · simp at hh
  · exact ⟨rfl, leftVehicle_layer_other now tTake i v⟩

/-- The layers of the left vehicle among those it had. -/
theorem leftVehicle_layer_cases (j : LayerId) :
    (leftVehicle now tTake i v).layer j = .empty ∨ (leftVehicle now tTake i v).layer j = v.layer j := by
  rcases LayerId.eq_or_other i j with rfl | rfl
  · exact .inl (leftVehicle_layer now tTake j v)
  · exact .inr (leftVehicle_layer_other now tTake i v)

theorem leftVehicle_sound (h : VehicleSound v) : VehicleSound (leftVehicle now tTake i v) where
  oneActive := fun j a b ha hb => by
    rcases leftVehicle_layer_cases now tTake i v j with e | e <;> rw [e] at ha
    · cases ha
    · rcases leftVehicle_layer_cases now tTake i v j.other with e | e <;> rw [e] at hb
      · cases hb
      · exact h.oneActive j a b ha hb
  oneStaged := fun j a b ha hb => by
    rcases leftVehicle_layer_cases now tTake i v j with e | e <;> rw [e] at ha
    · cases ha
    · rcases leftVehicle_layer_cases now tTake i v j.other with e | e <;> rw [e] at hb
      · cases hb
      · exact h.oneStaged j a b ha hb
  noTakes := by rw [(leftVehicle_kept now tTake i v).2.1]; exact h.noTakes

/-- A vehicle's take timer by its two layers, one of them named. -/
theorem takeCondition_iff {w : Vehicle} (i : LayerId) :
    ((∃ j h, w.layer j = .staged h) ∧ ∀ j h, w.layer j ≠ .active h) ↔
      ((∃ h, w.layer i = .staged h) ∨ ∃ h, w.layer i.other = .staged h) ∧
        (∀ h, w.layer i ≠ .active h) ∧ ∀ h, w.layer i.other ≠ .active h := by
  constructor
  · rintro ⟨⟨j, h, e⟩, n⟩
    refine ⟨?_, n i, n i.other⟩
    rcases LayerId.eq_or_other i j with rfl | rfl
    · exact .inl ⟨h, e⟩
    · exact .inr ⟨h, e⟩
  · rintro ⟨e, n, m⟩
    refine ⟨?_, fun j => ?_⟩
    · rcases e with ⟨h, e⟩ | ⟨h, e⟩
      · exact ⟨i, h, e⟩
      · exact ⟨i.other, h, e⟩
    · rcases LayerId.eq_or_other i j with rfl | rfl
      · exact n
      · exact m

@[simp] theorem withLayer_takeTimer (y : Layer) : (v.withLayer i y).takeTimer = v.takeTimer := by cases i <;> rfl

/-- A take timer stops with the STAGED layer's order, and starts where one waits behind the ACTIVE order that left. -/
theorem leftVehicle_takeTimer : (leftVehicle now tTake i v).takeTimer =
    match v.layer i, v.layer i.other with
    | .empty, _ => v.takeTimer
    | .staged _, _ => none
    | .active _, .staged _ => some { start := now, expiry := min 4294967295 (now + tTake) }
    | .active _, _ => v.takeTimer := by
  unfold leftVehicle
  cases h1 : v.layer i <;> cases h2 : v.layer i.other <;> simp
  all_goals split <;> rfl

theorem leftVehicle_timed (h : VehicleSound v) (t : VehicleTimed v) : VehicleTimed (leftVehicle now tTake i v) where
  take := by
    have ht := t.take
    rw [takeCondition_iff i] at ht ⊢
    simp only [leftVehicle_layer, leftVehicle_layer_other]
    have one := h.oneStaged i
    have act := h.oneActive i
    rw [leftVehicle_takeTimer]
    cases h1 : v.layer i <;> cases h2 : v.layer i.other <;> simp_all
  silence := by
    rw [(leftVehicle_kept now tTake i v).2.2.1, (leftVehicle_kept now tTake i v).2.2.2]
    exact t.silence

end Left

/-- An order taken off its vehicle, its layer emptied, leaves layers and orders in agreement. -/
theorem fleetKept_of_left {h : Nat} {o p : Order} (ho : tblGet s.ort.orders h = some o)
    (hp : tblGet t.ort.orders h = some p) (others : otherOrdersKept h s t) (hv : layerLeft o.loc s t)
    (hloc : p.loc = none) (hst : p.state.onVehicle = false) (horphan : OrderTimed o → p.orphan = none) :
    FleetKept s t := by
  intro a
  have pnot : p.state ≠ .suspended := fun e => by simp [e, OrderState.onVehicle] at hst
  -- what is read of a vehicle afterwards
  have read : ∀ k w, tblGet t.vht.vehicles k = some w → ∃ v, tblGet s.vht.vehicles k = some v ∧
      (w = v ∨ ∃ i, o.loc = some (k, i) ∧ w = leftVehicle s.now s.vht.tTake i v) := by
    intro k w hw
    rw [hv k] at hw
    obtain ⟨v, hv', rfl⟩ := Option.map_eq_some_iff.1 hw
    refine ⟨v, hv', ?_⟩
    split
    · rename_i slot i hl
      split
      · rename_i hk
        subst hk
        exact .inr ⟨i, hl, rfl⟩
      · exact .inl rfl
    · exact .inl rfl
  refine ⟨⟨?_, ?_, ?_, ?_⟩, fun x => ⟨?_, ?_⟩⟩
  · intro k w hw
    obtain ⟨v, hv', rfl | ⟨i, hl, rfl⟩⟩ := read k w hw
    · exact a.sound k w hv'
    · exact leftVehicle_sound _ _ i v (a.sound k v hv')
  · intro k w j g hw hg
    obtain ⟨v, hv', rfl | ⟨i, hl, rfl⟩⟩ := read k w hw
    · obtain ⟨q, hq, hql, hqs⟩ := a.layers k w j g hv' hg
      have hgh : g ≠ h := by
        rintro rfl
        rw [ho] at hq
        cases hq
        have e := hv k
        rw [hw, hv', hql] at e
        simp only [if_true, Option.map_some, Option.some.injEq] at e
        rw [e] at hg
        simp at hg
      exact ⟨q, by rw [others g hgh]; exact hq, hql, hqs⟩
    · obtain ⟨rfl, e⟩ := leftVehicle_holds _ _ _ _ hg
      rw [e] at hg ⊢
      obtain ⟨q, hq, hql, hqs⟩ := a.layers k v i.other g hv' hg
      have hgh : g ≠ h := by
        rintro rfl
        rw [ho] at hq
        cases hq
        rw [hl] at hql
        cases i <;> simp [LayerId.other] at hql
      exact ⟨q, by rw [others g hgh]; exact hq, hql, hqs⟩
  · intro g q hq
    by_cases hg : g = h
    · subst hg
      rw [hp] at hq
      cases hq
      simp [hloc, hst]
    · rw [others g hg] at hq
      exact a.places g q hq
  · intro g q k j hq hl
    by_cases hg : g = h
    · subst hg
      rw [hp] at hq
      cases hq
      simp [hloc] at hl
    · rw [others g hg] at hq
      obtain ⟨v, hv', hh⟩ := a.located g q k j hq hl
      have e := hv k
      rw [hv', Option.map_some] at e
      refine ⟨_, e, ?_⟩
      split
      · rename_i slot i hol
        split
        · rename_i hk
          subst hk
          obtain ⟨v', hv2, hh2⟩ := a.located h o k i ho hol
          rw [hv'] at hv2
          cases hv2
          rcases LayerId.eq_or_other i j with rfl | rfl
          · exact absurd (Layer.holds_inj hh hh2) hg
          · simpa using hh
        · exact hh
      · exact hh
  · intro k w hw
    obtain ⟨v, hv', rfl | ⟨i, hl, rfl⟩⟩ := read k w hw
    · exact x.vehicles k w hv'
    · exact leftVehicle_timed _ _ i v (a.sound k v hv') (x.vehicles k v hv')
  · intro g q hq
    by_cases hg : g = h
    · subst hg
      rw [hp] at hq
      cases hq
      simp [OrderTimed, horphan (x.orders g o ho), pnot]
    · rw [others g hg] at hq
      exact x.orders g q hq

/-- Emptying a layer: where a vehicle becomes IDLE or its take timer starts, the flag is set (R51). -/
theorem emptyLayer_flag (slot : Nat) (i : LayerId) (s : State) : FlagKept s (emptyLayer slot i s) := by
  unfold emptyLayer
  split
  · have stays : ∀ v : Vehicle, (v.withLayer i .empty).activity = v.activity := by intro v; cases i <;> rfl
    split
    · exact (Careful.refl (A := True) s).flag
    · exact updVehicle_flag (fun v _ e => by simpa [stays] using e) (fun v _ e => absurd rfl e)
    · split
      · exact updVehicle_flag (fun v _ e => by simpa [stays] using e) (fun v _ e => absurd rfl e)
      · exact .of_exam rfl
    · exact .of_exam rfl
    · exact .of_exam rfl
  · exact (Careful.refl (A := True) s).flag

theorem leaveVehicle_flag (loc : Option (Nat × LayerId)) (s : State) : FlagKept s (leaveVehicle loc s) := by
  unfold leaveVehicle
  split
  · exact emptyLayer_flag _ _ s
  · exact (Careful.refl (A := True) s).flag

/-- Flags of two operations in a row, the first of them steady. -/
theorem FlagKept.after {u : State} (k : FlagKept t u) (h : FlagKept s t) (hs : Steady s t) : FlagKept s u :=
  h.trans (by rw [hs.framed.lyt]) k

theorem leaveVehicle_places (loc : Option (Nat × LayerId)) (s : State) :
    PlacesTimed s → PlacesTimed (leaveVehicle loc s) := by
  unfold PlacesTimed
  rw [(leaveVehicle_only loc s).eq]
  exact id

/-- Order `h`, whose record is `o`, leaves its vehicle, its claims are changed, and it moves to a state off vehicles. -/
theorem leave_move_careful {h : Nat} {o : Order} {f : Order → Order} {st : OrderState} {why : OrderReason}
    {left : Option Nat} {g : State → State} (ho : tblGet s.ort.orders h = some o)
    (hg : ∀ u, OnlyShelves u (g u)) (hc : ∀ u, Careful A u (g u))
    (hst : st.onVehicle = false) (hf : ∀ q, (f q).loc = none)
    (hp : OrderTimed o → ∀ n, (f (leaveState n o)).orphan = none) :
    Careful A s (moveOrder h f st why left (g (leaveVehicle o.loc s))) := by
  have steadyL := leaveVehicle_steady o.loc s
  have facts := leaveRelease_facts (leaveVehicle_only o.loc s) (hg (leaveVehicle o.loc s))
  obtain ⟨e1, -, e3, e4, e5, -, -⟩ := facts
  generalize hu : g (leaveVehicle o.loc s) = u at *
  have hcu : Careful A (leaveVehicle o.loc s) u := by rw [← hu]; exact hc _
  have m := moveOrder_moved (s := u) (by rw [e1]; exact ho) f st why left
  have hcar : st ≠ .carrying := by rintro rfl; simp [OrderState.onVehicle] at hst
  have fields : ∀ n q, (enterState n st q).loc = q.loc ∧ (enterState n st q).orphan = q.orphan := by
    intro n q
    unfold enterState
    split <;> exact ⟨rfl, rfl⟩
  refine ⟨⟨(steadyL.trans hcu.steady).trans (moveOrder_steady _ _ _ _ _ u), fun _ => ?_, fun hx => ?_⟩, ?_⟩
  · refine fleetKept_of_left ho m.record (fun k hk => by rw [m.others k hk, e1]) ?_ ((fields _ _).1.trans (hf _))
      (by rw [enterState_state]; exact hst) (fun x => (fields _ _).2.trans (hp x _))
    exact layerLeft_id (leaveVehicle_left o.loc s) (by rw [m.vht, e4])
  · have := hcu.places (leaveVehicle_places o.loc s hx)
    unfold PlacesTimed at this ⊢
    rw [m.bac]
    exact this
  · exact (moveOrder_flag hcar).after (hcu.flag.after (leaveVehicle_flag o.loc s) steadyL) (steadyL.trans hcu.steady)

theorem returnOrder_careful {h : Nat} {st : OrderState} (hst : st.onVehicle = false) (s : State) :
    Careful A s (returnOrder h st s) := by
  unfold returnOrder
  split
  · rename_i o ho
    exact leave_move_careful ho (fun u => releaseGrantClaims_only h o u) (fun u => releaseGrantClaims_careful h o u) hst
      (fun _ => rfl) (fun _ _ => rfl)
  · exact .refl s

theorem closeBatch_careful (tag : Nat) (s : State) : Careful A s (closeBatch tag s) := by
  obtain ⟨e1, e2, e3, e4, -, e6⟩ := closeBatch_facts tag s
  exact ⟨⟨closeBatch_steady tag s, fun _ => .of_eq e1 (by rw [e2]), by unfold PlacesTimed; rw [e3]; exact id⟩,
    by rw [e6]; exact id, .inr (.of_eq e1 (by rw [e2]) (by rw [e4]) (by rw [e3]))⟩

theorem countBatch_careful (o : Order) (failed : Bool) (s : State) : Careful A s (countBatch o failed s) := by
  obtain ⟨e1, e2, e3, e4, -, e6⟩ := countBatch_facts o failed s
  exact ⟨⟨countBatch_steady o failed s, fun _ => .of_eq e1 (by rw [e2]), by unfold PlacesTimed; rw [e3]; exact id⟩,
    by rw [e6]; exact id, .inr (.of_eq e1 (by rw [e2]) (by rw [e4]) (by rw [e3]))⟩

theorem endOrder_careful {h : Nat} {st : OrderState} {why : EndReason} (hst : st.onVehicle = false) (s : State) :
    Careful A s (endOrder h st why s) := by
  unfold endOrder
  split
  · rename_i o ho
    exact (leave_move_careful ho (fun u => releaseAllClaims_only h o u) (fun u => releaseAllClaims_careful h o u) hst
      (fun _ => rfl) (fun _ _ => rfl)).trans (countBatch_careful _ _ _)
  · exact .refl s

/-! ## Recalls and aborts -/

theorem recallStaged_careful (slot : Nat) (s : State) : Careful A s (recallStaged slot s) := by
  unfold recallStaged
  split
  · split
    · exact (issueTo_careful _ _ s).trans (returnOrder_careful rfl _)
    · exact .refl s
  · exact .refl s

theorem PlaceKept.of_eq {o p : Order} (hl : p.loc = o.loc) (hs : p.state = o.state) (hp : p.orphan = o.orphan) :
    PlaceKept o p := ⟨hl, by rw [hs], by rw [hs], by unfold OrderTimed; rw [hs, hp]; exact id⟩

theorem requeueAbort_careful (slot h : Nat) (s : State) : Careful A s (requeueAbort slot h s) := by
  unfold requeueAbort
  split
  · exact .ite _ (.refl s) (.after (issueTo_careful _ _ _)
      (updOrder_careful (fun _ _ => .of_eq rfl rfl rfl) (fun _ => rfl)))
  · exact .refl s

/-! ## Stalls and repositioning -/

theorem endReposition_careful (slot : Nat) (s : State) : Careful A s (endReposition slot s) := by
  unfold endReposition
  split
  · refine .ite _ (.refl s) (.ite _ ?_ ?_)
    · refine Sound.setExam (updVehicle_sound fun v _ => ?_)
      exact .of_eq rfl rfl rfl rfl id id
    · exact updVehicle_careful (fun v _ => .of_eq rfl rfl rfl rfl id id) (fun v _ e => by simp at e)
  · exact .refl s

theorem setFaultStall_careful (slot : Nat) (c : FaultClass) (k : FaultCode) (s : State) :
    Careful A s (setFaultStall slot c k s) := by
  unfold setFaultStall
  split
  · have h : Careful A s (endReposition slot (updVehicle slot (fun v => { v with
        faultStall := true, lastFault := lastFaultAfter v c k, recovered := false }) s)) :=
      .after (endReposition_careful _ _)
        (updVehicle_careful (fun v _ => .of_eq rfl rfl rfl rfl id id) (fun _ _ => id))
    split
    · exact h
    · exact h.trans (vehicleNotice_careful _ _ _)
  · exact .refl s

theorem clearFaultStall_careful (slot : Nat) (s : State) : Careful A s (clearFaultStall slot s) :=
  Sound.setExam (.after (vehicleNotice_careful _ _ _).toSound
    (updVehicle_sound fun v _ => .of_eq rfl rfl rfl rfl (fun _ => by simp) id))

theorem strayLoad_careful (slot : Nat) (s : State) : Careful A s (strayLoad slot s) :=
  (setFaultStall_careful _ _ _ s).trans (raiseVehicle_careful _ _ _ _ _ _)

theorem sendMoveTo_careful (slot c : Nat) (s : State) : Careful A s (sendMoveTo slot c s) :=
  .after (updVehicle_careful (fun v _ => .of_eq rfl rfl rfl rfl id id) (fun v _ e => by simp at e))
    (issueTo_careful _ _ s)

theorem dropLink_careful (slot : Nat) (why : OfflineReason) (s : State) : Careful A s (dropLink slot why s) :=
  .after (vehicleNotice_careful _ _ _)
    (updVehicle_careful (fun v _ => .of_eq rfl rfl rfl rfl id fun _ => by simp) (fun _ _ => id))

/-! ## Entry to bays -/

theorem updBay_sound {b : Nat} {f : BayState → BayState} (hf : ∀ y, BaySteady y (f y))
    (ht : ∀ y, BayTimed y → BayTimed (f y)) : Sound A s (updBay b f s) := by
  refine ⟨updBay_steady hf, fun _ => ?_, ?_⟩
  · unfold updBay; split <;> exact .of_eq rfl rfl
  · unfold updBay
    split
    · rename_i y hy
      intro hp e he
      rcases mem_tblSet he with rfl | he
      · have := ht y (hp _ (tblGet_mem hy))
        exact ⟨this.lapse, this.starve⟩
      · exact hp e he
    · exact id

/-- What is read of a bay once one is changed. -/
theorem updBay_get (b : Nat) (f : BayState → BayState) (s : State) (c : Nat) :
    tblGet (updBay b f s).bac.bays c =
      if c = b then (tblGet s.bac.bays c).map (fun y => { f y with yield := yieldAfter s.now s.bac.tYield y (f y) })
      else tblGet s.bac.bays c := by
  unfold updBay
  split
  · rename_i y hy
    by_cases hc : c = b
    · subst hc; simp [hy]
    · simp [hc, tblGet_set_other]
  · rename_i hy
    by_cases hc : c = b
    · subst hc; simp [hy]
    · simp [hc]

theorem updBay_flag {b : Nat} {f : BayState → BayState}
    (ha : ∀ y, ∀ a ∈ y.admitted, ∃ e ∈ (f y).admitted, e.slot = a.slot) : FlagKept s (updBay b f s) := by
  refine ⟨by unfold updBay; split <;> exact id, .inr ?_⟩
  refine { Unflagged.of_eq (s := s) (t := { updBay b f s with bac := s.bac }) ?_ ?_ ?_ rfl with admitted := ?_ }
  · unfold updBay; split <;> rfl
  · unfold updBay; split <;> rfl
  · unfold updBay; split <;> rfl
  · intro c y a hy hay
    rw [updBay_get]
    split
    · obtain ⟨e, he, hs⟩ := ha y a hay
      rw [hy]
      exact ⟨_, e, rfl, he, hs⟩
    · exact ⟨y, a, hy, hay, rfl⟩

theorem updBay_careful {b : Nat} {f : BayState → BayState} (hf : ∀ y, BaySteady y (f y))
    (ht : ∀ y, BayTimed y → BayTimed (f y)) (ha : ∀ y, ∀ a ∈ y.admitted, ∃ e ∈ (f y).admitted, e.slot = a.slot) :
    Careful A s (updBay b f s) := (updBay_sound hf ht).with_flag (updBay_flag ha)

theorem leaveBay_careful (b slot : Nat) (s : State) : Careful A s (leaveBay b slot s) := by
  unfold leaveBay
  split
  · refine Sound.setExam (updBay_sound (fun _ => ⟨rfl, rfl, rfl, rfl⟩) fun y hy => ?_)
    exact ⟨fun a ha => hy.lapse a (List.mem_filter.1 ha).1, hy.starve⟩
  · exact .refl s

theorem leaveQueue_careful (b slot : Nat) (s : State) : Careful A s (leaveQueue b slot s) :=
  updBay_careful (fun _ => ⟨rfl, rfl, rfl, rfl⟩)
    (fun _ hy => ⟨hy.lapse, fun w hw => hy.starve w (List.mem_filter.1 hw).1⟩) (fun _ a ha => ⟨a, ha, rfl⟩)

theorem grantEntry_careful (b slot : Nat) (s : State) : Careful A s (grantEntry b slot s) :=
  .after (issueTo_careful _ _ _) (updBay_careful (fun _ => ⟨rfl, rfl, rfl, rfl⟩)
    (fun y hy => ⟨fun a ha => by
        rcases List.mem_append.1 ha with h | h
        · exact hy.lapse a h
        · simp at h; simp [h], hy.starve⟩)
    (fun y a ha => ⟨a, List.mem_append_left _ ha, rfl⟩))

/-- The head of a queue leaves it. -/
theorem dropHead_careful (b : Nat) {w : Waiting} {rest : List Waiting} {y : BayState}
    (hy : tblGet s.bac.bays b = some y) (hq : y.queue = w :: rest) :
    Careful A s (updBay b (fun y => { y with queue := rest }) s) := by
  refine Sound.with_flag ⟨updBay_steady fun _ => ⟨rfl, rfl, rfl, rfl⟩, fun _ => ?_, ?_⟩
    (updBay_flag fun _ a ha => ⟨a, ha, rfl⟩)
  · unfold updBay; split <;> exact .of_eq rfl rfl
  · intro hp e he
    simp only [updBay, hy] at he
    rcases mem_tblSet he with rfl | he
    · have := hp _ (tblGet_mem hy)
      exact ⟨this.lapse, fun x hx => this.starve x (by rw [hq]; exact List.mem_cons_of_mem _ hx)⟩
    · exact hp e he

theorem grantHead_careful (b : Nat) (s : State) : Careful A s (grantHead b s) := by
  unfold grantHead
  split
  · rename_i y hy
    split
    · rename_i w rest hq
      exact .ite _ (.after (grantEntry_careful _ _ _) (dropHead_careful b hy hq)) (.refl s)
    · exact .refl s
  · exact .refl s

theorem grantHeads_careful (n b : Nat) (s : State) : Careful A s (grantHeads n b s) := by
  induction n generalizing s with
  | zero => exact .refl s
  | succ n ih => exact (grantHead_careful b s).trans (ih _)

theorem grantQueue_careful (b : Nat) (s : State) : Careful A s (grantQueue b s) := by
  unfold grantQueue
  split
  · exact grantHeads_careful _ _ s
  · exact .refl s

theorem leaveBaysGranting_careful (bs : List Nat) (slot : Nat) (s : State) :
    Careful A s (leaveBaysGranting bs slot s) := by
  induction bs generalizing s with
  | nil => exact .refl s
  | cons b bs ih => exact ((leaveBay_careful b slot s).trans (grantQueue_careful _ _)).trans (ih _)

theorem leaveQueues_careful (bs : List Nat) (slot : Nat) (s : State) : Careful A s (leaveQueues bs slot s) := by
  induction bs generalizing s with
  | nil => exact .refl s
  | cons b bs ih => exact (leaveQueue_careful b slot s).trans (ih _)

theorem enterInside_careful (b slot : Nat) (s : State) : Careful A s (enterInside b slot s) :=
  updBay_careful (fun _ => ⟨rfl, rfl, rfl, rfl⟩)
    (fun y hy => ⟨fun a ha => by
        rcases List.mem_append.1 ha with h | h
        · exact hy.lapse a h
        · simp at h; simp [h], hy.starve⟩)
    (fun y a ha => ⟨a, List.mem_append_left _ ha, rfl⟩)

theorem losePlaces_careful (slot : Nat) (s : State) : Careful A s (losePlaces slot s) :=
  (leaveQueues_careful _ _ s).trans (leaveBaysGranting_careful _ _ _)

/-! ## Suspension and resumption -/

/-- Order `h` is on a vehicle, past ASSIGNED (R41). -/
def Carries (s : State) (h : Nat) : Prop :=
  ∃ o, tblGet s.ort.orders h = some o ∧ o.state.onVehicle = true ∧ o.state ≠ .assigned

/-- The record of an order that moves from one state on its vehicle to another, both past ASSIGNED. -/
theorem placeKept_of_carried {o q : Order} {st : OrderState} {now : Nat} (ho : o.state.onVehicle = true)
    (ha : o.state ≠ .assigned) (hst : st.onVehicle = true) (hs : st ≠ .assigned) (hl : q.loc = o.loc)
    (ht : OrderTimed o → (q.orphan.isSome = true ↔ st = .suspended)) : PlaceKept o (enterState now st q) := by
  have sq : st ≠ .queued := by rintro rfl; simp [OrderState.onVehicle] at hst
  refine ⟨?_, ?_, ?_, ?_⟩
  · simp [enterState, sq, hl]
  · simp [ha, hs]
  · simp [ho, hst]
  · intro x
    simpa [OrderTimed, enterState, sq] using ht x

@[simp] theorem leaveState_loc (now : Nat) (o : Order) : (leaveState now o).loc = o.loc := by
  unfold leaveState
  split <;> rfl

@[simp] theorem leaveState_orphan (now : Nat) (o : Order) : (leaveState now o).orphan = o.orphan := by
  unfold leaveState
  split <;> rfl

theorem suspendOrder_careful {h : Nat} (why : SuspendReason) (hc : A → Carries s h) :
    Careful A s (suspendOrder h why s) := by
  cases ho : tblGet s.ort.orders h with
  | none =>
    simp only [suspendOrder, moveOrder, ho]
    exact .refl s
  | some o =>
    refine (moveOrder_sound ho fun a => ?_).with_flag (moveOrder_flag (by simp))
    obtain ⟨p, hp, h1, h2⟩ := hc a
    rw [ho] at hp
    cases hp
    exact placeKept_of_carried h1 h2 rfl (by simp) (by simp) (fun _ => by simp)

/-- A state with the orders of another carries what the other does. -/
theorem Carries.of_eq {h : Nat} (e : t.ort.orders = s.ort.orders) (c : Carries s h) : Carries t h := by
  unfold Carries
  rw [e]
  exact c

theorem OnlyShelves.ort (h : OnlyShelves s t) : t.ort = s.ort := by rw [h.eq]

theorem resumeOrder_careful {slot h : Nat} {f : Order → Order} (hc : A → Carries s h) (hl : ∀ q, (f q).loc = q.loc) :
    Careful A s (resumeOrder slot h f s) := by
  unfold resumeOrder
  split
  · rename_i o ho
    have ev := (vacateSource_only h o.source s).ort
    refine Sound.setExam (.after (moveOrder_sound (by rw [ev]; exact ho) fun a => ?_)
      (vacateSource_careful h o.source s).toSound)
    obtain ⟨p, hp, h1, h2⟩ := hc a
    rw [ho] at hp
    cases hp
    exact placeKept_of_carried h1 h2 rfl (by simp) (by simp [hl]) (fun _ => by simp)
  · exact .refl s

theorem resumeOnReport_careful {slot h : Nat} (load : Load) (hc : A → Carries s h) :
    Careful A s (resumeOnReport slot h load s) := by
  unfold resumeOnReport
  split
  · exact (releaseInbound_careful _ _ s).trans (resumeOrder_careful
      (fun a => (hc a).of_eq (by rw [(releaseInbound_only _ _ s).ort])) (fun _ => rfl))
  · exact .refl s

theorem mismatch_careful (slot h : Nat) (s : State) : Careful A s (mismatch slot h s) := by
  unfold mismatch
  split
  · exact .after (raiseVehicle_careful _ _ _ _ _ _) (updOrder_careful (fun _ _ => .of_eq rfl rfl rfl) (fun _ => rfl))
  · exact .refl s

theorem carrierInvolved_careful {slot h : Nat} (why : SuspendReason) (hc : A → Carries s h) :
    Careful A s (carrierInvolved slot h why s) := by
  unfold carrierInvolved
  split
  · split
    · exact .ite _ (.refl s) (suspendOrder_careful why hc)
    · exact .refl s
  · exact (endOrder_careful rfl s).trans
      (updVehicle_careful (fun v _ => .of_eq rfl rfl rfl rfl id id) (fun _ _ => id))

/-! ## Loss of a vehicle (R165) -/

theorem loseStaged_careful (slot : Nat) (s : State) : Careful A s (loseStaged slot s) := by
  unfold loseStaged
  split
  · split
    · exact returnOrder_careful rfl s
    · exact .refl s
  · exact .refl s

theorem loseActive_careful (slot : Nat) (s : State) : Careful A s (loseActive slot s) := by
  unfold loseActive
  split
  · rename_i v hv
    split
    · rename_i h o hact
      have ho : tblGet s.ort.orders h = some o := by
        unfold activeOrder at hact
        split at hact
        · obtain ⟨q, hq, e⟩ := Option.map_eq_some_iff.1 hact
          cases e
          exact hq
        · cases hact
      split
      · exact returnOrder_careful rfl s
      · exact endOrder_careful rfl s
      · rename_i hs; exact suspendOrder_careful _ fun _ => ⟨o, ho, by rw [hs]; exact ⟨rfl, by simp⟩⟩
      · rename_i hs; exact suspendOrder_careful _ fun _ => ⟨o, ho, by rw [hs]; exact ⟨rfl, by simp⟩⟩
      · rename_i hs; exact suspendOrder_careful _ fun _ => ⟨o, ho, by rw [hs]; exact ⟨rfl, by simp⟩⟩
      · exact updOrder_careful (fun _ _ => .of_eq rfl rfl rfl) (fun _ => rfl)
      all_goals exact .refl s
    · exact .refl s
  · exact .refl s

theorem loseVehicle_careful (slot : Nat) (s : State) : Careful A s (loseVehicle slot s) :=
  (((loseStaged_careful slot s).trans (loseActive_careful _ _)).trans (losePlaces_careful _ _)).trans
    (endReposition_careful _ _)

theorem byeVehicle_careful (slot : Nat) (s : State) : Careful A s (byeVehicle slot s) :=
  (dropLink_careful _ _ s).trans (loseVehicle_careful _ _)

end Operations

end Sys2Proof.Machine
end

section
/-! What every command keeps, as relations between the state before and the state after that hold in a row: the bounds,
the tables, the timers, the layout, the capture and the examination-pending flag. -/
namespace Sys2Proof.Machine

open Sys2Proof

/-! ## The relations -/

/-- The bounds, the tables and the timers of the statements about every command are kept. -/
structure Kept (s t : State) : Prop where
  lines : LinesBounded s.liu → LinesBounded t.liu
  settings : SettingsInRange s → SettingsInRange t
  tables : TablesCanonical s → FleetConsistent s → TablesCanonical t ∧ FleetConsistent t
  rescan : RescanFollowsQueue s → RescanFollowsQueue t
  yield : YieldFollowsPressure s → YieldFollowsPressure t
  rest : SurveyAtRest s → SurveyAtRest t
  timers : TablesCanonical s → FleetConsistent s → SurveyAtRest s → TimersRun s → TimersRun t

/-- A locked layout in RUNNING is as it was but for the open flags of its ports (R10, R13, R14, R17). -/
def LayoutStays (s t : State) : Prop :=
  s.lyt.lock = true → s.lyt.opState = .running →
    t.lyt = { s.lyt with ports := t.lyt.ports } ∧
      ∀ k, (tblGet t.lyt.ports k).map (fun p => { p with isOpen := true }) =
        (tblGet s.lyt.ports k).map (fun p => { p with isOpen := true })

/-- What every command but the resets, a CAPTURE_CLEAR and the layout records keeps. -/
structure Regular (s t : State) : Prop extends Kept s t where
  capture : captureGrows s.fcr t.fcr
  layout : LayoutStays s t
  racks : t.lyt.bays = s.lyt.bays

/-- What every such command but the grant step keeps: the examination-pending flag too. -/
structure Ordinary (s t : State) : Prop extends Regular s t where
  flag : FlagKept s t

section Relations

variable {s t u : State}

theorem Kept.refl (s : State) : Kept s s := ⟨id, id, fun a b => ⟨a, b⟩, id, id, id, fun _ _ _ => id⟩

theorem Kept.trans (h : Kept s t) (k : Kept t u) : Kept s u where
  lines := fun a => k.lines (h.lines a)
  settings := fun a => k.settings (h.settings a)
  tables := fun a b => k.tables (h.tables a b).1 (h.tables a b).2
  rescan := fun a => k.rescan (h.rescan a)
  yield := fun a => k.yield (h.yield a)
  rest := fun a => k.rest (h.rest a)
  timers := fun a b c d => k.timers (h.tables a b).1 (h.tables a b).2 (h.rest c) (h.timers a b c d)

theorem LayoutStays.of_eq (h : t.lyt = s.lyt) : LayoutStays s t := fun _ _ => by
  rw [h]
  exact ⟨rfl, fun _ => rfl⟩

theorem LayoutStays.trans (h : LayoutStays s t) (k : LayoutStays t u) : LayoutStays s u := by
  intro hl hr
  obtain ⟨e1, p1⟩ := h hl hr
  obtain ⟨e2, p2⟩ := k (by rw [e1]; exact hl) (by rw [e1]; exact hr)
  exact ⟨by rw [e2, e1], fun n => (p2 n).trans (p1 n)⟩

theorem Regular.refl (s : State) : Regular s s := ⟨.refl s, .refl _, .of_eq rfl, rfl⟩

theorem Regular.trans (h : Regular s t) (k : Regular t u) : Regular s u :=
  ⟨h.toKept.trans k.toKept, h.capture.trans k.capture, h.layout.trans k.layout, k.racks.trans h.racks⟩

theorem FlagKept.refl (s : State) : FlagKept s s := ⟨id, .inr (.of_eq rfl rfl rfl rfl)⟩

theorem Ordinary.refl (s : State) : Ordinary s s := ⟨.refl s, .refl s⟩

theorem racked_eq_of_bays {l m : Layout} (h : m.bays = l.bays) : racked m = racked l := by
  funext k
  simp [racked, rackOf, h]

theorem Ordinary.trans (h : Ordinary s t) (k : Ordinary t u) : Ordinary s u :=
  ⟨h.toRegular.trans k.toRegular, h.flag.trans (racked_eq_of_bays h.racks) k.flag⟩

theorem Ordinary.after (k : Ordinary t u) (h : Ordinary s t) : Ordinary s u := h.trans k

theorem Regular.after (k : Regular t u) (h : Regular s t) : Regular s u := h.trans k

theorem Ordinary.ite {c : Prop} [Decidable c] (h : c → Ordinary s t) (k : ¬c → Ordinary s u) :
    Ordinary s (if c then t else u) := by
  split
  · exact h ‹_›
  · exact k ‹_›

/-! ## Steps that are careful -/

theorem Steady.tables (h : Steady s t) (c : TablesCanonical s) : TablesCanonical t where
  orders := ⟨h.orderWf c.orders.1, fun e he => by
    obtain ⟨f, hf, e'⟩ := h.orderKeys e he
    rw [← e']
    exact c.orders.2 f hf⟩
  batches := ⟨h.batchWf c.batches.1, (h.batchCount c.batches.1).trans c.batches.2⟩
  vehicles := ⟨h.vehicleWf c.vehicles.1, fun e he => by
    have ids := congrArg (List.map Prod.fst) (h.vehicleIds c.vehicles.1)
    simp only [List.map_map] at ids
    have : e.1 ∈ s.vht.vehicles.map (Prod.fst ∘ fun e => (e.1, e.2.fleetId)) := by
      rw [← ids]
      exact List.mem_map.2 ⟨e, he, rfl⟩
    obtain ⟨f, hf, e'⟩ := List.mem_map.1 this
    simp only [Function.comp_apply] at e'
    rw [← e']
    exact c.vehicles.2 f hf⟩
  layout := by rw [h.framed.lyt]; exact c.layout
  bays := h.bayWf c.bays
  shelves := ⟨h.shelfWf c.shelves.1, h.shelfListed c.shelves.2⟩

theorem Steady.distinctIds (h : Steady s t) (c : TablesCanonical s)
    (d : (s.vht.vehicles.map (fun e => e.2.fleetId)).Nodup) : (t.vht.vehicles.map (fun e => e.2.fleetId)).Nodup := by
  have ids := congrArg (List.map Prod.snd) (h.vehicleIds c.vehicles.1)
  simp only [List.map_map] at ids
  have e : t.vht.vehicles.map (fun e => e.2.fleetId) = s.vht.vehicles.map (fun e => e.2.fleetId) := ids
  rw [e]
  exact d

theorem Steady.settings (h : Steady s t) (r : SettingsInRange s) : SettingsInRange t where
  reach := by rw [h.framed.asa]; exact r.reach
  arbiter := by rw [h.framed.asa]; exact r.arbiter
  take := by rw [h.framed.vht]; exact r.take
  silent := by rw [h.framed.vht]; exact r.silent
  levels := by rw [h.framed.vht]; exact r.levels
  grant := by rw [h.framed.bac]; exact r.grant
  yield := by rw [h.framed.bac]; exact r.yield
  entry := by rw [h.framed.bac]; exact r.entry
  orphan := by rw [h.framed.tOrphan]; exact r.orphan
  gate := by rw [h.framed.ort]; exact r.gate
  bays := fun e he => by
    obtain ⟨f, hf, e1, e2, e3, -⟩ := h.bayEach e he
    rw [e1, e2, e3]
    exact r.bays f hf
  reserves := by rw [h.framed.reserves]; exact r.reserves
  survey := by rw [h.framed.iss]; exact r.survey

theorem Steady.lines (h : Steady s t) (r : LinesBounded s.liu) : LinesBounded t.liu where
  frames := by rw [h.framed.lines]; exact r.frames
  marks := by rw [h.framed.lines]; exact r.marks
  notices := h.notices r.notices
  fleetIn := by rw [h.framed.lines]; exact r.fleetIn
  fleetOut := h.fleetOut r.fleetOut
  hostRx := by rw [h.framed.lines]; exact r.hostRx
  fleetRx := by rw [h.framed.lines]; exact r.fleetRx

/-- The timers as they are read in canonical tables. -/
theorem TimersRun.fleetTimed (h : TimersRun s) : FleetTimed s where
  vehicles := fun _ _ hv => ⟨h.take _ (tblGet_mem hv), h.silence _ (tblGet_mem hv)⟩
  orders := fun _ _ ho => h.orphan _ (tblGet_mem ho)

theorem TimersRun.placesTimed (h : TimersRun s) : PlacesTimed s := fun e he => ⟨h.lapse e he, h.starve e he⟩

theorem FleetTimed.timersRun (h : FleetTimed s) (p : PlacesTimed s) (c : TablesCanonical s)
    (survey : s.iss.timer.isSome = true ↔ s.iss.aOn = true ∧ s.iss.state ≠ .idle) : TimersRun s where
  take := fun e he => (h.vehicles _ _ (tblGet_of_mem c.vehicles.1 he)).take
  silence := fun e he => (h.vehicles _ _ (tblGet_of_mem c.vehicles.1 he)).silence
  orphan := fun e he => h.orders _ _ (tblGet_of_mem c.orders.1 he)
  lapse := fun e he => (p e he).lapse
  starve := fun e he => (p e he).starve
  survey := survey

/-- Where the tables are canonical, layers and orders need to be kept in agreement only there. -/
theorem Sound.regular_of_tables (h : Sound (TablesCanonical s) s t) : Regular s t where
  lines := h.steady.lines
  settings := h.steady.settings
  tables := fun c f =>
    ⟨h.steady.tables c, (h.fleet c f.agreed).1.consistent (h.steady.tables c)
      (h.steady.distinctIds c f.distinctIds)⟩
  rescan := h.steady.rescan
  yield := h.steady.yield
  rest := fun r => ⟨by rw [h.steady.framed.iss]; exact r.idle, by
    rw [h.steady.framed.iss, h.steady.framed.lyt]; exact r.outside⟩
  timers := fun c f _ r => ((h.fleet c f.agreed).2 r.fleetTimed).timersRun (h.places r.placesTimed)
    (h.steady.tables c) (by rw [h.steady.framed.iss]; exact r.survey)
  capture := h.steady.capture
  layout := .of_eq h.steady.framed.lyt
  racks := by rw [h.steady.framed.lyt]

theorem Sound.regular (h : Sound True s t) : Regular s t :=
  Sound.regular_of_tables { h with fleet := fun _ => h.fleet trivial }

theorem Careful.ordinary (h : Careful True s t) : Ordinary s t := ⟨h.toSound.regular, h.flag⟩

/-! ## Steps that leave the tables as they were -/

/-- The tables of a state and its timers are those of another; beside them, each block may be within its bounds. -/
structure TablesSame (s t : State) : Prop where
  orders : t.ort.orders = s.ort.orders
  batches : t.ort.batches = s.ort.batches
  vehicles : t.vht.vehicles = s.vht.vehicles
  bays : t.bac.bays = s.bac.bays
  shelves : t.shm.shelves = s.shm.shelves
  rescan : t.asa.rescan = s.asa.rescan
  exam : s.asa.examPending = true → t.asa.examPending = true

theorem TablesSame.flag (h : TablesSame s t) : FlagKept s t :=
  ⟨h.exam, .inr (.of_eq h.orders h.vehicles h.shelves h.bays)⟩

theorem TablesSame.tables (h : TablesSame s t) (c : TablesCanonical s)
    (hl : tblWf t.lyt.bays = true ∧ tblWf t.lyt.ports = true) : TablesCanonical t where
  orders := by rw [h.orders]; exact c.orders
  batches := by rw [h.batches]; exact c.batches
  vehicles := by rw [h.vehicles]; exact c.vehicles
  layout := hl
  bays := by rw [h.bays]; exact c.bays
  shelves := by rw [h.shelves]; exact c.shelves

theorem TablesSame.fleet (h : TablesSame s t) : FleetKept s t := .of_eq h.orders h.vehicles

/-- Canonical tables that agree are as good in a state that reads the same orders and vehicles. -/
theorem FleetKept.consistent (h : FleetKept s t) (hv : t.vht.vehicles = s.vht.vehicles) (c : TablesCanonical t)
    (f : FleetConsistent s) : FleetConsistent t :=
  (h f.agreed).1.consistent c (by rw [hv]; exact f.distinctIds)

theorem TablesSame.kept (h : TablesSame s t)
    (layout : tblWf s.lyt.bays = true ∧ tblWf s.lyt.ports = true → tblWf t.lyt.bays = true ∧ tblWf t.lyt.ports = true)
    (lines : LinesBounded s.liu → LinesBounded t.liu) (settings : SettingsInRange s → SettingsInRange t)
    (rest : SurveyAtRest s → SurveyAtRest t)
    (survey : SurveyAtRest s → (s.iss.timer.isSome = true ↔ s.iss.aOn = true ∧ s.iss.state ≠ .idle) →
      (t.iss.timer.isSome = true ↔ t.iss.aOn = true ∧ t.iss.state ≠ .idle)) : Kept s t where
  lines := lines
  settings := settings
  tables := fun c f =>
    ⟨h.tables c (layout c.layout), h.fleet.consistent h.vehicles (h.tables c (layout c.layout)) f⟩
  rescan := fun r => ⟨by rw [h.orders]; exact r.orders, by rw [h.rescan, h.orders]; exact r.rescan⟩
  yield := by unfold YieldFollowsPressure; rw [h.bays]; exact id
  rest := rest
  timers := fun c f r x => ((h.fleet f.agreed).2 x.fleetTimed).timersRun
    (by unfold PlacesTimed; rw [h.bays]; exact x.placesTimed) (h.tables c (layout c.layout)) (survey r x.survey)

/-- The settings are those of another state. -/
structure SettingsSame (s t : State) : Prop where
  asa : t.asa.wPark = s.asa.wPark ∧ t.asa.wDorm = s.asa.wDorm ∧ t.asa.wC = s.asa.wC ∧
    t.asa.tRescan = s.asa.tRescan ∧ t.asa.chainDepth = s.asa.chainDepth
  vht : t.vht.tTake = s.vht.tTake ∧ t.vht.tSilent = s.vht.tSilent ∧ t.vht.tPark = s.vht.tPark ∧
    t.vht.tDorm = s.vht.tDorm
  bac : t.bac.tGrant = s.bac.tGrant ∧ t.bac.tYield = s.bac.tYield ∧ t.bac.tEntry = s.bac.tEntry
  tOrphan : t.fcr.tOrphan = s.fcr.tOrphan
  gate : t.ort.gate = s.ort.gate
  reserves : t.shm.reserves = s.shm.reserves

/-- Settings that are the same are in range where those of the bays and of the sequencer are. -/
theorem SettingsSame.inRange (h : SettingsSame s t) (r : SettingsInRange s)
    (bays : ∀ e ∈ t.bac.bays,
      1 ≤ e.2.capacity ∧ e.2.capacity ≤ 32 ∧ 1 ≤ e.2.soft ∧ e.2.soft ≤ e.2.capacity ∧ e.2.quota ≤ e.2.capacity)
    (survey : t.iss.skipN ≤ 15 ∧ t.iss.skipLeft ≤ t.iss.skipN ∧ 1 ≤ t.iss.everyM ∧ t.iss.everyM ≤ 16 ∧
      t.iss.stepCount < t.iss.everyM) : SettingsInRange t := by
  obtain ⟨a1, a2, a3, a4, a5⟩ := h.asa
  obtain ⟨v1, v2, v3, v4⟩ := h.vht
  obtain ⟨b1, b2, b3⟩ := h.bac
  exact { reach := by rw [a1, a2, a3]; exact r.reach
          arbiter := by rw [a4, a5]; exact r.arbiter
          take := by rw [v1]; exact r.take
          silent := by rw [v2]; exact r.silent
          levels := by rw [v3, v4]; exact r.levels
          grant := by rw [b1]; exact r.grant
          yield := by rw [b2]; exact r.yield
          entry := by rw [b3]; exact r.entry
          orphan := by rw [h.tOrphan]; exact r.orphan
          gate := by rw [h.gate]; exact r.gate
          bays := bays
          reserves := by rw [h.reserves]; exact r.reserves
          survey := survey }

theorem SurveyAtRest.of_eq (hi : t.iss = s.iss) (hl : t.lyt.opState = s.lyt.opState) (r : SurveyAtRest s) :
    SurveyAtRest t := ⟨by rw [hi]; exact r.idle, by rw [hi, hl]; exact r.outside⟩

/-- Settings within their ranges, where the tables, the layout and the sequencer are as they were. -/
theorem ordinary_of_settings (h : TablesSame s t) (hl : t.lyt = s.lyt) (hi : t.iss = s.iss)
    (lines : LinesBounded s.liu → LinesBounded t.liu) (settings : SettingsInRange s → SettingsInRange t)
    (capture : captureGrows s.fcr t.fcr) : Ordinary s t where
  toKept := h.kept (by rw [hl]; exact id) lines settings (SurveyAtRest.of_eq hi (by rw [hl]))
    (fun _ => by rw [hi]; exact id)
  capture := capture
  layout := .of_eq hl
  racks := by rw [hl]
  flag := h.flag

/-- Nothing but engine time, the pin, the lines, the waiting commands and the counter has changed. -/
theorem ordinary_of_lines
    (h : t =
      { s with
        now := t.now
        gwrdy := t.gwrdy
        liu := t.liu
        pending := t.pending
        choices := t.choices })
    (lines : LinesBounded s.liu → LinesBounded t.liu) : Ordinary s t := by
  have hb : t.bac = s.bac := by rw [h]
  refine ordinary_of_settings ⟨by rw [h], by rw [h], by rw [h], by rw [h], by rw [h], by rw [h], by rw [h]; exact id⟩
    (by rw [h]) (by rw [h]) lines (fun r => ?_) (by rw [h]; exact .refl _)
  refine SettingsSame.inRange ⟨by rw [h]; simp, by rw [h]; simp, by rw [h]; simp, by rw [h], by rw [h], by rw [h]⟩ r
    (by rw [hb]; exact r.bays) (by rw [h]; exact r.survey)

end Relations

end Sys2Proof.Machine
end

section
/-! The rows of the line interface and what taking a request or a report keeps, whatever the rule that owns it (R172 to
R177, R181). -/
namespace Sys2Proof.Machine

open Sys2Proof

variable {s t : State}

/-! ## The receivers (R172) -/

/-- A receiver that hunts discards a byte that is no start byte. -/
theorem rxScan_hunt {fuel : Nat} {b : Byte} {rest : List Byte} (hb : b ≠ startByte) :
    rxScan (fuel + 1) (b :: rest) = rxScan fuel rest := if_neg hb

/-- A receiver waits for the two bytes of the length. -/
theorem rxScan_short {fuel : Nat} {rest : List Byte} (h : rest.length < 2) :
    rxScan (fuel + 1) (startByte :: rest) = ([], startByte :: rest) := by
  match rest, h with
  | [], _ => rfl
  | [_], _ => rfl

/-- What a receiver makes of a start byte and a length. -/
theorem rxScan_frame (fuel : Nat) (lo hi : Byte) (more : List Byte) :
    rxScan (fuel + 1) (startByte :: lo :: hi :: more) =
      if u16 lo hi < 4 ∨ 1024 < u16 lo hi then rxScan fuel (lo :: hi :: more)
      else if more.length < u16 lo hi + 2 then ([], startByte :: lo :: hi :: more)
      else if (more.drop (u16 lo hi)).take 2 = crcBytes (lo :: hi :: more.take (u16 lo hi)) then
        (more.take (u16 lo hi) :: (rxScan fuel (more.drop (u16 lo hi + 2))).1,
          (rxScan fuel (more.drop (u16 lo hi + 2))).2)
      else rxScan fuel (lo :: hi :: more) := rfl

/-- Bytes after a start byte: fewer than the length takes, or the length and what follows it. -/
theorem afterStart_cases (rest : List Byte) : rest.length < 2 ∨ ∃ lo hi more, rest = lo :: hi :: more := by
  match rest with
  | [] => exact .inl (by simp)
  | [_] => exact .inl (by simp)
  | lo :: hi :: more => exact .inr ⟨lo, hi, more, rfl⟩

/-- What a receiver holds of a frame in the making is shorter than the longest frame. -/
theorem rxScan_rest_length {fuel : Nat} {buf : List Byte} (h : buf.length ≤ fuel) :
    (rxScan fuel buf).2.length ≤ 1028 := by
  induction fuel generalizing buf with
  | zero => simpa [rxScan] using h.trans (by omega)
  | succ fuel ih =>
    cases buf with
    | nil => simp [rxScan]
    | cons b rest =>
      have hr : rest.length ≤ fuel := by simpa using h
      by_cases hb : b = startByte
      · subst hb
        rcases afterStart_cases rest with hs | ⟨lo, hi, more, rfl⟩
        · rw [rxScan_short hs]
          simp
          omega
        · have hm : more.length ≤ fuel := by simp at hr; omega
          rw [rxScan_frame]
          split
          · exact ih hr
          · split
            · simp
              omega
            · split
              · exact ih (by simp; omega)
              · exact ih hr
      · rw [rxScan_hunt hb]
        exact ih hr

theorem rxReceive_rest_length (buf new : List Byte) : (rxReceive buf new).2.length ≤ 1028 :=
  rxScan_rest_length (le_refl _)

/-! ## The host input queue (R174) -/

theorem waitingFrames_append (q : List HostItem) (x : HostItem) :
    waitingFrames (q ++ [x]) = waitingFrames q + (match x with | .frame _ => 1 | .mark _ => 0) := by
  unfold waitingFrames
  cases x <;> simp

theorem heldMarks_append (q : List HostItem) (x : HostItem) :
    heldMarks (q ++ [x]) = heldMarks q + (match x with | .frame _ => 0 | .mark _ => 1) := by
  unfold heldMarks
  cases x <;> simp

/-- A frame is placed as R174 has it. -/
theorem placeHost_cases (body : List Byte) (q : List HostItem) :
    (waitingFrames q < 8 ∧ placeHost body q = q ++ [.frame body]) ∨
      (8 ≤ waitingFrames q ∧ heldMarks q < 8 ∧ placeHost body q = q ++ [.mark (bodyTag body)]) ∨
      (8 ≤ waitingFrames q ∧ 8 ≤ heldMarks q ∧ placeHost body q = q) := by
  unfold placeHost
  by_cases h1 : waitingFrames q < 8
  · exact .inl ⟨h1, if_pos h1⟩
  · by_cases h2 : heldMarks q < 8
    · exact .inr (.inl ⟨by omega, h2, (if_neg h1).trans (if_pos h2)⟩)
    · exact .inr (.inr ⟨by omega, by omega, (if_neg h1).trans (if_neg h2)⟩)

theorem placeHosts_bounded (bodies : List (List Byte)) {q : List HostItem} (hf : waitingFrames q ≤ 8)
    (hm : heldMarks q ≤ 8) : waitingFrames (placeHosts bodies q) ≤ 8 ∧ heldMarks (placeHosts bodies q) ≤ 8 := by
  induction bodies generalizing q with
  | nil => exact ⟨hf, hm⟩
  | cons b bs ih =>
    rcases placeHost_cases b q with ⟨h, e⟩ | ⟨h, h', e⟩ | ⟨h, h', e⟩ <;> rw [placeHosts, e]
    · exact ih (by rw [waitingFrames_append]; simp; omega) (by rw [heldMarks_append]; simpa using hm)
    · exact ih (by rw [waitingFrames_append]; simpa using hf) (by rw [heldMarks_append]; simp; omega)
    · exact ih hf hm

theorem waitingFrames_tail (q : List HostItem) : waitingFrames q.tail ≤ waitingFrames q :=
  ((List.tail_sublist q).filter _).length_le

theorem heldMarks_tail (q : List HostItem) : heldMarks q.tail ≤ heldMarks q :=
  ((List.tail_sublist q).filter _).length_le

/-! ## Heads that leave and replies that are placed -/

theorem popHost_ordinary (s : State) : Ordinary s (popHost s) :=
  ordinary_of_lines rfl fun r =>
    { r with
      frames := (waitingFrames_tail _).trans r.frames
      marks := (heldMarks_tail _).trans r.marks }

theorem placeReply_ordinary (r : Reply) (s : State) : Ordinary s (placeReply r s) :=
  ordinary_of_lines rfl fun x => { x with }

theorem popFleet_ordinary (s : State) : Ordinary s (popFleet s) :=
  ordinary_of_lines rfl fun r =>
    { r with
      fleetIn := by
        have := r.fleetIn
        simp [popFleet]
        omega }

/-- A request keeps what its own rule keeps. -/
theorem takeRequest_ordinary {α : Type} {kind : Nat} {form : List Byte → Option α} {act : α → State → Answered}
    (h : ∀ r s, Ordinary s (act r s).state) (s : State) : Ordinary s (takeRequest kind form act s) := by
  rcases takeRequest_cases kind form act s with e | ⟨tag, e⟩ | ⟨tag, r, e⟩ <;> rw [e]
  · exact .refl s
  · exact (popHost_ordinary s).trans (placeReply_ordinary _ _)
  · exact ((popHost_ordinary s).trans (h r _)).trans (placeReply_ordinary _ _)

/-- A request refused outside RUNNING keeps what its rule keeps in RUNNING (R4). -/
theorem whenRunning_ordinary {α : Type} {act : α → State → Answered}
    (h : ∀ r s, s.lyt.opState = .running → Ordinary s (act r s).state) (r : α) (s : State) :
    Ordinary s (whenRunning act r s).state := by
  unfold whenRunning
  split
  · exact h r s ‹_›
  · exact .refl s

theorem onOrder_ordinary {r : OrderRef} {act : Order → State → Answered}
    (h : ∀ o, tblGet s.ort.orders r.handle = some o → Ordinary s (act o s).state) :
    Ordinary s (onOrder r act s).state := by
  unfold onOrder namedOrder
  split
  · rename_i o ho
    split at ho
    · rename_i p hp
      split at ho
      · cases ho
        exact h _ hp
      · cases ho
    · cases ho
  · exact .refl s

theorem onVehicle_ordinary {f : Nat} {act : Nat → Vehicle → State → Answered}
    (h : ∀ slot v, tblGet s.vht.vehicles slot = some v → Ordinary s (act slot v s).state) :
    Ordinary s (onVehicle f act s).state := by
  unfold onVehicle
  split
  · split
    · split
      · exact h _ _ ‹_›
      · exact .refl s
    · exact .refl s
  · exact .refl s

/-- Any frame from an ONLINE vehicle restarts its silence timer (R98, R99). -/
theorem restartSilence_ordinary {slot : Nat} {v : Vehicle} (hv : tblGet s.vht.vehicles slot = some v)
    (ho : v.online = true) : Ordinary s (restartSilence slot s) := by
  have hl : v.link = .online := by simpa [Vehicle.online] using ho
  refine Careful.ordinary (updVehicle_careful (fun w hw => ?_) (fun _ _ => id))
  rw [hv] at hw
  cases hw
  exact .of_eq rfl rfl rfl rfl id fun _ => by simp [hl]

theorem fromVehicle_ordinary {α : Type} {act : Nat → α → State → State} (h : ∀ slot r s, Ordinary s (act slot r s))
    (fleetId : Nat) (r : α) (s : State) : Ordinary s (fromVehicle act fleetId r s) := by
  unfold fromVehicle
  split
  · split
    · split
      · exact (restartSilence_ordinary ‹_› ‹_›).trans (h _ _ _)
      · exact .refl s
    · exact .refl s
  · exact .refl s

theorem takeFleet_ordinary {α : Type} {kind : Nat} {form : List Byte → Option α} {act : Nat → α → State → State}
    (h : ∀ f r s, Ordinary s (act f r s)) (s : State) : Ordinary s (takeFleet kind form act s) := by
  unfold takeFleet
  split
  · split
    · split
      · exact (popFleet_ordinary s).trans (h _ _ _)
      · exact .refl s
    · exact .refl s
  · exact .refl s

/-- A report keeps what its own rule keeps. -/
theorem takeReport_ordinary {α : Type} {kind : Nat} {form : List Byte → Option α} {act : Nat → α → State → State}
    (h : ∀ slot r s, Ordinary s (act slot r s)) (s : State) : Ordinary s (takeReport kind form act s) :=
  takeFleet_ordinary (fromVehicle_ordinary h) s

/-! ## The rows of the line interface -/

theorem execHostFrameReceived_ordinary {bytes : List Byte} (e : execHostFrameReceived bytes s = .next t) :
    Ordinary s t := by
  cases e
  refine ordinary_of_lines rfl fun r => ?_
  have b := placeHosts_bounded (rxReceive s.liu.hostRx bytes).1 r.frames r.marks
  exact { r with frames := b.1, marks := b.2, hostRx := rxReceive_rest_length _ _ }

theorem execBusyMarkReply_ordinary (e : execBusyMarkReply s = .next t) : Ordinary s t := by
  unfold execBusyMarkReply at e
  split at e <;> cases e
  · exact (popHost_ordinary s).trans (placeReply_ordinary _ _)
  · exact .refl s

theorem execBadKind_ordinary (e : execBadKind s = .next t) : Ordinary s t := by
  unfold execBadKind at e
  split at e
  · split at e <;> cases e
    · exact (popHost_ordinary s).trans (placeReply_ordinary _ _)
    · exact .refl s
  · cases e
    exact .refl s

theorem execReplyTransmit_ordinary (e : execReplyTransmit s = .next t) : Ordinary s t := by
  unfold execReplyTransmit at e
  split at e <;> cases e
  · exact ordinary_of_lines rfl fun r => { r with }
  · exact .refl s

theorem execNoticeTransmit_ordinary (e : execNoticeTransmit s = .next t) : Ordinary s t := by
  unfold execNoticeTransmit at e
  split at e
  · split at e <;> cases e
    · rename_i hn
      refine ordinary_of_lines rfl fun r => { r with notices := ?_ }
      have := r.notices
      rw [hn] at this
      simp at this ⊢
      omega
    · exact .refl s
  · cases e
    exact .refl s

theorem execFleetFrameReceived_ordinary {bytes : List Byte} (e : execFleetFrameReceived bytes s = .next t) :
    Ordinary s t := by
  unfold execFleetFrameReceived at e
  split at e <;> cases e
  · refine ordinary_of_lines rfl fun r => { r with fleetRx := rxReceive_rest_length _ _, fleetIn := ?_ }
    have := r.fleetIn
    simp
    omega
  · exact .refl s

theorem execFleetFrameDrop_ordinary (e : execFleetFrameDrop s = .next t) : Ordinary s t := by
  unfold execFleetFrameDrop at e
  split at e
  · split at e <;> cases e
    · exact popFleet_ordinary s
    · exact .refl s
  · cases e
    exact .refl s

theorem execFleetCommandTransmit_ordinary (e : execFleetCommandTransmit s = .next t) : Ordinary s t := by
  unfold execFleetCommandTransmit at e
  split at e
  · split at e <;> cases e
    · rename_i hc
      refine ordinary_of_lines rfl fun r => { r with fleetOut := ?_ }
      have := r.fleetOut
      rw [hc] at this
      simp at this ⊢
      omega
    · exact .refl s
  · cases e
    exact .refl s

/-- On an empty queue the engine lets time pass or queues what is due. -/
theorem idle_ordinary (s : State) : Ordinary s (idle s) := by
  rcases idle_cases s with ⟨-, e⟩ | ⟨-, c, -, e⟩ <;> rw [e]
  · exact ordinary_of_lines rfl fun r => { r with }
  · exact ordinary_of_lines rfl id

end Sys2Proof.Machine
end

section
/-! What the rules of the host's requests keep (R14 to R181). -/
namespace Sys2Proof.Machine

open Sys2Proof

variable {s t : State}

/-- The flag set besides. -/
theorem Ordinary.setExamIf (h : Ordinary s t) (b : Bool) : Ordinary s (setExamIf b t) :=
  h.trans ((Careful.refl t).setExamIf b).ordinary

theorem Regular.setExam (h : Regular s t) : Ordinary s (setExam t) :=
  ⟨h.trans (Sound.setExam (.refl t)).ordinary.toRegular, .of_exam rfl⟩

/-! ## Lock and ports (R14, R17) -/

theorem lockLayout_ordinary (r : Unit) (s : State) (hr : s.lyt.opState = .running) :
    Ordinary s (lockLayout r s).state where
  toKept := TablesSame.kept ⟨rfl, rfl, rfl, rfl, rfl, rfl, id⟩ id id
    (fun x => { x with })
    (SurveyAtRest.of_eq rfl rfl) (fun _ => id)
  capture := .refl _
  layout := fun hl _ => ⟨by
    have e : { s.lyt with lock := true } = s.lyt := by rw [← hl]
    simp [lockLayout, accept, e], fun _ => rfl⟩
  racks := rfl
  flag := ⟨id, .inr (.of_eq rfl rfl rfl rfl)⟩

/-- A port's open flag written. -/
theorem putPort_ordinary {k : Nat} {p : PortRec} (hp : tblGet s.lyt.ports k = some p) (b : Bool) :
    Ordinary s { s with lyt := { s.lyt with ports := tblSet s.lyt.ports k { p with isOpen := b } } } where
  toKept := TablesSame.kept ⟨rfl, rfl, rfl, rfl, rfl, rfl, id⟩ (fun h => ⟨h.1, tblWf_set h.2 _ _⟩) id
    (fun x => { x with })
    (SurveyAtRest.of_eq rfl rfl) (fun _ => id)
  capture := .refl _
  layout := fun _ _ => ⟨rfl, fun j => by
    by_cases hj : j = k
    · subst hj
      simp [hp]
    · simp [tblGet_set_other _ _ hj]⟩
  racks := rfl
  flag := ⟨id, .inr (.of_eq rfl rfl rfl rfl)⟩

theorem setPort_ordinary (r : PortStateReq) (s : State) : Ordinary s (setPort r s).state := by
  unfold setPort
  split
  · rename_i p isOpen hp hf
    exact (putPort_ordinary hp isOpen).setExamIf _
  · exact .refl s

/-! ## Bays, reserves and shelves (R116, R134, R142) -/

/-- A written bay's yield timer follows its three conditions, whatever else of it has changed (R125). -/
theorem updBay_yield {b : Nat} {f : BayState → BayState} (hs : YieldFollowsPressure s) :
    YieldFollowsPressure (updBay b f s) := by
  unfold updBay
  split
  · rename_i y hy
    intro e he
    rcases mem_tblSet he with rfl | he
    · have := yieldAfter_isSome (now := s.now) (tY := s.bac.tYield) (old := y) (new := f y)
        (fun hp => (hs _ (tblGet_mem hy)).mpr ((pressed_iff y).mp hp))
      rw [pressed_iff] at this
      simpa using this
    · exact hs e he
  · exact hs

/-- A bay within the ranges of its settings (R116). -/
def BayInRange (y : BayState) : Prop :=
  1 ≤ y.capacity ∧ y.capacity ≤ 32 ∧ 1 ≤ y.soft ∧ y.soft ≤ y.capacity ∧ y.quota ≤ y.capacity

/-- A bay written, its settings in range and its places and timers as they were. -/
theorem updBay_ordinary {b : Nat} {f : BayState → BayState} (hr : ∀ y, BayInRange y → BayInRange (f y))
    (ha : ∀ y, (f y).admitted = y.admitted) (hq : ∀ y, (f y).queue = y.queue) (s : State) :
    Ordinary s (updBay b f s) := by
  have only : updBay b f s = { s with bac := { s.bac with bays := (updBay b f s).bac.bays } } := by
    unfold updBay; split <;> rfl
  have each : ∀ e ∈ (updBay b f s).bac.bays, e ∈ s.bac.bays ∨
      ∃ y, (b, y) ∈ s.bac.bays ∧ e = (b, { f y with yield := yieldAfter s.now s.bac.tYield y (f y) }) := by
    intro e he
    unfold updBay at he
    split at he
    · rename_i y hy
      rcases mem_tblSet he with rfl | he
      · exact .inr ⟨y, tblGet_mem hy, rfl⟩
      · exact .inl he
    · exact .inl he
  have places : PlacesTimed s → PlacesTimed (updBay b f s) := by
    intro hp e he
    rcases each e he with he | ⟨y, hy, rfl⟩
    · exact hp e he
    · exact ⟨by simp only [ha]; exact (hp _ hy).lapse, by simp only [hq]; exact (hp _ hy).starve⟩
  have fleet : FleetKept s (updBay b f s) := by rw [only]; exact .of_eq rfl rfl
  have tables : TablesCanonical s → TablesCanonical (updBay b f s) := fun c => by
    have wf : tblWf (updBay b f s).bac.bays = true := by
      unfold updBay
      split
      · exact tblWf_set c.bays _ _
      · exact c.bays
    rw [only]
    exact { c with bays := wf }
  refine ⟨⟨⟨?_, ?_, ?_, ?_, ?_, ?_, ?_⟩, ?_, ?_, ?_⟩, ?_⟩
  · rw [only]; exact id
  · intro r
    refine SettingsSame.inRange ?_ r ?_ ?_
    · rw [only]; exact ⟨⟨rfl, rfl, rfl, rfl, rfl⟩, ⟨rfl, rfl, rfl, rfl⟩, ⟨rfl, rfl, rfl⟩, rfl, rfl, rfl⟩
    · intro e he
      rcases each e he with he | ⟨y, hy, rfl⟩
      · exact r.bays e he
      · exact hr y (r.bays _ hy)
    · rw [only]; exact r.survey
  · exact fun c x => ⟨tables c, fleet.consistent (by rw [only]) (tables c) x⟩
  · exact fun x => by rw [only]; exact ⟨x.orders, x.rescan⟩
  · exact updBay_yield
  · exact fun x => .of_eq (by rw [only]) (by rw [only]) x
  · exact fun c x _ y => ((fleet x.agreed).2 y.fleetTimed).timersRun (places y.placesTimed) (tables c)
      (by rw [only]; exact y.survey)
  · rw [only]; exact .refl _
  · exact .of_eq (by rw [only])
  · rw [only]
  · exact updBay_flag fun y a hy => ⟨a, by rw [ha]; exact hy, rfl⟩

theorem tuned_inRange {r : BayTuneReq} (h : tuneFits r = true) (y : BayState) (hy : BayInRange y) :
    BayInRange (tuned r y) := by
  obtain ⟨h1, h2, h3, h4, h5⟩ := hy
  have hcap : 1 ≤ r.capacity.getD y.capacity ∧ r.capacity.getD y.capacity ≤ 32 := by
    unfold tuneFits at h
    cases hc : r.capacity with
    | none => simpa using ⟨h1, h2⟩
    | some c => simp [hc, inRange] at h; simpa using h.1.1
  have hsoft : 1 ≤ r.soft.getD y.soft := by
    unfold tuneFits at h
    cases hs : r.soft with
    | none => simpa using h3
    | some n => simp [hs] at h; simp; omega
  simp only [BayInRange, tuned]
  omega

theorem bayTune_ordinary (r : BayTuneReq) (s : State) : Ordinary s (bayTune r s).state := by
  unfold bayTune
  split
  · split
    · exact .refl s
    · rename_i hf
      simp only [not_or] at hf
      have fits : tuneFits r = true := by simpa using hf.2
      refine Ordinary.after ?_ (updBay_ordinary (b := r.bay) (tuned_inRange fits) (fun _ => rfl) (fun _ => rfl) s)
      refine Careful.ordinary (Careful.setExamIf ?_ _)
      exact .ite _ (grantQueue_careful _ _) (.refl _)
  · exact .refl s

/-- Reserves of at most a whole rack each written. -/
theorem putReserve_ordinary {r : ReserveSetReq} (hh : r.hot ≤ 64) (he : r.empty ≤ 64) (lock : Bool) (s : State) :
    Ordinary s (putReserve r lock s) :=
  ordinary_of_settings ⟨rfl, rfl, rfl, rfl, rfl, rfl, id⟩ rfl rfl id
      (fun x => { x with
      reserves := fun e hm => by
        rcases mem_tblSet hm with rfl | hm
        · exact ⟨hh, he⟩
        · exact x.reserves e hm })
    (.refl _)

theorem setReserve_ordinary (r : ReserveSetReq) (s : State) : Ordinary s (setReserve r s).state := by
  unfold setReserve
  split
  · refine ?_
    split
    · exact .refl s
    · rename_i hf
      simp only [not_or, Nat.not_lt] at hf
      split
      · exact .refl s
      · split
        · exact .refl s
        · exact (putReserve_ordinary hf.2.1 hf.2.2 _ s).setExamIf _
  · exact .refl s

theorem declareShelf_ordinary (r : ShelfSetReq) (s : State) : Ordinary s (declareShelf r s).state := by
  unfold declareShelf
  split
  · split
    · exact .refl s
    · split
      · exact .refl s
      · split
        · exact .refl s
        · exact (setShelf_careful _ _ s).ordinary
  · exact .refl s

theorem queryShelf_ordinary (r : SelectReq) (s : State) : Ordinary s (queryShelf r s).state := by
  unfold queryShelf
  split
  · split <;> exact .refl s
  · split <;> exact .refl s
  · exact .refl s

/-! ## Tuning (R34, R169, R179, R180) -/

theorem setWeights_ordinary (es : List WeightEntry) (s : State) : Ordinary s (setWeights es s).state := by
  unfold setWeights
  split
  · exact ordinary_of_settings ⟨rfl, rfl, rfl, rfl, rfl, rfl, fun _ => rfl⟩ rfl rfl id
      (fun x => { x with })
      (.refl _)
  · exact .refl s

theorem clamp_bounds {lo hi : Nat} (h : lo ≤ hi) (v : Nat) : lo ≤ clamp lo hi v ∧ clamp lo hi v ≤ hi := by
  unfold clamp
  omega

/-- A value stored under a setting's code is in the setting's range (R39, R88, R113, R129, R163). -/
theorem storeSetting_ordinary (s : State) (e : Nat × Nat) : Ordinary s (storeSetting s e) := by
  unfold storeSetting
  split
  case h_1 =>
    exact ordinary_of_settings ⟨rfl, rfl, rfl, rfl, rfl, rfl, id⟩ rfl rfl id
      (fun x => { x with reach := ⟨(clamp_bounds (by omega) _).2, x.reach.2⟩ }) (.refl _)
  case h_2 =>
    exact ordinary_of_settings ⟨rfl, rfl, rfl, rfl, rfl, rfl, id⟩ rfl rfl id
      (fun x => { x with reach := ⟨x.reach.1, (clamp_bounds (by omega) _).2, x.reach.2.2⟩ }) (.refl _)
  case h_3 =>
    exact ordinary_of_settings ⟨rfl, rfl, rfl, rfl, rfl, rfl, id⟩ rfl rfl id
      (fun x => { x with reach := ⟨x.reach.1, x.reach.2.1, (clamp_bounds (by omega) _).2⟩ }) (.refl _)
  case h_4 =>
    exact ordinary_of_settings ⟨rfl, rfl, rfl, rfl, rfl, rfl, id⟩ rfl rfl id
      (fun x => { x with
      arbiter := ⟨(clamp_bounds (by omega) _).1, (clamp_bounds (by omega) _).2, x.arbiter.2.2⟩ }) (.refl _)
  case h_5 =>
    exact ordinary_of_settings ⟨rfl, rfl, rfl, rfl, rfl, rfl, id⟩ rfl rfl id
      (fun x => { x with arbiter := ⟨x.arbiter.1, x.arbiter.2.1, clamp_bounds (by omega) _⟩ }) (.refl _)
  case h_6 =>
    exact ordinary_of_settings ⟨rfl, rfl, rfl, rfl, rfl, rfl, id⟩ rfl rfl id
      (fun x => { x with take := clamp_bounds (by omega) _ }) (.refl _)
  case h_7 =>
    exact ordinary_of_settings ⟨rfl, rfl, rfl, rfl, rfl, rfl, id⟩ rfl rfl id
      (fun x => { x with silent := clamp_bounds (by omega) _ }) (.refl _)
  case h_8 =>
    exact ordinary_of_settings ⟨rfl, rfl, rfl, rfl, rfl, rfl, id⟩ rfl rfl id
      (fun x => { x with levels := ⟨(clamp_bounds (by omega) _).1, (clamp_bounds (by omega) _).2, x.levels.2.2⟩ })
      (.refl _)
  case h_9 =>
    exact ordinary_of_settings ⟨rfl, rfl, rfl, rfl, rfl, rfl, id⟩ rfl rfl id
      (fun x => { x with levels := ⟨x.levels.1, x.levels.2.1, clamp_bounds (by omega) _⟩ }) (.refl _)
  case h_10 =>
    exact ordinary_of_settings ⟨rfl, rfl, rfl, rfl, rfl, rfl, id⟩ rfl rfl id (fun x => { x with }) (.refl _)
  case h_11 =>
    exact ordinary_of_settings ⟨rfl, rfl, rfl, rfl, rfl, rfl, id⟩ rfl rfl id (fun x => { x with }) (.refl _)
  case h_12 =>
    exact ordinary_of_settings ⟨rfl, rfl, rfl, rfl, rfl, rfl, id⟩ rfl rfl id
      (fun x => { x with grant := clamp_bounds (by omega) _ }) (.refl _)
  case h_13 =>
    exact ordinary_of_settings ⟨rfl, rfl, rfl, rfl, rfl, rfl, id⟩ rfl rfl id
      (fun x => { x with yield := clamp_bounds (by omega) _ }) (.refl _)
  case h_14 =>
    exact ordinary_of_settings ⟨rfl, rfl, rfl, rfl, rfl, rfl, id⟩ rfl rfl id
      (fun x => { x with entry := clamp_bounds (by omega) _ }) (.refl _)
  case h_15 =>
    exact ordinary_of_settings ⟨rfl, rfl, rfl, rfl, rfl, rfl, id⟩ rfl rfl id
      (fun x => { x with orphan := clamp_bounds (by omega) _ }) (.refl _)
  case h_16 => exact .refl s

theorem storeSettings_ordinary (es : List (Nat × Nat)) (s : State) : Ordinary s (es.foldl storeSetting s) := by
  induction es generalizing s with
  | nil => exact .refl s
  | cons e es ih => exact (storeSetting_ordinary s e).trans (ih _)

/-- A vehicle retimed has another idle level at most (R102). -/
theorem retimed_eq (t : VehicleTable) (now : Nat) (v : Vehicle) :
    ∃ l, retimed t now v = { v with idleLevel := l } := by
  unfold retimed
  split
  · exact ⟨_, rfl⟩
  · split
    · exact ⟨_, rfl⟩
    · exact ⟨v.idleLevel, rfl⟩

theorem retimeAll_ordinary (s : State) : Ordinary s (retimeAll s) := by
  have get : ∀ k, tblGet (retimeAll s).vht.vehicles k = (tblGet s.vht.vehicles k).map (retimed s.vht s.now) :=
    fun k => tblGet_map (fun _ => retimed s.vht s.now) s.vht.vehicles k
  have quiet : ∀ v, Quiet v (retimed s.vht s.now v) := by
    intro v
    obtain ⟨l, e⟩ := retimed_eq s.vht s.now v
    rw [e]
    exact .of_eq rfl rfl rfl rfl id id
  have same : ∀ v, (retimed s.vht s.now v).activity = v.activity ∧ (retimed s.vht s.now v).takeTimer = v.takeTimer := by
    intro v
    obtain ⟨l, e⟩ := retimed_eq s.vht s.now v
    rw [e]
    exact ⟨rfl, rfl⟩
  have back : ∀ k w, tblGet (retimeAll s).vht.vehicles k = some w →
      ∃ v, tblGet s.vht.vehicles k = some v ∧ w = retimed s.vht s.now v := by
    intro k w hw
    rw [get] at hw
    obtain ⟨v, hv, e⟩ := Option.map_eq_some_iff.1 hw
    exact ⟨v, hv, e.symm⟩
  refine Careful.ordinary ⟨⟨{ Steady.refl s with
      framed := { Framed.refl s with vht := rfl }
      vehicleWf := fun hw => tblWf_map_records _ hw
      vehicleIds := fun _ => ?ids
      vehicleEach := fun e he => ?each
      yield := id
      rescan := fun h => ⟨h.orders, h.rescan⟩ }, fun _ => ?fleet, id⟩, id, .inr ?flag⟩
  case ids =>
    simp only [retimeAll, tblMap, List.map_map]
    refine List.map_congr_left fun e _ => ?_
    simp [(quiet e.2).fleetId]
  case each =>
    obtain ⟨f, hf, rfl⟩ := List.mem_map.1 he
    exact ⟨f, hf, (quiet f.2).steady⟩
  case fleet =>
    refine fleetKept_of_quiet rfl (fun k w hw => ?_) (fun k v hv => ⟨_, by rw [get, hv]; rfl, quiet v⟩)
    obtain ⟨v, hv, rfl⟩ := back k w hw
    exact ⟨v, hv, quiet v⟩
  case flag =>
    refine { Unflagged.of_eq (s := s) (t := { retimeAll s with vht := s.vht }) rfl rfl rfl rfl with
      idle := fun k w hw hi => ?_, take := fun k w hw _ => ?_ }
    · obtain ⟨v, hv, rfl⟩ := back k w hw
      exact ⟨v, hv, (same v).1.symm.trans hi⟩
    · obtain ⟨v, hv, rfl⟩ := back k w hw
      exact ⟨v, hv, (same v).2.symm⟩

theorem setTimings_ordinary (es : List (Nat × Nat)) (s : State) : Ordinary s (setTimings es s).state := by
  unfold setTimings
  split
  · refine (storeSettings_ordinary es s).trans ?_
    refine Ordinary.setExamIf ?_ _
    exact .ite (fun _ => retimeAll_ordinary _) (fun _ => .refl _)
  · exact .refl s

theorem setRoutes_ordinary (es : List (Nat × Nat)) (s : State) : Ordinary s (setRoutes es s).state := by
  unfold setRoutes
  split
  · exact ordinary_of_settings ⟨rfl, rfl, rfl, rfl, rfl, rfl, id⟩ rfl rfl id
      (fun x => { x with })
      (captureGrows.refl s.fcr)
  · exact .refl s

theorem setGate_ordinary (g : Nat) (s : State) : Ordinary s (setGate g s).state := by
  unfold setGate
  split
  · rename_i hg
    exact ordinary_of_settings ⟨rfl, rfl, rfl, rfl, rfl, rfl, id⟩ rfl rfl id (fun x => { x with gate := hg }) (.refl _)
  · exact .refl s

/-! ## Requests on an order (R58 to R65) -/

/-- The record of an order that moves from one state off vehicles to another. -/
theorem placeKept_of_waiting {o q : Order} {st : OrderState} {now : Nat} (ho : o.state.onVehicle = false)
    (hst : st.onVehicle = false) (hl : q.loc = o.loc) (hp : q.orphan = o.orphan) :
    PlaceKept o (enterState now st q) := by
  have off : ∀ x : OrderState, x.onVehicle = false → x ≠ .assigned ∧ x ≠ .suspended := by
    intro x hx
    constructor <;> rintro rfl <;> simp [OrderState.onVehicle] at hx
  have loc : (enterState now st q).loc = q.loc := by unfold enterState; split <;> rfl
  have orphan : (enterState now st q).orphan = q.orphan := by unfold enterState; split <;> rfl
  refine ⟨loc.trans hl, ?_, ?_, ?_⟩
  · simp [(off _ ho).1, (off _ hst).1]
  · simp [ho, hst]
  · simp [OrderTimed, orphan, hp, (off _ ho).2, (off _ hst).2]

/-- An order moved from one state off vehicles to another. -/
theorem moveOrder_waiting_careful {A : Prop} {h : Nat} {o : Order} {f : Order → Order} {st : OrderState}
    {why : OrderReason} {left : Option Nat} (ho : tblGet s.ort.orders h = some o) (hs : o.state.onVehicle = false)
    (hst : st.onVehicle = false) (hl : ∀ q, (f q).loc = q.loc) (hp : ∀ q, (f q).orphan = q.orphan) :
    Careful A s (moveOrder h f st why left s) :=
  (moveOrder_sound ho fun _ => placeKept_of_waiting hs hst (by simp [hl]) (by simp [hp])).with_flag
    (moveOrder_flag (by rintro rfl; simp [OrderState.onVehicle] at hst))

/-- An order moved from one state on its vehicle to another, both past ASSIGNED. -/
theorem moveOrder_carried_careful {A : Prop} {h : Nat} {o : Order} {f : Order → Order} {st : OrderState}
    {why : OrderReason} {left : Option Nat} (ho : tblGet s.ort.orders h = some o) (hs : o.state.onVehicle = true)
    (ha : o.state ≠ .assigned) (hu : o.state ≠ .suspended) (hst : st.onVehicle = true) (hsa : st ≠ .assigned)
    (hsu : st ≠ .suspended) (hc : st ≠ .carrying) (hl : ∀ q, (f q).loc = q.loc) (hp : ∀ q, (f q).orphan = q.orphan) :
    Careful A s (moveOrder h f st why left s) :=
  (moveOrder_sound ho fun _ => placeKept_of_carried hs ha hst hsa (by simp [hl])
    (fun x => by simpa [hp, hsu, OrderTimed, hu] using x)).with_flag (moveOrder_flag hc)

theorem sendAbort_careful {A : Prop} (h : Nat) (o : Order) (s : State) : Careful A s (sendAbort h o s) := by
  unfold sendAbort
  split
  · exact issueTo_careful _ _ s
  · exact .refl s

theorem sendAbort_told (h : Nat) (o : Order) (s : State) : OnlyTold s (sendAbort h o s) := by
  unfold sendAbort
  split
  · exact issueTo_told _ _ s
  · exact .refl s

section Order

variable {h : Nat} {o : Order} (ho : tblGet s.ort.orders h = some o)

include ho

theorem holdOrder_ordinary : Ordinary s (holdOrder h o s).state := by
  unfold holdOrder
  split
  case h_1 hs => exact (moveOrder_waiting_careful ho (by rw [hs]; rfl) rfl (fun _ => rfl) (fun _ => rfl)).ordinary
  case h_2 hs => exact ((sendRecall_careful h s).trans (returnOrder_careful rfl _)).ordinary
  all_goals exact .refl s

theorem releaseOrder_ordinary : Ordinary s (releaseOrder h o s).state := by
  unfold releaseOrder
  split
  · rename_i hs
    exact (moveOrder_waiting_careful ho (by rw [hs]; rfl) rfl (fun _ => rfl) (fun _ => rfl)).ordinary
  · split <;> exact .refl s

theorem cancelling_ordinary (hs : o.state = .toSource) : Ordinary s (cancelling h o s) := by
  have told : OnlyTold s (if o.abortPending then s else sendAbort h o s) := by
    split
    · exact .refl s
    · exact sendAbort_told h o s
  refine Careful.ordinary (Careful.after
    (moveOrder_carried_careful (o := o) (by rw [told.ort]; exact ho) ?_ ?_ ?_ rfl ?_ ?_ ?_ (fun _ => rfl)
      (fun _ => rfl)) (.ite _ (.refl s) (sendAbort_careful h o s)))
  all_goals simp [hs, OrderState.onVehicle]

theorem cancelOrder_ordinary : Ordinary s (cancelOrder h o s).state := by
  unfold cancelOrder
  split
  case h_1 | h_2 | h_3 => exact (endOrder_careful rfl s).ordinary
  case h_4 => exact ((sendRecall_careful h s).trans (endOrder_careful rfl _)).ordinary
  case h_5 hs => exact cancelling_ordinary ho hs
  all_goals exact .refl s

/-- An order off vehicles in the entry: no layer holds it, and it may be replaced or freed. -/
theorem Agreed.not_held (a : Agreed s) (hs : o.state.onVehicle = false) {k : Nat} {v : Vehicle} {i : LayerId}
    (hv : tblGet s.vht.vehicles k = some v) : ¬(v.layer i).holds h := by
  intro hh
  obtain ⟨p, hp, hl, -⟩ := a.layers k v i h hv hh
  rw [ho] at hp
  cases hp
  have := (a.places h o ho).1 (by simp [hl])
  simp [hs] at this

omit ho in
theorem onVehicle_of_not_live {st : OrderState} (h : st.live = false) : st.onVehicle = false := by
  cases st <;> simp_all [OrderState.live, OrderState.onVehicle]

omit ho in
/-- An entry freed whose order no layer holds, with nothing of the rest changed. -/
theorem fleetKept_of_erased (free : Agreed s → ∀ k v i, tblGet s.vht.vehicles k = some v → ¬(v.layer i).holds h)
    (hp : tblGet t.ort.orders h = none) (others : otherOrdersKept h s t) (hv : t.vht.vehicles = s.vht.vehicles) :
    FleetKept s t := by
  have read : ∀ g q, tblGet t.ort.orders g = some q → tblGet s.ort.orders g = some q := by
    intro g q hq
    by_cases hg : g = h
    · subst hg
      simp [hp] at hq
    · rwa [others g hg] at hq
  intro a
  refine ⟨⟨by rw [hv]; exact a.sound, ?_, fun g q hq => a.places g q (read g q hq), ?_⟩,
    fun x => ⟨by rw [hv]; exact x.vehicles, fun g q hq => x.orders g q (read g q hq)⟩⟩
  · intro k v i g hk hh
    rw [hv] at hk
    have hg : g ≠ h := by rintro rfl; exact free a k v i hk hh
    rw [others g hg]
    exact a.layers k v i g hk hh
  · intro g q k i hq hl
    rw [hv]
    exact a.located g q k i (read g q hq) hl

theorem clearOrder_ordinary : Ordinary s (clearOrder h o s).state := by
  unfold clearOrder
  split
  · exact .refl s
  · rename_i hl
    have hl' : o.state.live = false := by simpa using hl
    have off := onVehicle_of_not_live hl'
    have gone : ∀ e ∈ tblErase s.ort.orders h, e ∈ s.ort.orders ∧ e.1 ≠ h := fun e he => mem_tblErase he
    refine Careful.ordinary ⟨⟨{ Steady.refl s with
        framed := { Framed.refl s with ort := rfl }
        orderWf := fun hw => tblWf_erase hw h
        orderKeys := fun e he => ⟨e, (gone e he).1, rfl⟩
        yield := id
        rescan := fun hr => ⟨tblWf_erase hr.orders h, ?rescan⟩ }, fun _ => ?fleet, id⟩, id, .inr ?flag⟩
    case rescan =>
      refine hr.rescan.trans ⟨fun ⟨e, he, hq⟩ => ?_, fun ⟨e, he, hq⟩ => ⟨e, (gone e he).1, hq⟩⟩
      have ne : e.1 ≠ h := by
        intro x
        have := tblGet_of_mem hr.orders he
        rw [x, ho] at this
        cases this
        simp [hq, OrderState.live] at hl'
      have := tblGet_of_mem hr.orders he
      rw [← tblGet_erase_other _ ne] at this
      exact ⟨e, tblGet_mem this, hq⟩
    case fleet =>
      exact fleetKept_of_erased (fun a k v i hv => a.not_held ho off hv) (tblGet_erase_self _ _)
        (fun k hk => tblGet_erase_other _ hk) rfl
    case flag =>
      refine { Unflagged.of_eq (s := s) (t := s) rfl rfl rfl rfl with orders := fun g q hq _ => ?_ }
      have hg : g ≠ h := by
        rintro rfl
        simp [accept] at hq
      simp only [accept, tblGet_erase_other _ hg] at hq
      exact ⟨q, hq, rfl⟩

theorem retargetTo_ordinary (d : RetargetTo) : Ordinary s (retargetTo h o d s).state := by
  have waiting : Ordinary s (accept (retargetWaiting h o d s) .none).state := by
    refine Careful.ordinary (Careful.setExamIf ?_ _)
    split
    · exact .after (updOrder_careful (fun _ _ => .of_eq rfl rfl rfl) (fun _ => rfl)) (releaseInbound_careful _ _ s)
    · exact updOrder_careful (fun _ _ => .of_eq rfl rfl rfl) (fun _ => rfl)
  unfold retargetTo
  split
  · rename_i slot i e _
    split
    · rename_i hm
      split
      · have carries : Carries s h := by
          refine ⟨o, ho, ?_⟩
          simp only [Order.mismatched, Bool.and_eq_true, decide_eq_true_eq] at hm
          rw [hm.1]
          exact ⟨rfl, by simp⟩
        have told := issueTo_told slot (.retarget h (stopOf? (releaseInbound h o.prior s).lyt (some e)))
          (releaseInbound h o.prior s)
        refine Careful.ordinary (Careful.after (resumeOrder_careful (fun _ => carries.of_eq ?_) (fun _ => rfl))
          ((releaseInbound_careful h o.prior s).trans (issueTo_careful _ _ _)))
        exact (congrArg OrderTable.orders told.ort).trans (by rw [(releaseInbound_only h o.prior s).ort])
      · exact .refl s
    · split
      · exact .refl s
      · refine Careful.ordinary ?_
        exact .after (updOrder_careful (fun _ _ => .of_eq rfl rfl rfl) (fun _ => rfl))
          ((releaseInbound_careful h o.prior s).trans (issueTo_careful _ _ _))
  · split
    · exact .refl s
    · exact waiting

theorem retargetOrder_ordinary (f : EndpointField) : Ordinary s (retargetOrder h f o s).state := by
  unfold retargetOrder
  split
  · exact .refl s
  · split
    · exact .refl s
    · split
      · exact retargetTo_ordinary ho _
      · exact .refl s

/-- What of the tables a vehicle's unloading after it has left its order changes. -/
theorem resourceOrder_careful {A : Prop} (p : Nat) : Careful A s (resourceOrder h p o s) := by
  have loads : ∀ u, Careful A u (unloadVehicle o.loc u) := by
    intro u
    unfold unloadVehicle
    split
    · exact updVehicle_careful (fun v _ => .of_eq rfl rfl rfl rfl id id) (fun _ _ => id)
    · exact .refl u
  have loadsOnly : ∀ u, OnlyVehicles u (unloadVehicle o.loc u) := by
    intro u
    unfold unloadVehicle
    split
    · exact updVehicle_only _ _ u
    · exact .refl u
  have steadyL := leaveVehicle_steady o.loc s
  have onlyL := leaveVehicle_only o.loc s
  have left := leaveVehicle_left o.loc s
  have flagL := leaveVehicle_flag o.loc s
  have placesL := leaveVehicle_places o.loc s
  unfold resourceOrder
  generalize leaveVehicle o.loc s = u at *
  -- the vehicle unloaded and the claims freed
  have shelves : OnlyShelves (unloadVehicle o.loc u)
      (releaseInbound h o.prior (vacateSource h o.source (unloadVehicle o.loc u))) :=
    (vacateSource_only _ _ _).trans (releaseInbound_only _ _ _)
  have rest : Careful A u (releaseInbound h o.prior (vacateSource h o.source (unloadVehicle o.loc u))) :=
    .after (releaseInbound_careful _ _ _) (.after (vacateSource_careful _ _ _) (loads u))
  have quiet : ∀ k, tblGet (unloadVehicle o.loc u).vht.vehicles k =
      (tblGet u.vht.vehicles k).map (fun v => if o.loc.map (fun l => l.1) = some k then { v with load := .empty } else v) := by
    intro k
    unfold unloadVehicle
    split
    · rename_i slot i hl
      rw [updVehicle_get, hl]
      by_cases hk : k = slot
      · subst hk; simp
      · simp [hk, Ne.symm hk]
    · rename_i hl
      rw [hl]
      simp
  have vehicles : (releaseInbound h o.prior (vacateSource h o.source (unloadVehicle o.loc u))).vht =
      (unloadVehicle o.loc u).vht := by rw [shelves.eq]
  have orders : (releaseInbound h o.prior (vacateSource h o.source (unloadVehicle o.loc u))).ort = s.ort := by
    rw [shelves.ort, (loadsOnly u).eq, onlyL.eq]
  generalize releaseInbound h o.prior (vacateSource h o.source (unloadVehicle o.loc u)) = w at *
  have m := moveOrder_moved (s := w) (by rw [orders]; exact ho) (resourced p) .queued .none (carrierId s o.loc)
  have final : ∀ n, (enterState n .queued (resourced p (leaveState n o))).loc = none ∧
      (enterState n .queued (resourced p (leaveState n o))).orphan = none := fun _ => ⟨rfl, rfl⟩
  refine ⟨⟨(steadyL.trans rest.steady).trans (moveOrder_steady _ _ _ _ _ w), fun _ => ?_, fun hp => ?_⟩,
    (moveOrder_flag (by simp)).after (rest.flag.after flagL steadyL) (steadyL.trans rest.steady)⟩
  · generalize moveOrder h (resourced p) .queued .none (carrierId s o.loc) w = x at *
    have first : FleetKept s { x with vht := u.vht } := fleetKept_of_left ho m.record
      (fun k hk => by simpa [orders] using m.others k hk) (layerLeft_id left rfl) (final _).1 rfl (fun _ => (final _).2)
    have keep : ∀ v : Vehicle, ∀ c : Prop, [Decidable c] → Quiet v (if c then { v with load := .empty } else v) := by
      intro v c _
      split
      · exact .of_eq rfl rfl rfl rfl id id
      · exact .refl v
    refine first.trans (fleetKept_of_quiet rfl (fun k v hv => ?_) (fun k v hv => ?_))
    · rw [m.vht, vehicles, quiet] at hv
      obtain ⟨y, hy, rfl⟩ := Option.map_eq_some_iff.1 hv
      exact ⟨y, hy, keep _ _⟩
    · refine ⟨_, ?_, keep v (o.loc.map (fun l => l.1) = some k)⟩
      rw [m.vht, vehicles, quiet]
      exact congrArg (Option.map _) hv
  · have := rest.places (placesL hp)
    unfold PlacesTimed at this ⊢
    rw [m.bac]
    exact this

theorem sourceAt_ordinary (p : Nat) : Ordinary s (sourceAt h p o s).state := by
  unfold sourceAt
  split
  · exact .refl s
  · split
    · split
      · exact .refl s
      · exact (resourceOrder_careful ho p).ordinary
    all_goals exact .refl s

theorem ackDemand_ordinary (value : Nat) : Ordinary s (ackDemand h value o s).state := by
  unfold ackDemand
  split
  · exact .refl s
  · split
    · exact .refl s
    · split
      · rename_i hs
        split
        · refine Careful.ordinary (moveOrder_waiting_careful ho ?_ rfl (fun _ => rfl) (fun _ => rfl))
          rw [hs]
          rfl
        · exact Careful.ordinary (.after (endOrder_careful rfl _)
            (updOrder_careful (fun _ _ => .of_eq rfl rfl rfl) (fun _ => rfl)))
      · split <;> exact .refl s

omit ho in
theorem dropDemand_ordinary : Ordinary s (dropDemand h o s).state := by
  have cleared : Ordinary s (updOrder h (fun o => { o with asserted := false }) s) :=
    Careful.ordinary (updOrder_careful (fun _ _ => .of_eq rfl rfl rfl) (fun _ => rfl))
  unfold dropDemand
  split
  · exact .refl s
  · split
    case h_1 | h_2 | h_3 => exact (endOrder_careful rfl s).ordinary
    case h_4 => exact ((sendRecall_careful h s).trans (endOrder_careful rfl _)).ordinary
    case h_5 | h_6 | h_7 | h_8 | h_9 | h_10 => exact cleared
    all_goals exact .refl s

end Order

theorem queryBatch_ordinary (tag : Nat) (s : State) : Ordinary s (queryBatch tag s).state := by
  unfold queryBatch
  split <;> exact .refl s

/-! ## ORDER_PLACE (R44, R45) -/

theorem tblFree_spec {α : Type} {n k : Nat} {x : Tbl α} (h : tblFree n x = some k) : k < n ∧ tblGet x k = none := by
  have hk := List.mem_range.1 (List.mem_of_find?_eq_some h)
  have := List.find?_some h
  simpa [tblHas, hk] using this

/-- The entry an order takes is free, or that of a terminal order (R45). -/
theorem entryForOrder_spec {x : Tbl Order} {h : Nat} (e : entryForOrder x = some h) :
    (h < 256 ∧ tblGet x h = none) ∨ ∃ o, (h, o) ∈ x ∧ o.state.live = false := by
  unfold entryForOrder at e
  split at e
  · rename_i k hk
    cases e
    exact .inl (tblFree_spec hk)
  · obtain ⟨⟨k, o⟩, hb, rfl⟩ := Option.map_eq_some_iff.1 e
    have := List.mem_filter.1 (bestBy_mem _ hb)
    exact .inr ⟨o, this.1, by simpa using this.2⟩

theorem length_tblSet_le {α : Type} (x : Tbl α) (k : Nat) (v : α) : (tblSet x k v).length ≤ x.length + 1 := by
  induction x with
  | nil => simp [tblSet]
  | cons e x ih =>
    obtain ⟨j, w⟩ := e
    simp only [tblSet]
    split
    · simp
    · split
      · simp
      · simpa using ih

theorem openBatch_canonical {b : Tbl Batch} {tag : Option Nat} (hw : tblWf b = true) (hl : b.length ≤ 32)
    (hf : ∀ k, tag = some k → tblGet b k ≠ none ∨ b.length < 32) :
    tblWf (openBatch b tag) = true ∧ (openBatch b tag).length ≤ 32 := by
  unfold openBatch
  split
  · rename_i k
    split
    · rename_i e he
      exact ⟨tblWf_set hw _ _, by rw [length_tblSet hw he]; exact hl⟩
    · rename_i hn
      have := hf k rfl
      exact ⟨tblWf_set hw _ _, (length_tblSet_le b k _).trans (by simp [hn] at this; omega)⟩
  · exact ⟨hw, hl⟩

/-- A batch entry opened or counted, where the table has room (R66). -/
theorem openBatch_ordinary {tag : Option Nat} (hf : ∀ k, tag = some k → tblGet s.ort.batches k ≠ none ∨
    s.ort.batches.length < 32) (n : Nat) :
    Ordinary s { s with ort := { s.ort with nextSeq := n, batches := openBatch s.ort.batches tag } } := by
  have fleet : FleetKept s { s with ort := { s.ort with nextSeq := n, batches := openBatch s.ort.batches tag } } :=
    .of_eq rfl rfl
  have tables : TablesCanonical s →
      TablesCanonical { s with ort := { s.ort with nextSeq := n, batches := openBatch s.ort.batches tag } } :=
    fun c => { c with batches := openBatch_canonical c.batches.1 c.batches.2 hf }
  exact
    { lines := id
      settings := fun x => { x with }
      tables := fun c x => ⟨tables c, fleet.consistent rfl (tables c) x⟩
      rescan := fun r => ⟨r.orders, r.rescan⟩
      yield := id
      rest := SurveyAtRest.of_eq rfl rfl
      timers := fun c x _ y => ((fleet x.agreed).2 y.fleetTimed).timersRun y.placesTimed (tables c) y.survey
      capture := .refl _
      layout := .of_eq rfl
      racks := rfl
      flag := ⟨id, .inr (.of_eq rfl rfl rfl rfl)⟩ }

end Sys2Proof.Machine
end

section
/-! What ORDER_PLACE, the requests on vehicles, the survey, the timers and the pin keep (R45, R99 to R109, R122 to R127,
R146 to R156, R163, R166). -/
namespace Sys2Proof.Machine

open Sys2Proof

variable {s t : State}

/-! ## ORDER_PLACE (R44, R45) -/

/-- An order that waits off vehicles in an entry where no live order stands. -/
structure NewEntry (s : State) (h : Nat) (p : Order) : Prop where
  entry : (h < 256 ∧ tblGet s.ort.orders h = none) ∨ ∃ o, (h, o) ∈ s.ort.orders ∧ o.state.live = false
  loc : p.loc = none
  state : p.state.onVehicle = false
  orphan : p.orphan = none

theorem putOrder_new_regular {h : Nat} {p : Order} (n : NewEntry s h p) : Regular s (putOrder h p s) := by
  have key : (∀ e ∈ s.ort.orders, e.1 < 256) → ∀ e ∈ tblSet s.ort.orders h p, e.1 < 256 := by
    intro c e he
    rcases mem_tblSet he with rfl | he
    · rcases n.entry with ⟨hn, -⟩ | ⟨o, ho, -⟩
      · exact hn
      · exact c (h, o) ho
    · exact c e he
  have tables : TablesCanonical s → TablesCanonical (putOrder h p s) := fun c =>
    { c with orders := ⟨tblWf_set c.orders.1 _ _, key c.orders.2⟩ }
  have fleet : TablesCanonical s → FleetKept s (putOrder h p s) := by
    intro c a
    have free : ∀ k v i, tblGet s.vht.vehicles k = some v → ¬(v.layer i).holds h := by
      intro k v i hv hh
      rcases n.entry with hn | ⟨o, ho, hl⟩
      · obtain ⟨o, ho, -⟩ := a.layers k v i h hv hh
        simp [hn.2] at ho
      · exact a.not_held (tblGet_of_mem c.orders.1 ho) (onVehicle_of_not_live hl) hv hh
    have read : ∀ g q, tblGet (putOrder h p s).ort.orders g = some q → (g = h ∧ q = p) ∨
        (g ≠ h ∧ tblGet s.ort.orders g = some q) := by
      intro g q hq
      by_cases hg : g = h
      · subst hg
        exact .inl ⟨rfl, by simpa using hq.symm⟩
      · exact .inr ⟨hg, by rwa [putOrder_others h p s g hg] at hq⟩
    refine ⟨⟨a.sound, fun k v i g hv hh => ?_, fun g q hq => ?_, fun g q k i hq hl => ?_⟩,
      fun x => ⟨x.vehicles, fun g q hq => ?_⟩⟩
    · have hg : g ≠ h := by rintro rfl; exact free k v i hv hh
      rw [putOrder_others h p s g hg]
      exact a.layers k v i g hv hh
    · rcases read g q hq with ⟨-, rfl⟩ | ⟨-, hq⟩
      · simp [n.loc, n.state]
      · exact a.places g q hq
    · rcases read g q hq with ⟨-, rfl⟩ | ⟨-, hq⟩
      · simp [n.loc] at hl
      · exact a.located g q k i hq hl
    · rcases read g q hq with ⟨-, rfl⟩ | ⟨-, hq⟩
      · have : q.state ≠ .suspended := fun e => by simpa [e, OrderState.onVehicle] using n.state
        simp [OrderTimed, n.orphan, this]
      · exact x.orders g q hq
  exact
    { lines := id
      settings := fun x => { x with }
      tables := fun c x => ⟨tables c, (fleet c).consistent rfl (tables c) x⟩
      rescan := fun hr => ⟨tblWf_set hr.orders _ _, by
        have := hr.rescan
        rw [← queuedCount_pos] at this
        exact (rescanAfter_isSome this).trans queuedCount_pos⟩
      yield := id
      rest := SurveyAtRest.of_eq rfl rfl
      timers := fun c x _ y => (((fleet c) x.agreed).2 y.fleetTimed).timersRun y.placesTimed (tables c) y.survey
      capture := .refl _
      layout := .of_eq rfl
      racks := rfl }

theorem putOrder_held_flag {h : Nat} {p : Order} (hs : p.state = .held) : FlagKept s (putOrder h p s) := by
  refine ⟨id, .inr { Unflagged.of_eq (s := s) (t := s) rfl rfl rfl rfl with orders := fun g q hq he => ?_ }⟩
  by_cases hg : g = h
  · subst hg
    rw [putOrder_record] at hq
    cases hq
    simp [hs] at he
  · exact ⟨q, by rwa [putOrder_others h p s g hg] at hq, rfl⟩

theorem claimSource_careful {A : Prop} (h : Nat) (f : OrderForm) (tag : Option CarrierTag) (s : State) :
    Careful A s (claimSource h f tag s) := by
  unfold claimSource
  split
  · split
    · exact setShelf_careful _ _ s
    · exact .refl s
  · exact .refl s

theorem claimSource_only (h : Nat) (f : OrderForm) (tag : Option CarrierTag) (s : State) :
    OnlyShelves s (claimSource h f tag s) := by
  unfold claimSource
  split
  · split
    · exact setShelf_only _ _ s
    · exact .refl s
  · exact .refl s

theorem acceptOrder_ordinary {h : Nat} {r : OrderPlaceReq} (f : OrderForm)
    (he : entryForOrder s.ort.orders = some h) (hb : batchFull s.ort r.batchTag = false) :
    Ordinary s (acceptOrder h r f s) := by
  have room : ∀ k, r.batchTag = some k → tblGet s.ort.batches k ≠ none ∨ s.ort.batches.length < 32 := by
    intro k hk
    simp only [batchFull, hk, tblHas, Bool.and_eq_false_iff, Bool.not_eq_false', Option.isSome_iff_ne_none,
      decide_eq_false_iff_not, Nat.not_le] at hb
    exact hb
  unfold acceptOrder
  have opened := openBatch_ordinary room (satTime (s.ort.nextSeq + 1))
  generalize hu : { s with ort := { s.ort with
    nextSeq := satTime (s.ort.nextSeq + 1), batches := openBatch s.ort.batches r.batchTag } } = u at *
  have orders : u.ort.orders = s.ort.orders := by rw [← hu]
  have claimed := opened.trans (claimSource_careful h f r.carrierTag u).ordinary
  have same : (claimSource h f r.carrierTag u).ort.orders = s.ort.orders := by
    rw [(claimSource_only h f r.carrierTag u).ort, orders]
  have put : Regular (claimSource h f r.carrierTag u)
      (putOrder h (newOrder s r f (placedSource s f r.carrierTag)) (claimSource h f r.carrierTag u)) :=
    putOrder_new_regular ⟨by rw [same]; exact entryForOrder_spec he, rfl, by
      simp only [newOrder]
      split <;> rfl, rfl⟩
  cases hh : r.hold with
  | false => exact (claimed.toRegular.trans put).setExam
  | true => exact claimed.trans ⟨put, putOrder_held_flag (by simp [newOrder, hh])⟩

theorem placeOrder_ordinary (r : OrderPlaceReq) (s : State) : Ordinary s (placeOrder r s).state := by
  unfold placeOrder
  split
  · exact .refl s
  · split
    · exact .refl s
    · split
      · exact .refl s
      · split
        · exact .refl s
        · split
          · exact .refl s
          · split
            · exact .refl s
            · exact acceptOrder_ordinary _ ‹_› (by simpa using ‹¬batchFull _ _ = true›)

/-! ## Requests on vehicles (R101 to R110) -/

section Vehicles

variable {slot : Nat} {v : Vehicle}

theorem stallVehicle_ordinary : Ordinary s (stallVehicle slot v s).state := by
  unfold stallVehicle
  split
  · exact .refl s
  · exact Careful.ordinary (.after (recallStaged_careful _ _) (.after (vehicleNotice_careful _ _ _)
      (updVehicle_careful (fun _ _ => .of_eq rfl rfl rfl rfl id id) (fun _ _ => id))))

theorem unstallVehicle_ordinary : Ordinary s (unstallVehicle slot v s).state := by
  unfold unstallVehicle
  split
  · exact Careful.ordinary (Sound.setExam (.after (vehicleNotice_careful _ _ _).toSound
      (updVehicle_sound fun _ _ => .of_eq rfl rfl rfl rfl id id)))
  · exact .refl s

theorem clearFault_ordinary : Ordinary s (clearFault slot v s).state := by
  unfold clearFault
  split
  · exact .refl s
  · split
    · exact .refl s
    · exact (clearFaultStall_careful slot s).ordinary

theorem autoRelease_ordinary (r : VehicleNumReq) (s : State) : Ordinary s (autoRelease r s).state := by
  unfold autoRelease
  split
  · refine onVehicle_ordinary fun slot v _ => ?_
    unfold setAutoRelease
    split
    · exact .refl s
    · exact Careful.ordinary (updVehicle_careful (fun _ _ => .of_eq rfl rfl rfl rfl id id) (fun _ _ => id))
  · exact .refl s

theorem setGroups_ordinary (mask : BitVec 8) : Ordinary s (setGroups mask slot v s).state := by
  refine Careful.ordinary (Careful.setExamIf ?_ _)
  exact updVehicle_careful (fun _ _ => .of_eq rfl rfl rfl rfl id id) (fun _ _ => id)

theorem queryVehicle_ordinary (r : SelectReq) (s : State) : Ordinary s (queryVehicle r s).state := by
  unfold queryVehicle
  split
  · exact onVehicle_ordinary fun _ _ _ => .refl s
  · split
    · split <;> exact .refl s
    · exact .refl s
  · exact .refl s

theorem tblErase_sublist {α : Type} (x : Tbl α) (k : Nat) : (tblErase x k).Sublist x := by
  induction x with
  | nil => exact .slnil
  | cons e x ih =>
    simp only [tblErase]
    split
    · exact ih.cons _
    · exact ih.cons₂ _

/-- A slot freed whose layers are EMPTY. -/
theorem eraseVehicle_ordinary (hv : tblGet s.vht.vehicles slot = some v) (he : ∀ i, v.layer i = .empty) :
    Ordinary s { s with vht := { s.vht with vehicles := tblErase s.vht.vehicles slot } } := by
  have read : ∀ k w, tblGet (tblErase s.vht.vehicles slot) k = some w → tblGet s.vht.vehicles k = some w := by
    intro k w hw
    by_cases hk : k = slot
    · subst hk
      simp at hw
    · rwa [tblGet_erase_other _ hk] at hw
  have fleet : FleetKept s { s with vht := { s.vht with vehicles := tblErase s.vht.vehicles slot } } := by
    intro a
    refine ⟨⟨fun k w hw => a.sound k w (read k w hw), fun k w i h hw => a.layers k w i h (read k w hw), a.places,
      fun h o k i ho hl => ?_⟩, fun x => ⟨fun k w hw => x.vehicles k w (read k w hw), x.orders⟩⟩
    obtain ⟨w, hw, hh⟩ := a.located h o k i ho hl
    have hk : k ≠ slot := by
      rintro rfl
      rw [hv] at hw
      cases hw
      simp [he i] at hh
    exact ⟨w, by simp only [tblGet_erase_other _ hk]; exact hw, hh⟩
  have tables : TablesCanonical s →
      TablesCanonical { s with vht := { s.vht with vehicles := tblErase s.vht.vehicles slot } } := fun c =>
    { c with vehicles := ⟨tblWf_erase c.vehicles.1 slot, fun e he => c.vehicles.2 e (mem_tblErase he).1⟩ }
  have ids : (s.vht.vehicles.map (fun e => e.2.fleetId)).Nodup →
      ((tblErase s.vht.vehicles slot).map (fun e => e.2.fleetId)).Nodup := fun h =>
    h.sublist (List.Sublist.map _ (tblErase_sublist _ _))
  exact
    { lines := id
      settings := fun x => { x with }
      tables := fun c x => ⟨tables c, (fleet x.agreed).1.consistent (tables c) (ids x.distinctIds)⟩
      rescan := fun r => ⟨r.orders, r.rescan⟩
      yield := id
      rest := SurveyAtRest.of_eq rfl rfl
      timers := fun c x _ y => ((fleet x.agreed).2 y.fleetTimed).timersRun y.placesTimed (tables c) y.survey
      capture := .refl _
      layout := .of_eq rfl
      racks := rfl
      flag := ⟨id, .inr { Unflagged.of_eq (s := s) (t := s) rfl rfl rfl rfl with
        idle := fun k w hw hi => ⟨w, read k w hw, hi⟩, take := fun k w hw _ => ⟨w, read k w hw, rfl⟩ }⟩ }

theorem retireVehicle_ordinary (hv : tblGet s.vht.vehicles slot = some v) :
    Ordinary s (retireVehicle slot v s).state := by
  unfold retireVehicle
  split
  · exact .refl s
  · split
    · exact .refl s
    · rename_i hb
      simp only [Vehicle.bothEmpty, Bool.not_eq_true', Bool.not_eq_false] at hb
      refine (eraseVehicle_ordinary hv fun i => ?_).trans (leaveBaysGranting_careful _ _ _).ordinary
      cases i <;> simp_all [Vehicle.layer]

end Vehicles

/-! ## The idle survey (R146 to R156) -/

/-- The sequencer's settings are within their ranges (R146). -/
def SurveyInRange (i : Survey) : Prop :=
  i.skipN ≤ 15 ∧ i.skipLeft ≤ i.skipN ∧ 1 ≤ i.everyM ∧ i.everyM ≤ 16 ∧ i.stepCount < i.everyM

/-- The survey timer runs exactly while trigger A is on outside IDLE (R149). -/
def SurveyTimed (i : Survey) : Prop := i.timer.isSome = true ↔ i.aOn = true ∧ i.state ≠ .idle

/-- In IDLE the sequencer has no pending start and no timer running (R149, R156). -/
def SurveyIdle (i : Survey) : Prop := i.state = .idle → i.timer = none ∧ i.pendingStart = false

/-- What a step of the sequencer keeps; `run` is whether it may leave IDLE. -/
structure SurveyKept (run : Prop) (i j : Survey) : Prop where
  range : SurveyInRange i → SurveyInRange j
  rest : SurveyIdle i → SurveyIdle j
  timed : SurveyIdle i → SurveyTimed i → SurveyTimed j
  state : run ∨ (i.state = .idle → j.state = .idle)

theorem SurveyKept.refl (run : Prop) (i : Survey) : SurveyKept run i i := ⟨id, id, fun _ => id, .inr id⟩

theorem ordinary_of_survey {j : Survey} (h : SurveyKept (s.lyt.opState = .running) s.iss j) :
    Ordinary s { s with iss := j } where
  toKept := TablesSame.kept ⟨rfl, rfl, rfl, rfl, rfl, rfl, id⟩ id id
    (fun x => SettingsSame.inRange (s := s) ⟨⟨rfl, rfl, rfl, rfl, rfl⟩, ⟨rfl, rfl, rfl, rfl⟩, ⟨rfl, rfl, rfl⟩, rfl, rfl,
      rfl⟩ x x.bays (h.range x.survey))
    (fun x => ⟨h.rest x.idle, fun e => by
      rcases h.state with hr | hi
      · exact absurd hr e
      · exact hi (x.outside e)⟩)
    (fun x => h.timed x.idle)
  capture := .refl _
  layout := .of_eq rfl
  racks := rfl
  flag := ⟨id, .inr (.of_eq rfl rfl rfl rfl)⟩

theorem fireTrigger_kept (run : Prop) (i : Survey) : SurveyKept run i (fireTrigger i) := by
  unfold fireTrigger
  split
  · exact .refl run i
  · rename_i hs
    exact ⟨id, fun _ e => by simp [startPass] at e, fun _ x => by simpa [SurveyTimed, startPass, hs] using x,
      .inr fun e => by simp [hs] at e⟩
  · rename_i hs
    exact ⟨id, fun _ e => by simp [hs] at e, fun _ x => x, .inr id⟩

theorem SurveyKept.trans {run : Prop} {i j k : Survey} (h : SurveyKept run i j) (l : SurveyKept run j k) :
    SurveyKept run i k where
  range := fun x => l.range (h.range x)
  rest := fun x => l.rest (h.rest x)
  timed := fun x y => l.timed (h.rest x) (h.timed x y)
  state := by
    rcases h.state with a | a
    · exact .inl a
    · rcases l.state with b | b
      · exact .inl b
      · exact .inr fun e => b (a e)

theorem countPlacement_kept (run : Prop) (i : Survey) : SurveyKept run i (countPlacement i) := by
  have stepped : ∀ n, (n < i.everyM ∨ n = 0) → SurveyKept run i { i with stepCount := n } := fun n hn =>
    ⟨fun ⟨a, b, c, d, _⟩ => ⟨a, b, c, d, by simp only; omega⟩, id, fun _ => id, .inr id⟩
  unfold countPlacement
  split
  · split
    · exact ⟨fun ⟨a, b, c⟩ => ⟨a, by simp only; omega, c⟩, id, fun _ => id, .inr id⟩
    · split
      · exact (stepped 0 (.inr rfl)).trans (fireTrigger_kept run _)
      · exact stepped _ (.inl (by omega))
  · exact .refl run i

theorem surveyPlacement_ordinary (s : State) : Ordinary s (surveyPlacement s) :=
  ordinary_of_survey (countPlacement_kept _ _)

theorem setupFits_bounds {l : Layout} {m : SurveyMode} {r : SurveySetupReq} (h : setupFits l m r = true) :
    r.skipN ≤ 15 ∧ 1 ≤ r.everyM ∧ r.everyM ≤ 16 := by
  simp only [setupFits, Bool.and_eq_true, decide_eq_true_eq, inRange_iff] at h
  exact ⟨h.1.2, h.2⟩

theorem setupSurvey_ordinary (r : SurveySetupReq) (s : State) : Ordinary s (setupSurvey r s).state := by
  unfold setupSurvey
  split
  · exact .refl s
  · rename_i hs
    split
    · split
      · rename_i m a b _ _ _ hf
        refine ordinary_of_survey ⟨fun _ => ?_, fun hi => ?_, fun hi ht => ?_, .inr fun e => ?_⟩
        · obtain ⟨h1, h2, h3⟩ := setupFits_bounds hf
          unfold retimeSurvey
          split <;> exact ⟨h1, Nat.le_refl _, h2, h3, h2⟩
        · unfold retimeSurvey
          split
          · rename_i ha
            intro e
            simp [ha] at e
          · exact hi
        · unfold retimeSurvey
          split
          · rename_i ha
            have ha : s.iss.state = .armed := ha
            simp [SurveyTimed, surveyTimer, setUp, ha]
          · rename_i ha
            have idle : s.iss.state = .idle := by
              cases h : s.iss.state <;> simp_all [setUp]
            simp [SurveyTimed, setUp, idle, (hi idle).1]
        · unfold retimeSurvey
          split
          · exact e
          · exact e
      · exact .refl s
    · exact .refl s

theorem startSurvey_ordinary (r : Unit) (s : State) (hr : s.lyt.opState = .running) :
    Ordinary s (startSurvey r s).state := by
  unfold startSurvey
  split
  · refine ordinary_of_survey ⟨fun ⟨a, _, c, d, _⟩ => ⟨a, Nat.le_refl _, c, d, c⟩, fun _ e => by simp [startPass] at e,
      fun _ _ => ?_, .inl hr⟩
    simp only [SurveyTimed, startPass, resetCounter, surveyTimer]
    cases s.iss.aOn <;> simp
  · rename_i hs
    exact ordinary_of_survey ⟨id, fun _ e => by simp [startPass] at e,
      fun _ x => by simpa [SurveyTimed, startPass, hs] using x, .inl hr⟩
  · exact .refl s

theorem stopped_kept (run : Prop) (i : Survey) : SurveyKept run i (stopped i) :=
  ⟨id, fun _ _ => ⟨rfl, rfl⟩, fun _ _ => by simp [SurveyTimed, stopped], .inr fun _ => rfl⟩

theorem stopSurvey_ordinary (r : Unit) (s : State) : Ordinary s (stopSurvey r s).state := by
  unfold stopSurvey
  split
  · exact ordinary_of_survey (.refl _ _)
  · exact ordinary_of_survey (stopped_kept _ _)
  · exact ordinary_of_survey (stopped_kept _ _)

theorem execSurveyTimerExpiry_ordinary (e : execSurveyTimerExpiry s = .next t) : Ordinary s t := by
  unfold execSurveyTimerExpiry at e
  split at e <;> cases e
  · rename_i hd
    have some : s.iss.timer ≠ none := by
      intro x
      simp [x, timerDue] at hd
    have fired := fireTrigger_kept (s.lyt.opState = .running) s.iss
    have kept : ∀ i, (fireTrigger i).state = .idle → i.state = .idle := by
      intro i
      unfold fireTrigger
      split
      · exact id
      · simp [startPass]
      · exact id
    have aOn : (fireTrigger s.iss).aOn = s.iss.aOn := by
      unfold fireTrigger
      split <;> rfl
    refine ordinary_of_survey ⟨fired.range, fun hi hn => ?_, fun hi ht => ?_, fired.state⟩
    · exact absurd (hi (kept _ hn)).1 some
    · have on := ht.1 (Option.isSome_iff_ne_none.2 some)
      simp only [SurveyTimed, Option.isSome_some, true_iff, aOn]
      exact ⟨on.1, fun x => on.2 (kept _ x)⟩
  · exact .refl s

theorem tally_ordinary (moves : Nat) (short : List Nat) : Ordinary s { s with iss := { s.iss with
    moves := moves
    short := short } } :=
  ordinary_of_survey ⟨id, id, fun _ => id, .inr id⟩

theorem tallyShort_ordinary (b : Nat) (s : State) : Ordinary s (tallyShort b s) := by
  unfold tallyShort
  split
  · exact tally_ordinary _ _
  · exact .refl s

theorem bayStep_ordinary (b : Nat) (s : State) : Ordinary s (bayStep b s) := by
  unfold bayStep
  split
  · split
    · exact ((sendMoveTo_careful _ b s).ordinary.trans (tally_ordinary _ _)).trans (tallyShort_ordinary _ _)
    · exact tallyShort_ordinary b s
  · exact .refl s

theorem bayStep_survey (b : Nat) (s : State) : (bayStep b s).iss.state = s.iss.state := by
  have short : ∀ u, (tallyShort b u).iss.state = u.iss.state := by
    intro u
    unfold tallyShort
    split <;> rfl
  unfold bayStep
  split
  · split
    · rw [short]
      change (sendMoveTo _ b s).iss.state = s.iss.state
      rw [(sendMoveTo_careful (A := True) _ b s).steady.framed.iss]
    · exact short s
  · rfl

theorem endPass_ordinary (hs : s.iss.state = .surveying) : Ordinary s (endPass s) := by
  have notice := (queueNotice_careful (A := True)
    (.surveyDone s.iss.mode s.iss.first s.iss.last s.now s.iss.moves s.iss.short) s)
  have iss := notice.steady.framed.iss
  refine notice.ordinary.trans (ordinary_of_survey ?_)
  rw [iss]
  unfold afterPass
  split
  · split
    · exact ⟨id, fun _ e => by simp [startPass] at e, fun _ x => by simpa [SurveyTimed, startPass, hs] using x,
        .inr fun e => by simp [hs] at e⟩
    · exact ⟨id, fun _ e => by simp at e, fun _ x => by simpa [SurveyTimed, hs] using x,
        .inr fun e => by simp [hs] at e⟩
  · exact stopped_kept _ _

theorem execSurveyBayStep_ordinary (e : execSurveyBayStep s = .next t) : Ordinary s t := by
  unfold execSurveyBayStep at e
  split at e <;> cases e
  · rename_i hs
    refine (bayStep_ordinary s.iss.current s).trans ?_
    unfold advancePass
    split
    · exact ordinary_of_survey ⟨id, id, fun _ => id, .inr id⟩
    · exact endPass_ordinary ((bayStep_survey _ s).trans hs)
  · exact .refl s

end Sys2Proof.Machine
end

section
/-! What the expiries of timers and the pin GWRDY keep (R72, R99, R102, R107, R122 to R127, R163, R166). -/
namespace Sys2Proof.Machine

open Sys2Proof

variable {s t : State}

/-! ## The layers of a vehicle (R91) -/

theorem activeLayer_eq_none_iff {v : Vehicle} : v.activeLayer = none ↔ ∀ i h, v.layer i ≠ .active h := by
  constructor
  · intro e i h hl
    cases i <;> simp_all [Vehicle.activeLayer, Vehicle.layer]
    split at e <;> simp_all
  · intro e
    have h0 := e .l0
    have h1 := e .l1
    simp only [Vehicle.layer] at h0 h1
    unfold Vehicle.activeLayer
    split <;> simp_all

theorem stagedLayer_eq_none_iff {v : Vehicle} : v.stagedLayer = none ↔ ∀ i h, v.layer i ≠ .staged h := by
  constructor
  · intro e i h hl
    cases i <;> simp_all [Vehicle.stagedLayer, Vehicle.layer]
    split at e <;> simp_all
  · intro e
    have h0 := e .l0
    have h1 := e .l1
    simp only [Vehicle.layer] at h0 h1
    unfold Vehicle.stagedLayer
    split <;> simp_all

theorem layer_of_activeLayer {v : Vehicle} {h : Nat} {i : LayerId} (e : v.activeLayer = some (h, i)) :
    v.layer i = .active h := by
  unfold Vehicle.activeLayer at e
  split at e
  · cases e; assumption
  · cases e; assumption
  · cases e

theorem layer_of_stagedLayer {v : Vehicle} {h : Nat} {i : LayerId} (e : v.stagedLayer = some (h, i)) :
    v.layer i = .staged h := by
  unfold Vehicle.stagedLayer at e
  split at e
  · cases e; assumption
  · cases e; assumption
  · cases e

/-- The ACTIVE order of a vehicle is in the order table. -/
theorem activeOrder_eq_some {x : OrderTable} {v : Vehicle} {h : Nat} {o : Order} (e : activeOrder x v = some (h, o)) :
    tblGet x.orders h = some o ∧ ∃ i, v.layer i = .active h := by
  unfold activeOrder at e
  split at e
  · rename_i g i ha
    obtain ⟨q, hq, e⟩ := Option.map_eq_some_iff.1 e
    cases e
    exact ⟨hq, i, layer_of_activeLayer ha⟩
  · cases e

/-! ## The arbiter's rescan timer (R72) -/

theorem execRescanTimerExpiry_ordinary (e : execRescanTimerExpiry s = .next t) : Ordinary s t := by
  unfold execRescanTimerExpiry at e
  split at e <;> cases e
  · exact
      { lines := id
        settings := fun x => { x with }
        tables := fun c x => ⟨{ c with }, FleetKept.consistent (s := s) (.of_eq rfl rfl) rfl { c with } x⟩
        rescan := fun r => ⟨r.orders, by
          simp only [← queuedCount_pos]
          split <;> simp_all⟩
        yield := id
        rest := SurveyAtRest.of_eq rfl rfl
        timers := fun _ _ _ y => ⟨y.take, y.silence, y.orphan, y.lapse, y.starve, y.survey⟩
        capture := .refl _
        layout := .of_eq rfl
        racks := rfl
        flag := .of_exam rfl }
  · exact .refl s

/-! ## Vehicles (R99, R102, R107) -/

theorem noTakeStall_careful {A : Prop} (slot : Nat) (s : State) : Careful A s (noTakeStall slot s) := by
  unfold noTakeStall
  split
  · exact .ite _ (setFaultStall_careful _ _ _ s) (.refl s)
  · exact .refl s

theorem takeExpiry_careful {A : Prop} (slot : Nat) (s : State) : Careful A s (takeExpiry slot s) := by
  unfold takeExpiry
  split
  · rename_i v hv
    split
    · refine .after (noTakeStall_careful _ _) (.after (raiseVehicle_careful _ _ _ _ _ _) (.after ?_
        (recallStaged_careful slot s)))
      exact updVehicle_careful (fun w _ => .of_eq rfl rfl rfl rfl (fun _ => by simp only; omega) id) (fun _ _ => id)
    · rename_i hn
      refine updVehicle_careful (fun w hw => ?_) (fun _ _ => id) (fun _ _ e => absurd rfl e)
      rw [hv] at hw
      cases hw
      refine ⟨rfl, rfl, rfl, id, fun x => ⟨?_, x.silence⟩⟩
      have no := stagedLayer_eq_none_iff.1 hn
      simp only [Option.isSome_none, Bool.false_eq_true, false_iff, not_and]
      rintro ⟨i, h, e⟩
      exact absurd e (no i h)
  · exact .refl s

theorem execTakeTimerExpiry_ordinary {slot : Nat} (e : execTakeTimerExpiry slot s = .next t) : Ordinary s t := by
  unfold execTakeTimerExpiry at e
  split at e <;> cases e
  · exact (takeExpiry_careful slot s).ordinary
  · exact .refl s

theorem execNoTakeLimit_ordinary {slot : Nat} (e : execNoTakeLimit slot s = .next t) : Ordinary s t := by
  unfold execNoTakeLimit at e
  split at e
  · split at e
    · cases e
      exact (noTakeStall_careful slot s).ordinary
    · split at e <;> cases e
      · exact (takeExpiry_careful slot s).ordinary
      · exact .refl s
  · cases e
    exact .refl s

theorem silenceExpiry_careful {A : Prop} (slot : Nat) (s : State) : Careful A s (silenceExpiry slot s) :=
  .after (loseVehicle_careful _ _) (.after (raiseVehicle_careful _ _ _ _ _ _) (dropLink_careful _ _ s))

theorem execSilenceTimerExpiry_ordinary {slot : Nat} (e : execSilenceTimerExpiry slot s = .next t) :
    Ordinary s t := by
  unfold execSilenceTimerExpiry at e
  split at e <;> cases e
  · exact (silenceExpiry_careful slot s).ordinary
  · exact .refl s

/-- An idle level written. -/
theorem idleLevel_ordinary (slot : Nat) (l : IdleLevel) (s : State) :
    Ordinary s (updVehicle slot (fun v => { v with idleLevel := l }) s) :=
  Careful.ordinary (updVehicle_careful (fun _ _ => .of_eq rfl rfl rfl rfl id id) (fun _ _ => id))

theorem execParkStep_ordinary {slot : Nat} (e : execParkStep slot s = .next t) : Ordinary s t := by
  unfold execParkStep at e
  split at e
  · split at e <;> cases e
    · exact idleLevel_ordinary _ _ s
    · exact .refl s
  · cases e
    exact .refl s

theorem execDormantStep_ordinary {slot : Nat} (e : execDormantStep slot s = .next t) : Ordinary s t := by
  unfold execDormantStep at e
  split at e
  · split at e <;> cases e
    · exact idleLevel_ordinary _ _ s
    · exact .refl s
  · cases e
    exact .refl s

/-! ## Bays (R122, R125, R127) -/

theorem lapseGrant_careful {A : Prop} (b slot : Nat) (s : State) : Careful A s (lapseGrant b slot s) :=
  .after (grantQueue_careful _ _) (.after (issueTo_careful _ _ _) (leaveBay_careful b slot s))

theorem execLapseTimerExpiry_ordinary {b slot : Nat} (e : execLapseTimerExpiry b slot s = .next t) :
    Ordinary s t := by
  unfold execLapseTimerExpiry at e
  split at e <;> cases e
  · exact (lapseGrant_careful b slot s).ordinary
  · exact .refl s

theorem evict_careful {A : Prop} (b : Nat) (s : State) : Careful A s (evict b s) := by
  unfold evict
  split
  · exact sendMoveTo_careful _ _ s
  · exact .refl s

theorem evict_bays (b : Nat) (s : State) : (evict b s).bac.bays = s.bac.bays := by
  unfold evict
  split
  · simp only [sendMoveTo, updVehicle_bac]
    exact congrArg Admission.bays (issueTo_told _ _ s).bac
  · rfl

/-- Nothing but the bays has changed, their settings in range and their timers under their conditions. -/
theorem regular_of_bays {bs : Tbl BayState} (wf : tblWf s.bac.bays = true → tblWf bs = true)
    (range : (∀ e ∈ s.bac.bays, BayInRange e.2) → ∀ e ∈ bs, BayInRange e.2)
    (yield : YieldFollowsPressure s → YieldFollowsPressure { s with bac := { s.bac with bays := bs } })
    (places : PlacesTimed s → PlacesTimed { s with bac := { s.bac with bays := bs } }) :
    Regular s { s with bac := { s.bac with bays := bs } } := by
  have fleet : FleetKept s { s with bac := { s.bac with bays := bs } } := .of_eq rfl rfl
  have tables : TablesCanonical s → TablesCanonical { s with bac := { s.bac with bays := bs } } :=
    fun c => { c with bays := wf c.bays }
  exact
    { lines := id
      settings := fun x => { x with bays := range x.bays }
      tables := fun c x => ⟨tables c, fleet.consistent rfl (tables c) x⟩
      rescan := fun r => ⟨r.orders, r.rescan⟩
      yield := yield
      rest := SurveyAtRest.of_eq rfl rfl
      timers := fun c x _ r => ((fleet x.agreed).2 r.fleetTimed).timersRun (places r.placesTimed) (tables c) r.survey
      capture := .refl _
      layout := .of_eq rfl
      racks := rfl }

/-- A yield timer that runs started anew. -/
theorem restartYield_ordinary {b : Nat} (hy : ∀ y, tblGet s.bac.bays b = some y → y.yield.isSome = true) :
    Ordinary s (restartYield b s) := by
  unfold restartYield
  split
  · rename_i y hb
    have was := tblGet_mem hb
    have each : ∀ y', ∀ e ∈ tblSet s.bac.bays b y', e ∈ s.bac.bays ∨ e = (b, y') := fun _ _ he => (mem_tblSet he).symm
    refine ⟨regular_of_bays (fun c => tblWf_set c _ _) ?_ ?_ ?_, id, .inr ?_⟩
    · intro x e he
      rcases each _ e he with he | rfl
      · exact x e he
      · exact x (b, y) was
    · intro h e he
      rcases each _ e he with he | rfl
      · exact h e he
      · have := h _ was
        rw [hy y hb] at this
        simpa using this
    · intro p e he
      rcases each _ e he with he | rfl
      · exact p e he
      · exact ⟨(p _ was).lapse, (p _ was).starve⟩
    · refine { Unflagged.of_eq (s := s) (t := s) rfl rfl rfl rfl with admitted := fun c z a hz ha => ?_ }
      by_cases hc : c = b
      · subst hc
        rw [hb] at hz
        cases hz
        exact ⟨_, a, tblGet_set_self _ _ _, ha, rfl⟩
      · exact ⟨z, a, by simp only [tblGet_set_other _ _ hc]; exact hz, ha, rfl⟩
  · exact .refl s

theorem execYieldTimerExpiry_ordinary {b : Nat} (e : execYieldTimerExpiry b s = .next t) : Ordinary s t := by
  unfold execYieldTimerExpiry at e
  split at e <;> cases e
  · rename_i hd
    refine (evict_careful b s).ordinary.trans (restartYield_ordinary fun y hy => ?_)
    rw [evict_bays] at hy
    simp only [yieldDue, hy] at hd
    cases h : y.yield <;> simp_all [timerDue]
  · exact .refl s

theorem voidStarved_careful {A : Prop} (b slot : Nat) (s : State) : Careful A s (voidStarved b slot s) :=
  (leaveQueue_careful b slot s).trans (issueTo_careful _ _ _)

theorem starvedCase_careful {A : Prop} (b slot : Nat) (s : State) : Careful A s (starvedCase b slot s) := by
  unfold starvedCase
  split
  · split
    · exact .ite _ ((voidStarved_careful b slot s).trans (requeueAbort_careful _ _ _)) (.refl s)
    · exact .ite _ ((voidStarved_careful b slot s).trans (endReposition_careful _ _)) (.refl s)
  · exact .refl s

theorem markStarved_careful {A : Prop} (b slot : Nat) (s : State) : Careful A s (markStarved b slot s) :=
  updBay_careful (fun _ => ⟨rfl, rfl, rfl, rfl⟩)
    (fun y hy => ⟨hy.lapse, fun w hw => by
      obtain ⟨x, hx, rfl⟩ := List.mem_map.1 hw
      split
      · simp
      · exact hy.starve x hx⟩)
    (fun _ a ha => ⟨a, ha, rfl⟩)

theorem execStarvationTimerExpiry_ordinary {b slot : Nat} (e : execStarvationTimerExpiry b slot s = .next t) :
    Ordinary s t := by
  unfold execStarvationTimerExpiry at e
  split at e <;> cases e
  · exact Careful.ordinary (.after (starvedCase_careful _ _ _) (.after (raiseVehicle_careful _ _ _ _ _ _)
      (markStarved_careful b slot s)))
  · exact .refl s

/-! ## Orphans and batches (R67, R163) -/

theorem orphanStall_careful {A : Prop} (slot : Nat) (s : State) : Careful A s (orphanStall slot s) := by
  unfold orphanStall
  split
  · exact .ite _ (.refl s) (setFaultStall_careful _ _ _ s)
  · exact .refl s

theorem orphanExpiry_careful {A : Prop} (h : Nat) (s : State) : Careful A s (orphanExpiry h s) := by
  unfold orphanExpiry
  split
  · split
    · exact .after (orphanStall_careful _ _) (.after (raiseVehicle_careful _ _ _ _ _ _) (endOrder_careful rfl s))
    · exact endOrder_careful rfl s
  · exact .refl s

theorem execOrphanTimerExpiry_ordinary {h : Nat} (e : execOrphanTimerExpiry h s = .next t) : Ordinary s t := by
  unfold execOrphanTimerExpiry at e
  split at e <;> cases e
  · exact (orphanExpiry_careful h s).ordinary
  · exact .refl s

/-! ## GWRDY (R166) -/

/-- Every bay's queue and GRANTED entries removed, the bays' settings kept (R128). -/
theorem dropPlaces_ordinary (s : State) : Ordinary s (dropPlaces s) := by
  have regular : Regular s
      { s with bac := { s.bac with bays := s.bac.bays.map (fun e => (e.1, droppedBay e.2)) } } := by
    refine regular_of_bays (tblWf_map_records (fun e => droppedBay e.2)) ?_ ?_ ?_
    · intro x e he
      obtain ⟨f, hf, rfl⟩ := List.mem_map.1 he
      exact x f hf
    · intro _ e he
      obtain ⟨f, hf, rfl⟩ := List.mem_map.1 he
      simp [droppedBay]
    · intro p e he
      obtain ⟨f, hf, rfl⟩ := List.mem_map.1 he
      exact ⟨fun a ha => (p f hf).lapse a (List.mem_filter.1 ha).1, fun w hw => by simp [droppedBay] at hw⟩
  unfold dropPlaces
  cases hg : s.bac.bays.any (fun e => hasGranted e.2) with
  | true => exact regular.setExam
  | false =>
    refine ⟨regular, id, .inr { Unflagged.of_eq (s := s) (t := s) rfl rfl rfl rfl with
      admitted := fun b y a hy ha => ⟨droppedBay y, a, ?_, ?_, rfl⟩ }⟩
    · change tblGet (s.bac.bays.map (fun e => (e.1, droppedBay e.2)) : Tbl BayState) b = _
      rw [tblGet_map_records, hy]
      rfl
    · refine List.mem_filter.2 ⟨ha, ?_⟩
      have := List.any_eq_false.1 hg _ (tblGet_mem hy)
      simp only [hasGranted, List.any_eq_true, not_exists, not_and] at this
      simpa using this a ha

theorem loseOnline_careful {A : Prop} (ks : List Nat) (s : State) : Careful A s (loseOnline ks s) := by
  induction ks generalizing s with
  | nil => exact .refl s
  | cons k ks ih =>
    unfold loseOnline
    split
    · exact .after (ih _) (.ite _ ((dropLink_careful _ _ s).trans (loseVehicle_careful _ _)) (.refl s))
    · exact ih s

theorem execGwrdyFall_ordinary (e : execGwrdyFall s = .next t) : Ordinary s t := by
  unfold execGwrdyFall at e
  split at e <;> cases e
  · refine .after (loseOnline_careful _ _).ordinary (.after (dropPlaces_ordinary _)
      (.after (raiseIncident_careful _ _).ordinary ?_))
    exact ordinary_of_lines rfl fun r => { r with fleetRx := by simp [droppedLines], fleetIn := by simp [droppedLines],
                                                  fleetOut := by simp [droppedLines] }
  · exact .refl s

theorem execGwrdyRise_ordinary (e : execGwrdyRise s = .next t) : Ordinary s t := by
  cases e
  exact ordinary_of_lines rfl id

end Sys2Proof.Machine
end

section
/-! What each vehicle report keeps (R53 to R57, R93 to R97, R112, R119 to R124, R158 to R161). -/
namespace Sys2Proof.Machine

open Sys2Proof

variable {s t : State}

/-! ## An order put into a layer (R53, R84, R91) -/

/-- Order `h` stands in layer `i` of the vehicle in `slot`, which was EMPTY or held that order already. -/
structure LayerFilled (s t : State) (h slot : Nat) (i : LayerId) (o p : Order) (v w : Vehicle) : Prop where
  order : tblGet s.ort.orders h = some o
  record : tblGet t.ort.orders h = some p
  others : otherOrdersKept h s t
  vehicle : tblGet s.vht.vehicles slot = some v
  filled : tblGet t.vht.vehicles slot = some w
  rest : ∀ k, k ≠ slot → tblGet t.vht.vehicles k = tblGet s.vht.vehicles k
  holds : (w.layer i).holds h
  other : w.layer i.other = v.layer i.other
  was : v.layer i = .empty ∧ o.state.onVehicle = false ∨ (v.layer i).holds h
  loc : p.loc = some (slot, i)
  state : p.state.onVehicle = true
  assigned : p.state = .assigned ↔ w.layer i = .staged h
  sound : VehicleSound v → VehicleSound w
  timed : VehicleTimed v → VehicleTimed w
  orphan : OrderTimed o → OrderTimed p

theorem LayerFilled.fleetKept {h slot : Nat} {i : LayerId} {o p : Order} {v w : Vehicle}
    (f : LayerFilled s t h slot i o p v w) : FleetKept s t := by
  intro a
  -- before, no layer but this one held the order
  have only : ∀ k x j, tblGet s.vht.vehicles k = some x → (x.layer j).holds h → k = slot ∧ j = i := by
    intro k x j hx hh
    rcases f.was with ⟨-, hs⟩ | hv
    · exact absurd hh (a.not_held f.order hs hx)
    · exact a.layer_unique hx f.vehicle hh hv
  have order : ∀ g, g ≠ h → tblGet t.ort.orders g = tblGet s.ort.orders g := f.others
  refine ⟨⟨?_, ?_, ?_, ?_⟩, fun x => ⟨?_, ?_⟩⟩
  · intro k x hx
    by_cases hk : k = slot
    · subst hk
      rw [f.filled] at hx
      cases hx
      exact f.sound (a.sound _ _ f.vehicle)
    · rw [f.rest k hk] at hx
      exact a.sound k x hx
  · intro k x j g hx hh
    by_cases hk : k = slot
    · subst hk
      rw [f.filled] at hx
      cases hx
      rcases LayerId.eq_or_other i j with rfl | rfl
      · cases Layer.holds_inj hh f.holds
        exact ⟨p, f.record, f.loc, f.assigned⟩
      · rw [f.other] at hh ⊢
        have hg : g ≠ h := by
          rintro rfl
          exact LayerId.other_ne i (only k v i.other f.vehicle hh).2
        rw [order g hg]
        exact a.layers k v i.other g f.vehicle hh
    · rw [f.rest k hk] at hx
      have hg : g ≠ h := by
        rintro rfl
        exact hk (only k x j hx hh).1
      rw [order g hg]
      exact a.layers k x j g hx hh
  · intro g q hq
    by_cases hg : g = h
    · subst hg
      rw [f.record] at hq
      cases hq
      simp [f.loc, f.state]
    · rw [order g hg] at hq
      exact a.places g q hq
  · intro g q k j hq hl
    by_cases hg : g = h
    · subst hg
      rw [f.record] at hq
      cases hq
      rw [f.loc] at hl
      cases hl
      exact ⟨w, f.filled, f.holds⟩
    · rw [order g hg] at hq
      obtain ⟨x, hx, hh⟩ := a.located g q k j hq hl
      by_cases hk : k = slot
      · subst hk
        rw [f.vehicle] at hx
        cases hx
        refine ⟨w, f.filled, ?_⟩
        rcases LayerId.eq_or_other i j with rfl | rfl
        · rcases f.was with ⟨he, -⟩ | hv
          · simp [he] at hh
          · exact absurd (Layer.holds_inj hh hv) hg
        · rw [f.other]
          exact hh
      · exact ⟨x, by rw [f.rest k hk]; exact hx, hh⟩
  · intro k x' hx
    by_cases hk : k = slot
    · subst hk
      rw [f.filled] at hx
      cases hx
      exact f.timed (x.vehicles _ _ f.vehicle)
    · rw [f.rest k hk] at hx
      exact x.vehicles k x' hx
  · intro g q hq
    by_cases hg : g = h
    · subst hg
      rw [f.record] at hq
      cases hq
      exact f.orphan (x.orders _ _ f.order)
    · rw [order g hg] at hq
      exact x.orders g q hq

/-! ## TAKEN (R53, R127) -/

theorem takenVehicle_layer (h : Nat) (i : LayerId) (v : Vehicle) : (takenVehicle h i v).layer i = .active h ∧
    (takenVehicle h i v).layer i.other = v.layer i.other := by
  cases i <;> exact ⟨rfl, rfl⟩

/-- The vehicle of an order that becomes ACTIVE, where no layer was ACTIVE. -/
theorem takenVehicle_sound {h : Nat} {i : LayerId} {v : Vehicle} (hn : v.activeLayer = none) (hs : v.layer i = .staged h)
    (x : VehicleSound v) : VehicleSound (takenVehicle h i v) := by
  obtain ⟨l1, l2⟩ := takenVehicle_layer h i v
  have none := activeLayer_eq_none_iff.1 hn
  refine ⟨fun j a b ha hb => ?_, fun j a b ha hb => ?_, Nat.zero_le 3⟩
  · rcases LayerId.eq_or_other i j with rfl | rfl
    · rw [l2] at hb
      exact none _ _ hb
    · rw [l2] at ha
      exact none _ _ ha
  · rcases LayerId.eq_or_other i j with rfl | rfl
    · rw [l1] at ha
      cases ha
    · rw [LayerId.other_other, l1] at hb
      cases hb

theorem takenVehicle_timed {h : Nat} {i : LayerId} {v : Vehicle} (x : VehicleTimed v) :
    VehicleTimed (takenVehicle h i v) where
  take := by
    simp only [takenVehicle, Option.isSome_none, Bool.false_eq_true, false_iff, not_and]
    intro _ n
    exact n i h (takenVehicle_layer h i v).1
  silence := by
    have : (takenVehicle h i v).silence = v.silence ∧ (takenVehicle h i v).link = v.link := by cases i <;> exact ⟨rfl, rfl⟩
    rw [this.1, this.2]
    exact x.silence

theorem takenMove_careful {A : Prop} {slot h : Nat} {i : LayerId} {v : Vehicle}
    (hv : tblGet s.vht.vehicles slot = some v) (hs : v.layer i = .staged h) (hn : v.activeLayer = none) :
    Careful A s (moveOrder h id .toSource .none none (updVehicle slot (takenVehicle h i) s)) := by
  have steadyV : Steady s (updVehicle slot (takenVehicle h i) s) := by
    refine updVehicle_steady fun w hw => ?_
    rw [hv] at hw
    cases hw
    obtain ⟨l1, l2⟩ := takenVehicle_layer h i v
    refine ⟨by cases i <;> rfl, fun _ => Nat.zero_le 3, fun a b ha hb => ?_⟩
    have none := activeLayer_eq_none_iff.1 hn i.other
    cases i
    · exact absurd (l2.symm.trans hb) (none b)
    · exact absurd (l2.symm.trans ha) (none a)
  have flagV : FlagKept s (updVehicle slot (takenVehicle h i) s) :=
    updVehicle_flag (fun _ _ e => by simp [takenVehicle] at e) (fun _ _ e => absurd rfl e)
  refine ⟨⟨steadyV.trans (moveOrder_steady _ _ _ _ _ _), fun _ a => ?_, fun hp => ?_⟩,
    (moveOrder_flag (by simp)).after flagV steadyV⟩
  · obtain ⟨o, ho, hl, hst⟩ := a.staged_order hv hs
    have m := moveOrder_moved (s := updVehicle slot (takenVehicle h i) s) (by simpa using ho) id .toSource .none none
    refine LayerFilled.fleetKept
      { order := ho
        record := m.record
        others := fun k hk => by simpa using m.others k hk
        vehicle := hv
        filled := by rw [m.vht, updVehicle_get, if_pos rfl, hv]; rfl
        rest := fun k hk => by rw [m.vht, updVehicle_get, if_neg hk]
        holds := .inr (takenVehicle_layer h i v).1
        other := (takenVehicle_layer h i v).2
        was := .inr (.inl hs)
        loc := by simp [enterState, hl]
        state := by simp [enterState_state, OrderState.onVehicle]
        assigned := by simp [enterState_state, (takenVehicle_layer h i v).1]
        sound := takenVehicle_sound hn hs
        timed := takenVehicle_timed
        orphan := fun x => by simpa [OrderTimed, enterState, hst] using x } a
  · unfold PlacesTimed at hp ⊢
    cases ho : tblGet s.ort.orders h with
    | none => simpa [moveOrder, ho] using hp
    | some o =>
      rw [(moveOrder_moved (s := updVehicle slot (takenVehicle h i) s) (by simpa using ho) id .toSource .none none).bac]
      simpa using hp

theorem starvedAtTaken_careful {A : Prop} (bs : List Nat) (slot h : Nat) (s : State) :
    Careful A s (starvedAtTaken bs slot h s) := by
  induction bs generalizing s with
  | nil => exact .refl s
  | cons b bs ih => exact .after (ih _) ((voidStarved_careful b slot s).trans (requeueAbort_careful _ _ _))

theorem discard_ordinary (slot h : Nat) (l : Option Nat) (s : State) : Ordinary s (discard slot h l s) :=
  (issueTo_careful _ _ s).ordinary

theorem reportTaken_ordinary (slot : Nat) (r : TakenRep) (s : State) : Ordinary s (reportTaken slot r s) := by
  unfold reportTaken
  split
  · rename_i v i hv _
    split
    · rename_i hf
      simp only [takenFits, Bool.and_eq_true, decide_eq_true_eq, Option.isNone_iff_eq_none] at hf
      exact Careful.ordinary (.after (starvedAtTaken_careful _ _ _ _) (takenMove_careful hv hf.1 hf.2))
    · exact discard_ordinary _ _ _ s
  · exact discard_ordinary _ _ _ s

/-! ## Picks (R54, R55, R160) -/

theorem onActive_ordinary {slot h : Nat} {act : Vehicle → Order → State → State}
    (k : ∀ v o, tblGet s.vht.vehicles slot = some v → tblGet s.ort.orders h = some o → v.activeHandle = some h →
      Ordinary s (act v o s)) : Ordinary s (onActive slot h act s) := by
  unfold onActive
  split
  · split
    · exact k _ _ ‹_› ‹_› ‹_›
    · exact discard_ordinary _ _ _ s
  · exact discard_ordinary _ _ _ s

/-- The states in which a pick may begin or end, and those in which a placement may. -/
def OrderState.busy (st : OrderState) : Prop :=
  st = .toSource ∨ st = .cancelling ∨ st = .picking ∨ st = .carrying ∨ st = .placing

theorem OrderState.busy.onVehicle {st : OrderState} (h : st.busy) : st.onVehicle = true ∧ st ≠ .assigned ∧
    st ≠ .suspended := by
  rcases h with rfl | rfl | rfl | rfl | rfl <;> simp [OrderState.onVehicle]

section Order

variable {A : Prop} {slot h : Nat} {o : Order} {v : Vehicle} (ho : tblGet s.ort.orders h = some o)

include ho

theorem carries_of_busy (hs : o.state.busy) : Carries s h := ⟨o, ho, hs.onVehicle.1, hs.onVehicle.2.1⟩

theorem beginPick_careful (hs : o.state.busy) : Careful A s (beginPick h o s) :=
  moveOrder_carried_careful ho hs.onVehicle.1 hs.onVehicle.2.1 hs.onVehicle.2.2 rfl (by simp) (by simp) (by simp)
    (fun _ => rfl) (fun _ => rfl)

theorem beginPick_record : ∃ p, tblGet (beginPick h o s).ort.orders h = some p ∧ p.state = .picking :=
  ⟨_, (moveOrder_moved ho _ _ _ _).record, by rw [enterState_state]⟩

theorem beginPick_carries : Carries (beginPick h o s) h := by
  obtain ⟨p, hp, e⟩ := beginPick_record ho
  exact carries_of_busy hp (by simp [e, OrderState.busy])

theorem pickBegun_careful (hs : o.state.busy) : Careful A s (pickBegun slot h v o s) := by
  unfold pickBegun
  exact .ite _ (.after (carrierInvolved_careful _ fun _ => beginPick_carries ho) (beginPick_careful ho hs))
    (beginPick_careful ho hs)

omit ho in
theorem freeSource_careful (e : Option Endpoint) (s : State) : Careful A s (freeSource e s) := by
  unfold freeSource
  split
  · exact setShelf_careful _ _ s
  · exact .refl s

omit ho in
theorem freeSource_only (e : Option Endpoint) (s : State) : OnlyShelves s (freeSource e s) := by
  unfold freeSource
  split
  · exact setShelf_only _ _ s
  · exact .refl s

omit ho in
theorem updOrder_kept_careful {f : Order → Order} (hl : ∀ q, (f q).loc = q.loc) (hs : ∀ q, (f q).state = q.state)
    (hp : ∀ q, (f q).orphan = q.orphan) : Careful A s (updOrder h f s) :=
  updOrder_careful (fun q _ => .of_eq (hl q) (hs q) (hp q)) hs

omit ho in
theorem picked_careful (read : Option CarrierTag) : Careful A s (picked slot h read o s) := by
  unfold picked
  refine .after (updOrder_kept_careful (fun _ => rfl) (fun _ => rfl) (fun _ => rfl)) ?_
  refine .after (updVehicle_careful (fun _ _ => .of_eq rfl rfl rfl rfl id id) (fun _ _ => id)) ?_
  exact .after (freeSource_careful _ _) (updOrder_kept_careful (fun _ => rfl) (fun _ => rfl) (fun _ => rfl))

omit ho in
/-- A record changed but for its place and state. -/
theorem updOrder_record {f : Order → Order} {q : Order} (hq : tblGet s.ort.orders h = some q) :
    tblGet (updOrder h f s).ort.orders h = some (f q) := by
  unfold updOrder
  simp [hq]

omit ho in
theorem picked_record (read : Option CarrierTag) {q : Order} (hq : tblGet s.ort.orders h = some q) :
    ∃ p, tblGet (picked slot h read o s).ort.orders h = some p ∧ p.state = q.state ∧ p.loc = q.loc ∧
      p.orphan = q.orphan := by
  refine ⟨{ q with
    readTag := some (readOfReport read)
    etaDone := some (etaAtPick s { q with readTag := some (readOfReport read) }) }, ?_, rfl, rfl, rfl⟩
  refine updOrder_record (f := fun o => { o with etaDone := some (etaAtPick s o) }) (q := { q with
    readTag := some (readOfReport read) }) ?_
  rw [updVehicle_ort, (freeSource_only _ _).ort]
  exact updOrder_record hq

omit ho in
/-- An order on its vehicle that begins to be carried (R55). -/
theorem carry_ordinary {q : Order} (hq : tblGet s.ort.orders h = some q) (hs : q.state.busy) :
    Ordinary s (setExam (moveOrder h id .carrying .none none s)) := by
  obtain ⟨h1, h2, h3⟩ := hs.onVehicle
  refine Careful.ordinary (Sound.setExam (moveOrder_sound hq fun _ => ?_))
  exact placeKept_of_carried h1 h2 rfl (by simp) (by simp) fun x => by simpa [OrderTimed, h3] using x

omit ho in
theorem raiseMismatch_careful (slot h : Nat) (o : Order) (s : State) : Careful A s (raiseMismatch slot h o s) :=
  raiseVehicle_careful _ _ _ _ _ s

omit ho in
theorem afterPick_ordinary (read : Option CarrierTag) {q : Order} (hq : tblGet s.ort.orders h = some q)
    (hs : q.state.busy) : Ordinary s (afterPick slot h read o s) := by
  unfold afterPick
  refine .ite (fun _ => ?_) (fun _ => carry_ordinary hq hs)
  exact Careful.ordinary (.after (raiseMismatch_careful _ _ _ _)
    (suspendOrder_careful _ fun _ => carries_of_busy hq hs))

omit ho in
theorem afterPickUnderFault_ordinary (read : Option CarrierTag) (hc : Carries s h) :
    Ordinary s (afterPickUnderFault slot h read o s) := by
  unfold afterPickUnderFault
  exact .ite
    (fun _ => Careful.ordinary (.after (raiseMismatch_careful _ _ _ _) (carrierInvolved_careful _ fun _ => hc)))
    (fun _ => (carrierInvolved_careful _ fun _ => hc).ordinary)

theorem pickEnded_ordinary (read : Option CarrierTag) (hs : o.state.busy) :
    Ordinary s (pickEnded slot h read v o s) := by
  obtain ⟨p, hp, ep⟩ := beginPick_record ho
  have picking : OrderState.busy .picking := by simp [OrderState.busy]
  unfold pickEnded
  split
  · obtain ⟨q, hq, e, -⟩ := picked_record (slot := slot) (o := o) read ho
    exact .after (afterPick_ordinary read hq (by rw [e]; exact hs)) (picked_careful read).ordinary
  · obtain ⟨q, hq, e, -⟩ := picked_record (slot := slot) (o := o) read hp
    have busy : q.state.busy := by rw [e, ep]; exact picking
    split
    · exact .after (afterPickUnderFault_ordinary read (carries_of_busy hq busy))
        (.after (picked_careful read).ordinary (beginPick_careful ho hs).ordinary)
    · exact .after (afterPick_ordinary read hq busy)
        (.after (picked_careful read).ordinary (beginPick_careful ho hs).ordinary)

/-! ## Placements (R56) -/

theorem beginPlace_ordinary (hs : o.state = .carrying) (f : EndpointField) :
    Ordinary s (beginPlace slot h o f s) := by
  have busy : o.state.busy := by simp [hs, OrderState.busy]
  obtain ⟨h1, h2, h3⟩ := busy.onVehicle
  unfold beginPlace
  split
  · refine Careful.ordinary (.after (moveOrder_carried_careful (o := o) ?_ h1 h2 h3 rfl (by simp) (by simp) (by simp)
      (fun _ => rfl) (fun _ => rfl)) (releaseInbound_careful _ _ s))
    rw [(releaseInbound_only _ _ s).ort]
    exact ho
  · exact Careful.ordinary (moveOrder_carried_careful ho h1 h2 h3 rfl (by simp) (by simp) (by simp) (fun _ => rfl)
      (fun _ => rfl))
  · exact discard_ordinary _ _ _ s

omit ho in
theorem fillDest_careful (o : Order) (s : State) : Careful A s (fillDest o s) := by
  unfold fillDest
  split
  · exact setShelf_careful _ _ s
  · exact .refl s

omit ho in
theorem fillDest_only (o : Order) (s : State) : OnlyShelves s (fillDest o s) := by
  unfold fillDest
  split
  · exact setShelf_only _ _ s
  · exact .refl s

theorem serveDemand_careful (hs : o.state ≠ .suspended) : Careful A s (serveDemand h o s) := by
  refine .after (queueNotice_careful _ _) (leave_move_careful (g := id) ho (fun u => .refl u) (fun u => .refl u) rfl
    (fun _ => rfl) (fun x n => ?_))
  have : o.orphan = none := by
    unfold OrderTimed at x
    simpa [hs] using x
  simp [this]

theorem afterPlace_careful (hs : o.state ≠ .suspended) : Careful A s (afterPlace h o s) := by
  unfold afterPlace
  exact .ite _ (endOrder_careful rfl s) (.ite _ (serveDemand_careful ho hs) (endOrder_careful rfl s))

theorem placed_ordinary (hs : o.state ≠ .suspended) : Ordinary s (placed slot h s) := by
  unfold placed
  split
  · rename_i p hp
    rw [ho] at hp
    cases hp
    refine .after (surveyPlacement_ordinary _) (Careful.ordinary (.after (afterPlace_careful ?_ hs)
      (.after (updVehicle_careful (fun _ _ => .of_eq rfl rfl rfl rfl id id) (fun _ _ => id)) (fillDest_careful o s))))
    rw [updVehicle_ort, (fillDest_only o s).ort]
    exact ho
  · exact .refl s

/-- A placement that begins leaves the order PLACING. -/
theorem beginPlace_record (f : EndpointField) (ha : placeAt o f ≠ .other) :
    ∃ p, tblGet (beginPlace slot h o f s).ort.orders h = some p ∧ p.state = .placing := by
  unfold beginPlace
  split
  · exact ⟨_, (moveOrder_moved (by rw [(releaseInbound_only _ _ s).ort]; exact ho) _ _ _ _).record,
      by rw [enterState_state]⟩
  · exact ⟨_, (moveOrder_moved ho _ _ _ _).record, by rw [enterState_state]⟩
  · exact absurd ‹_› ha

theorem endPlace_ordinary (f : EndpointField) : Ordinary s (endPlace slot h o f s) := by
  have begun : o.state = .carrying → placeAt o f ≠ .other →
      Ordinary s (placed slot h (beginPlace slot h o f s)) := by
    intro hs ha
    obtain ⟨p, hp, e⟩ := beginPlace_record (slot := slot) ho f ha
    exact (beginPlace_ordinary ho hs f).trans (placed_ordinary hp (by simp [e]))
  unfold endPlace
  split
  · rename_i hs _
    exact placed_ordinary ho (by simp [hs])
  · exact discard_ordinary _ _ _ s
  · exact discard_ordinary _ _ _ s
  · exact discard_ordinary _ _ _ s
  · rename_i hs ha
    exact begun hs (by simp [ha])
  · rename_i hs ha
    exact begun hs (by simp [ha])
  · exact .refl s

end Order

theorem reportPickBegin_ordinary (slot h : Nat) (s : State) : Ordinary s (reportPickBegin slot h s) :=
  onActive_ordinary fun _ o _ ho _ => .ite
    (fun hs => (pickBegun_careful ho (by rcases hs with e | e <;> simp [e, OrderState.busy])).ordinary)
    (fun _ => .refl s)

theorem reportPickEnd_ordinary (slot : Nat) (r : PickEndRep) (s : State) : Ordinary s (reportPickEnd slot r s) :=
  onActive_ordinary fun _ o _ ho _ => .ite
    (fun hs => pickEnded_ordinary ho _ (by rcases hs with e | e | e <;> simp [e, OrderState.busy]))
    (fun _ => .refl s)

theorem reportPlaceBegin_ordinary (slot : Nat) (r : PlaceRep) (s : State) :
    Ordinary s (reportPlaceBegin slot r s) :=
  onActive_ordinary fun _ _ _ ho _ => .ite (fun hs => beginPlace_ordinary ho hs _) (fun _ => .refl s)

theorem reportPlaceEnd_ordinary (slot : Nat) (r : PlaceRep) (s : State) : Ordinary s (reportPlaceEnd slot r s) :=
  onActive_ordinary fun _ _ _ ho _ => endPlace_ordinary ho _

/-! ## ABORTED and ABORT_LATE (R57, R160) -/

theorem reportAborted_ordinary (slot h : Nat) (s : State) : Ordinary s (reportAborted slot h s) :=
  onActive_ordinary fun _ _ _ _ _ => .ite (fun _ => (endOrder_careful rfl s).ordinary)
    (fun _ => .ite (fun _ => (returnOrder_careful rfl s).ordinary) (fun _ => .refl s))

theorem reportAbortLate_ordinary (slot h : Nat) (s : State) : Ordinary s (reportAbortLate slot h s) :=
  onActive_ordinary fun _ o _ ho _ => .ite
    (fun hs => (pickBegun_careful ho (by rcases hs with e | ⟨e, -⟩ <;> simp [e, OrderState.busy])).ordinary)
    (fun _ => .refl s)

/-! ## FAULT and READY (R158, R161) -/

theorem faultActive_careful {A : Prop} (slot : Nat) (s : State) : Careful A s (faultActive slot s) := by
  unfold faultActive
  split
  · split
    · rename_i h o ha
      obtain ⟨ho, -⟩ := activeOrder_eq_some ha
      split
      case h_1 => exact requeueAbort_careful _ _ s
      case h_2 hs | h_3 hs | h_4 hs | h_5 hs =>
        exact carrierInvolved_careful _ fun _ => ⟨o, ho, by rw [hs]; exact ⟨rfl, by simp⟩⟩
      all_goals exact .refl s
    · exact .refl s
  · exact .refl s

theorem reportFault_ordinary (slot : Nat) (r : FaultRep) (s : State) : Ordinary s (reportFault slot r s) :=
  Careful.ordinary (.after (faultActive_careful _ _) (.after (recallStaged_careful _ _)
    (.after (raiseVehicle_careful _ _ _ _ _ _) (setFaultStall_careful _ _ _ s))))

theorem readySuspended_careful {A : Prop} (slot : Nat) (load : Load) (s : State) :
    Careful A s (readySuspended slot load s) := by
  unfold readySuspended
  split
  · split
    · rename_i h o ha
      obtain ⟨ho, -⟩ := activeOrder_eq_some ha
      split
      · exact .refl s
      · rename_i hs
        simp only [not_or, ne_eq, not_not] at hs
        split
        · refine .after (issueTo_careful _ _ _) (resumeOnReport_careful load fun _ => ⟨o, ho, ?_⟩)
          rw [hs.1]
          exact ⟨rfl, by simp⟩
        · exact .ite _ (.refl s) (mismatch_careful _ _ s)
    · exact .refl s
  · exact .refl s

theorem loadStored_careful {A : Prop} (slot : Nat) (load : Load) (s : State) :
    Careful A s (updVehicle slot (fun v => { v with load := load }) s) :=
  updVehicle_careful (fun _ _ => .of_eq rfl rfl rfl rfl id id) (fun _ _ => id)

theorem readySteps_careful {A : Prop} (slot : Nat) (load : Load) (s : State) :
    Careful A s (readySteps slot load s) := by
  unfold readySteps
  split
  · refine .after (readySuspended_careful _ _ _) ?_
    have recovered : Careful A s (updVehicle slot (fun v => { v with recovered := true }) s) :=
      updVehicle_careful (fun _ _ => .of_eq rfl rfl rfl rfl id id) (fun _ _ => id)
    split
    · exact recovered.trans (clearFaultStall_careful _ _)
    · exact recovered
  · exact .refl s

theorem reportReady_ordinary (slot : Nat) (load : Load) (s : State) : Ordinary s (reportReady slot load s) := by
  unfold reportReady
  split
  · refine Careful.ordinary (.ite _ (readySteps_careful _ _ s) (.ite _ ?_ ?_))
    · exact .after (recallStaged_careful _ _) (.after (strayLoad_careful _ _) (loadStored_careful _ _ s))
    · exact .after (readySteps_careful _ _ _) (loadStored_careful _ _ s)
  · exact .refl s

/-! ## Positions and places (R97, R112, R119 to R124) -/

theorem clampIncident_careful {A : Prop} (slot zone coord : Nat) (s : State) :
    Careful A s (clampIncident slot zone coord s) := by
  unfold clampIncident
  exact .ite _ (raiseVehicle_careful _ _ _ _ _ s) (.refl s)

theorem confirmInside_careful {A : Prop} (b slot : Nat) (s : State) : Careful A s (confirmInside b slot s) :=
  updBay_careful (fun _ => ⟨rfl, rfl, rfl, rfl⟩)
    (fun y hy => ⟨fun a ha => by
      obtain ⟨x, hx, rfl⟩ := List.mem_map.1 ha
      split
      · simp
      · exact hy.lapse x hx, hy.starve⟩)
    (fun y a ha => ⟨_, List.mem_map.2 ⟨a, ha, rfl⟩, by split <;> rfl⟩)

theorem admitPos_careful {A : Prop} (zone slot : Nat) (s : State) : Careful A s (admitPos zone slot s) := by
  unfold admitPos
  split
  · exact .refl s
  · split
    · exact .ite _ (.refl s) (confirmInside_careful _ _ s)
    · exact .after (raiseVehicle_careful _ _ _ _ _ _) (.after (enterInside_careful _ _ _)
        (.after (leaveQueues_careful _ _ _) (leaveBaysGranting_careful _ _ s)))

theorem reportPos_ordinary (slot : Nat) (r : PointRep) (s : State) : Ordinary s (reportPos slot r s) := by
  unfold reportPos
  refine .ite (fun _ => Careful.ordinary ?_) (fun _ => .refl s)
  exact .after (admitPos_careful _ _ _) (.after (clampIncident_careful _ _ _ _)
    (updVehicle_careful (fun _ _ => .of_eq rfl rfl rfl rfl id id) (fun _ _ => id)))

theorem mem_behindHot {q : List Waiting} {w : Waiting} (h : w ∈ behindHot q) : w ∈ q :=
  List.mem_reverse.1 (List.takeWhile_subset _ (List.mem_reverse.1 h))

theorem mem_joined {w x : Waiting} {q : List Waiting} (h : x ∈ joined w q) : x = w ∨ x ∈ q := by
  unfold joined at h
  split at h
  · rcases List.mem_append.1 h with h | h
    · exact .inr (List.mem_of_mem_take h)
    · rcases List.mem_cons.1 h with h | h
      · exact .inl h
      · exact .inr (mem_behindHot h)
  · rcases List.mem_append.1 h with h | h
    · exact .inr h
    · exact .inl (List.mem_singleton.1 h)

theorem joinQueue_careful {A : Prop} (b slot : Nat) (s : State) : Careful A s (joinQueue b slot s) :=
  updBay_careful (fun _ => ⟨rfl, rfl, rfl, rfl⟩)
    (fun y hy => ⟨hy.lapse, fun w hw => by
      rcases mem_joined hw with rfl | hw
      · simp
      · exact hy.starve w hw⟩)
    (fun _ a ha => ⟨a, ha, rfl⟩)

theorem impliedExit_careful {A : Prop} (bs : List Nat) (b slot : Nat) (s : State) :
    Careful A s (impliedExit bs b slot s) := by
  induction bs generalizing s with
  | nil => exact .refl s
  | cons a bs ih =>
    exact .after (ih _) (.ite _ (leaveBay_careful a slot s)
      ((leaveBay_careful a slot s).trans (grantQueue_careful _ _)))

theorem decideEntry_careful {A : Prop} (b slot : Nat) (s : State) : Careful A s (decideEntry b slot s) := by
  unfold decideEntry
  split
  · exact .ite _ (grantEntry_careful _ _ s) (joinQueue_careful _ _ s)
  · exact .refl s

theorem askEntry_ordinary (slot b : Nat) (s : State) : Ordinary s (askEntry slot b s) := by
  have decided : Careful True s (decideEntry b slot
      (leaveQueues (waitingBays s.bac slot) slot (impliedExit (admittedBays s.bac slot) b slot s))) :=
    .after (decideEntry_careful _ _ _) (.after (leaveQueues_careful _ _ _) (impliedExit_careful _ _ _ s))
  unfold askEntry
  refine Careful.ordinary (.ite _ (issueTo_careful _ _ s) (.ite _ (.refl s) ?_))
  split
  · exact decided.trans (grantQueue_careful _ _)
  · exact decided

theorem exitBay_ordinary (slot b : Nat) (s : State) : Ordinary s (exitBay slot b s) := by
  unfold exitBay
  split
  · exact Careful.ordinary ((leaveBay_careful _ _ s).trans (grantQueue_careful _ _))
  · exact (raiseVehicle_careful _ _ _ _ _ s).ordinary

/-! ## HELLO (R93 to R96) -/

theorem admitEnrolled_careful {A : Prop} (zone slot : Nat) (s : State) : Careful A s (admitEnrolled zone slot s) := by
  unfold admitEnrolled
  exact .ite _ (leaveBaysGranting_careful _ _ s) (.ite _ (.refl s)
    ((leaveBaysGranting_careful _ _ s).trans (enterInside_careful _ _ _)))

/-- An entry written where none stood is one more entry. -/
theorem tblSet_perm {α : Type} {x : Tbl α} {k : Nat} (hk : tblGet x k = none) (a : α) :
    (tblSet x k a).Perm ((k, a) :: x) := by
  induction x with
  | nil => exact .refl _
  | cons e x ih =>
    obtain ⟨j, w⟩ := e
    simp only [tblGet] at hk
    split at hk
    · cases hk
    · simp only [tblSet]
      split
      · exact .refl _
      · split
        · exact absurd (Eq.symm ‹k = j›) ‹¬j = k›
        · exact ((ih hk).cons _).trans (.swap _ _ _)

/-- A vehicle without work enters a free slot under a fleet id that no slot holds (R94). -/
theorem addVehicle_regular {slot f : Nat} {r : HelloRep} (hf : tblFree 64 s.vht.vehicles = some slot)
    (hi : slotOf s.vht f = none) : Regular s (addVehicle slot f r s) := by
  obtain ⟨hlt, hnone⟩ := tblFree_spec hf
  have get : ∀ k, tblGet (addVehicle slot f r s).vht.vehicles k =
      if k = slot then some (enrolledVehicle s f r) else tblGet s.vht.vehicles k := by
    intro k
    by_cases hk : k = slot
    · subst hk; simp [addVehicle]
    · simp [addVehicle, hk, tblGet_set_other _ _ hk]
  have empty : ∀ i, (enrolledVehicle s f r).layer i = .empty := by intro i; cases i <;> rfl
  have tables : TablesCanonical s → TablesCanonical (addVehicle slot f r s) := fun c =>
    { c with
      vehicles := ⟨tblWf_set c.vehicles.1 _ _, fun e he => by
        rcases mem_tblSet he with rfl | he
        · exact hlt
        · exact c.vehicles.2 e he⟩ }
  have fresh : ∀ e ∈ s.vht.vehicles, e.2.fleetId ≠ f := by
    intro e he hid
    unfold slotOf at hi
    simp only [Option.map_eq_none_iff, List.find?_eq_none] at hi
    exact hi e he (by simp [hid])
  have ids : (s.vht.vehicles.map (fun e => e.2.fleetId)).Nodup →
      ((addVehicle slot f r s).vht.vehicles.map (fun e => e.2.fleetId)).Nodup := by
    intro h
    refine (List.Perm.nodup_iff ((tblSet_perm hnone (enrolledVehicle s f r)).map _)).2 (List.nodup_cons.2 ⟨fun hm => ?_, h⟩)
    obtain ⟨e, he, hid⟩ := List.mem_map.1 hm
    exact fresh e he hid
  have fleet : FleetKept s (addVehicle slot f r s) := by
    intro a
    refine ⟨⟨fun k v hv => ?_, fun k v i h hv hh => ?_, a.places, fun h o k i ho hl => ?_⟩,
      fun x => ⟨fun k v hv => ?_, x.orders⟩⟩
    · rw [get] at hv
      split at hv
      · cases hv
        exact ⟨fun i _ _ e => by simp [empty] at e, fun i _ _ e => by simp [empty] at e, Nat.zero_le 3⟩
      · exact a.sound k v hv
    · rw [get] at hv
      split at hv
      · cases hv
        simp [empty] at hh
      · exact a.layers k v i h hv hh
    · obtain ⟨v, hv, hh⟩ := a.located h o k i ho hl
      have hk : k ≠ slot := by
        rintro rfl
        simp [hnone] at hv
      exact ⟨v, by rw [get, if_neg hk]; exact hv, hh⟩
    · rw [get] at hv
      split at hv
      · cases hv
        exact ⟨by simp only [empty]; simp [enrolledVehicle], by simp [enrolledVehicle]⟩
      · exact x.vehicles k v hv
  exact
    { lines := id
      settings := fun x => { x with }
      tables := fun c x => ⟨tables c, (fleet x.agreed).1.consistent (tables c) (ids x.distinctIds)⟩
      rescan := fun h => ⟨h.orders, h.rescan⟩
      yield := id
      rest := SurveyAtRest.of_eq rfl rfl
      timers := fun c x _ y => ((fleet x.agreed).2 y.fleetTimed).timersRun y.placesTimed (tables c) y.survey
      capture := .refl _
      layout := .of_eq rfl
      racks := rfl }

theorem enroll_ordinary {slot f : Nat} {r : HelloRep} (hf : tblFree 64 s.vht.vehicles = some slot)
    (hi : slotOf s.vht f = none) : Ordinary s (enroll slot f r s) := by
  unfold enroll
  refine Regular.setExam (.after (issue_careful _ _ _).toSound.regular ?_)
  have entered := Regular.after (vehicleNotice_careful slot .enrolled _).toSound.regular (.after
    (admitEnrolled_careful r.zone slot _).toSound.regular (.after
      (clampIncident_careful slot r.zone r.coord _).toSound.regular (addVehicle_regular (r := r) hf hi)))
  split
  · exact entered
  · exact entered.trans (strayLoad_careful _ _).toSound.regular

theorem reconcile_careful {A : Prop} (slot : Nat) (load : Load) (s : State) :
    Careful A s (reconcile slot load s) := by
  unfold reconcile
  split
  · split
    · rename_i h o ha
      obtain ⟨ho, -⟩ := activeOrder_eq_some ha
      split
      · exact .refl s
      · rename_i hs
        simp only [not_or, ne_eq, not_not] at hs
        refine .ite _ (resumeOnReport_careful load fun _ => ⟨o, ho, ?_⟩) (mismatch_careful _ _ s)
        rw [hs.1]
        exact ⟨rfl, by simp⟩
    · exact .ite _ (strayLoad_careful _ s) (.refl s)
  · exact .refl s

theorem settleActivity_sound {A : Prop} (slot : Nat) (s : State) : Sound A s (settleActivity slot s) :=
  updVehicle_sound fun v _ => by
    split
    · exact .of_eq rfl rfl rfl rfl id id
    · exact .of_eq rfl rfl rfl rfl id id

theorem reenroll_careful {A : Prop} (slot : Nat) (r : HelloRep) (s : State) : Careful A s (reenroll slot r s) := by
  have returned : Sound A s (returnVehicle slot r s) := updVehicle_sound fun v _ => .of_eq rfl rfl rfl rfl id
    fun _ => by simp
  exact Sound.setExam (.after (issueTo_careful _ _ _).toSound (.after (settleActivity_sound _ _) (.after
    (reconcile_careful _ _ _).toSound (.after (vehicleNotice_careful _ _ _).toSound (.after
      (admitEnrolled_careful _ _ _).toSound (.after (clampIncident_careful _ _ _ _).toSound returned))))))

theorem reportHello_ordinary (f : Nat) (r : HelloRep) (s : State) : Ordinary s (reportHello f r s) := by
  have answered : ∀ u : State, ∀ b, Ordinary u (issue f b u) := fun u b => (issue_careful _ _ u).ordinary
  unfold reportHello
  split
  · split
    · split
      · split
        · unfold helloKnown
          split
          · exact Careful.ordinary (.ite _ ((byeVehicle_careful _ s).trans (reenroll_careful _ _ _))
              (reenroll_careful _ _ s))
          · exact .refl s
        · unfold helloUnknown
          split
          · exact enroll_ordinary ‹_› ‹_›
          · exact answered s _
      · exact (fromVehicle_ordinary (fun _ _ s => .refl s) f () s).trans (answered _ _)
    · exact answered s _
  · exact .refl s

end Sys2Proof.Machine
end

section
/-! What a grant step keeps (R71 to R85). -/
namespace Sys2Proof.Machine

open Sys2Proof

variable {s t : State}

/-! ## The walk (R73) -/

/-- The walk stops at an order of the ranking that can be served. -/
theorem walk_servable {l : Tbl Order} {h : Nat} {o : Order} {g : Grant} (e : (walk s l).2 = some (h, o, g)) :
    (h, o) ∈ l ∧ evaluate s o = .servable g := by
  induction l with
  | nil => cases e
  | cons x l ih =>
    obtain ⟨k, q⟩ := x
    simp only [walk] at e
    split at e
    · rename_i hq
      cases e
      exact ⟨List.mem_cons_self, hq⟩
    · exact ⟨List.mem_cons_of_mem _ (ih e).1, (ih e).2⟩

theorem mem_rankedOrders {h : Nat} {o : Order} : (h, o) ∈ rankedOrders s ↔ (h, o) ∈ s.ort.orders ∧ o.state = .queued := by
  simp [rankedOrders, mem_sortBy]

/-- An evaluation hands over a candidate of the order (R75, R78). -/
theorem candidate_of_servable {o : Order} {g : Grant} (e : evaluate s o = .servable g) : g.cand ∈ candidates s o := by
  have chosen : ∀ f, chooseVehicle s o f (candidates s o) = .servable g → g.cand ∈ candidates s o := by
    intro f hc
    unfold chooseVehicle at hc
    split at hc
    · rename_i c hb
      cases hc
      exact (List.mem_filter.1 (bestBy_mem _ hb)).1
    · cases hc
  unfold evaluate at e
  split at e
  · cases e
  · split at e
    · cases e
    · split at e
      · cases e
      · exact chosen _ e
      · exact chosen _ e

/-! ## The layer of a grant (R30, R80, R82) -/

/-- A vehicle whose layer `i` may take a STAGED order. -/
structure LayerFree (v : Vehicle) (i : LayerId) : Prop where
  empty : v.layer i = .empty
  other : ∀ h, v.layer i.other ≠ .staged h

/-- A vehicle that R30 lets be filled has its grant layer free. -/
theorem layerFree_of_fillable {v : Vehicle} {slot : Nat} (x : VehicleSound v) (hf : fillable s v = true) :
    LayerFree v (grantLayer ⟨slot, v, none⟩) := by
  have both : v.bothEmpty = true → ∀ i, v.layer i = .empty := by
    intro hb i
    simp only [Vehicle.bothEmpty, Bool.and_eq_true, decide_eq_true_eq] at hb
    cases i
    · exact hb.1
    · exact hb.2
  simp only [fillable, Bool.or_eq_true, Bool.and_eq_true, Option.isNone_iff_eq_none] at hf
  rcases hf with ⟨hb, -⟩ | ⟨⟨-, hd⟩, hn⟩
  · exact ⟨both hb _, fun h => by simp [both hb]⟩
  · have noStaged := stagedLayer_eq_none_iff.1 hn
    unfold delivers activeOrder at hd
    cases ha : v.activeLayer with
    | none => simp [ha] at hd
    | some a =>
      obtain ⟨h, i⟩ := a
      have act := layer_of_activeLayer ha
      have e : grantLayer ⟨slot, v, none⟩ = i.other := by simp [grantLayer, ha]
      rw [e]
      refine ⟨?_, fun g => by rw [LayerId.other_other, act]; simp⟩
      cases hl : v.layer i.other with
      | empty => rfl
      | staged g => exact absurd hl (noStaged _ _)
      | active g => exact absurd hl (x.oneActive i h g act)

/-- A displacement's vehicle, once its STAGED order has been recalled, has that layer free (R80, R81). -/
theorem layerFree_leftVehicle {v : Vehicle} {i : LayerId} {h now tTake : Nat} (x : VehicleSound v)
    (hs : v.layer i = .staged h) : LayerFree (leftVehicle now tTake i v) i :=
  ⟨leftVehicle_layer _ _ _ _, fun g => by rw [leftVehicle_layer_other]; exact x.oneStaged i h g hs⟩

theorem stagedVehicle_layer (now tTake h : Nat) (i : LayerId) (v : Vehicle) :
    (stagedVehicle now tTake h i v).layer i = .staged h ∧
      (stagedVehicle now tTake h i v).layer i.other = v.layer i.other := by
  cases i <;> exact ⟨rfl, rfl⟩

theorem stagedVehicle_kept (now tTake h : Nat) (i : LayerId) (v : Vehicle) :
    (stagedVehicle now tTake h i v).fleetId = v.fleetId ∧ (stagedVehicle now tTake h i v).noTakes = v.noTakes ∧
      (stagedVehicle now tTake h i v).silence = v.silence ∧ (stagedVehicle now tTake h i v).link = v.link := by
  cases i <;> exact ⟨rfl, rfl, rfl, rfl⟩

section Staged

variable {now tTake h : Nat} {i : LayerId} {v : Vehicle}

theorem stagedVehicle_steady : VehicleSteady v (stagedVehicle now tTake h i v) := by
  obtain ⟨l1, l2⟩ := stagedVehicle_layer now tTake h i v
  obtain ⟨k1, k2, -⟩ := stagedVehicle_kept now tTake h i v
  refine ⟨k1, fun x => by rw [k2]; exact x, fun a b ha hb => ?_⟩
  cases i
  · exact absurd (l1.symm.trans ha) (by simp)
  · exact absurd (l1.symm.trans hb) (by simp)

theorem stagedVehicle_sound (f : LayerFree v i) (x : VehicleSound v) : VehicleSound (stagedVehicle now tTake h i v) := by
  obtain ⟨l1, l2⟩ := stagedVehicle_layer now tTake h i v
  refine ⟨fun j a b ha hb => ?_, fun j a b ha hb => ?_, ?_⟩
  · rcases LayerId.eq_or_other i j with rfl | rfl
    · rw [l1] at ha
      cases ha
    · rw [LayerId.other_other, l1] at hb
      cases hb
  · rcases LayerId.eq_or_other i j with rfl | rfl
    · rw [l2] at hb
      exact f.other _ hb
    · rw [l2] at ha
      exact f.other _ ha
  · rw [(stagedVehicle_kept now tTake h i v).2.1]
    exact x.noTakes

theorem stagedVehicle_timed (f : LayerFree v i) (x : VehicleTimed v) :
    VehicleTimed (stagedVehicle now tTake h i v) where
  take := by
    obtain ⟨l1, l2⟩ := stagedVehicle_layer now tTake h i v
    have timer : (stagedVehicle now tTake h i v).takeTimer =
        if v.activeLayer.isNone then some (startTimer now tTake) else v.takeTimer := by cases i <;> rfl
    rw [takeCondition_iff i, l1, l2, timer]
    cases ha : v.activeLayer with
    | none =>
      have none := activeLayer_eq_none_iff.1 ha
      simpa using none i.other
    | some a =>
      obtain ⟨g, j⟩ := a
      have act := layer_of_activeLayer ha
      have hj : j = i.other := by
        rcases LayerId.eq_or_other i j with rfl | e
        · rw [f.empty] at act
          cases act
        · exact e
      have no : v.takeTimer.isSome ≠ true := fun e => (x.take.1 e).2 _ _ act
      subst hj
      simpa [act] using no
  silence := by
    obtain ⟨-, -, k3, k4⟩ := stagedVehicle_kept now tTake h i v
    rw [k3, k4]
    exact x.silence

end Staged

/-! ## The staging of an order (R81 to R85) -/

theorem claimFound_careful {A : Prop} (h : Nat) (o : Order) (f : ShelfFind) (s : State) :
    Careful A s (claimFound h o f s) := by
  unfold claimFound
  split
  · exact .ite _ (setShelf_careful _ _ s) (setShelf_careful _ _ s)
  · exact .refl s
  · exact .refl s

theorem claimFound_only (h : Nat) (o : Order) (f : ShelfFind) (s : State) : OnlyShelves s (claimFound h o f s) := by
  unfold claimFound
  split
  · split <;> exact setShelf_only _ _ s
  · exact .refl s
  · exact .refl s

/-- A QUEUED order written into a free layer of a vehicle. -/
theorem stage_sound {A : Prop} {h slot tTake now : Nat} {i : LayerId} {f : Order → Order}
    (hf : ∀ q, (f q).loc = some (slot, i) ∧ (f q).orphan = q.orphan)
    (hr : A → Agreed s → ∃ o v, tblGet s.ort.orders h = some o ∧ o.state = .queued ∧
      tblGet s.vht.vehicles slot = some v ∧ LayerFree v i) :
    Sound A s (updVehicle slot (stagedVehicle now tTake h i) (moveOrder h f .assigned .none none s)) := by
  refine ⟨(moveOrder_steady _ _ _ _ _ s).trans (updVehicle_steady fun _ _ => stagedVehicle_steady), fun x a => ?_,
    fun hp => ?_⟩
  · obtain ⟨o, v, ho, hs, hv, free⟩ := hr x a
    have m := moveOrder_moved ho f .assigned .none none
    refine LayerFilled.fleetKept
      { order := ho
        record := by rw [updVehicle_ort]; exact m.record
        others := fun k hk => by rw [updVehicle_ort]; exact m.others k hk
        vehicle := hv
        filled := by rw [updVehicle_get, if_pos rfl, m.vht, hv]; rfl
        rest := fun k hk => by rw [updVehicle_get, if_neg hk, m.vht]
        holds := .inl (stagedVehicle_layer _ _ _ _ _).1
        other := (stagedVehicle_layer _ _ _ _ _).2
        was := .inl ⟨free.empty, by simp [hs, OrderState.onVehicle]⟩
        loc := by simp [enterState, (hf _).1]
        state := by simp [enterState_state, OrderState.onVehicle]
        assigned := by simp [enterState_state, (stagedVehicle_layer _ _ _ _ _).1]
        sound := stagedVehicle_sound free
        timed := stagedVehicle_timed free
        orphan := fun y => by simpa [OrderTimed, enterState, hs, (hf _).2] using y } a
  · unfold PlacesTimed at hp ⊢
    rw [updVehicle_bac]
    cases ho : tblGet s.ort.orders h with
    | none => simpa [moveOrder, ho] using hp
    | some o =>
      rw [(moveOrder_moved ho f .assigned .none none).bac]
      exact hp

/-- What setting the wait reasons does to an order's record (R79). -/
theorem setWaits_record (l : List (Nat × WaitReason)) (s : State) {h : Nat} {o : Order}
    (ho : tblGet s.ort.orders h = some o) :
    ∃ p, tblGet (setWaits l s).ort.orders h = some p ∧ p.state = o.state := by
  induction l generalizing s o with
  | nil => exact ⟨o, ho, rfl⟩
  | cons e l ih =>
    obtain ⟨k, r⟩ := e
    by_cases hk : h = k
    · subst hk
      obtain ⟨p, hp, e⟩ := ih (updOrder h (fun o => { o with waitReason := some r }) s) (updOrder_record ho)
      exact ⟨p, hp, e⟩
    · refine ih (updOrder k (fun o => { o with waitReason := some r }) s) ?_
      unfold updOrder
      split
      · rw [putOrder_others _ _ _ _ hk]
        exact ho
      · exact ho

theorem setWaits_vht (l : List (Nat × WaitReason)) (s : State) : (setWaits l s).vht = s.vht := by
  induction l generalizing s with
  | nil => rfl
  | cons e l ih =>
    obtain ⟨k, r⟩ := e
    refine (ih _).trans ?_
    unfold updOrder
    split <;> rfl

theorem setWaits_careful {A : Prop} (l : List (Nat × WaitReason)) (s : State) : Careful A s (setWaits l s) := by
  induction l generalizing s with
  | nil => exact .refl s
  | cons e l ih =>
    obtain ⟨k, r⟩ := e
    exact .after (ih _) (updOrder_kept_careful (fun _ => rfl) (fun _ => rfl) (fun _ => rfl))

/-- The flag cleared as a grant step begins (R71). -/
theorem clearExam_sound {A : Prop} (s : State) : Sound A s { s with asa := { s.asa with examPending := false } } :=
  ⟨{ Steady.refl s with framed := { Framed.refl s with asa := rfl }, yield := id, rescan := fun h => ⟨h.orders, h.rescan⟩ },
    fun _ => .of_eq rfl rfl, id⟩

/-- Once a displaced order has been recalled, the layer of the grant is free and the granted order still QUEUED. -/
theorem recalled_free {h : Nat} {o q : Order} {g : Grant} {v : Vehicle} {u : State} (a : Agreed u)
    (hv : tblGet u.vht.vehicles g.cand.slot = some v) (hc : candidateOf s o g.cand.slot v = some g.cand)
    (hq : tblGet u.ort.orders h = some q) (hs : q.state = .queued) :
    ∃ p w, tblGet (if g.cand.displaces.isSome then recallStaged g.cand.slot u else u).ort.orders h = some p ∧
      p.state = .queued ∧
      tblGet (if g.cand.displaces.isSome then recallStaged g.cand.slot u else u).vht.vehicles g.cand.slot = some w ∧
      LayerFree w (grantLayer g.cand) := by
  have sound := a.sound _ _ hv
  unfold candidateOf at hc
  split at hc
  · rename_i hsc
    simp only [screened, Bool.and_eq_true] at hsc
    have e := (Option.some.inj hc).symm
    have d : g.cand.displaces = none := by rw [e]
    simp only [d, Option.isSome_none, Bool.false_eq_true, if_false]
    refine ⟨q, v, hq, hs, hv, ?_⟩
    rw [e]
    exact layerFree_of_fillable sound hsc.1.2
  · split at hc
    · split at hc
      · rename_i k i hd
        split at hc
        · have e := (Option.some.inj hc).symm
          have d : g.cand.displaces = some i := by rw [e]
          have staged : v.stagedLayer = some (k, i) := by
            unfold displaceable at hd
            split at hd
            · split at hd
              · split at hd
                · cases hd
                · rw [‹v.stagedLayer = _›]
                  exact hd
              · cases hd
            · cases hd
          have hl := layer_of_stagedLayer staged
          obtain ⟨p, hp, hloc, hst⟩ := a.staged_order hv hl
          have told := issueTo_told g.cand.slot (.recall k i) u
          have back := returnOrder_returned (s := issueTo g.cand.slot (.recall k i) u) (h := k) (o := p)
            (by rw [told.ort]; exact hp) (by simp [hst]) .queued
          have hk : h ≠ k := by
            rintro rfl
            rw [hq] at hp
            cases hp
            simp [hs] at hst
          simp only [d, Option.isSome_some, if_true, recallStaged, hv, staged]
          refine ⟨q, leftVehicle (issueTo g.cand.slot (.recall k i) u).now
            (issueTo g.cand.slot (.recall k i) u).vht.tTake i v, ?_, hs, ?_, ?_⟩
          · rw [back.others h hk, told.ort]
            exact hq
          · rw [back.vehicles g.cand.slot, told.vht, hv, hloc]
            simp
          · have : grantLayer g.cand = i := by simp [grantLayer, d]
            rw [this]
            exact layerFree_leftVehicle sound hl
        · cases hc
      · cases hc
    · cases hc

theorem recallIf_sound {A : Prop} (b : Bool) (slot : Nat) (s : State) :
    Careful A s (if b then recallStaged slot s else s) := by
  split
  · exact recallStaged_careful slot s
  · exact .refl s

theorem sendStage_told (h : Nat) (g : Grant) (o : Order) (s : State) : OnlyTold s (sendStage h g o s) :=
  issueTo_told _ _ s

/-- The staging of the order a walk has chosen. -/
theorem stageOrder_regular {A : Prop} {h : Nat} {o : Order} {g : Grant} {u : State}
    (hr : A → Agreed u → ∃ q v, tblGet u.ort.orders h = some q ∧ q.state = .queued ∧
      tblGet u.vht.vehicles g.cand.slot = some v ∧ candidateOf s o g.cand.slot v = some g.cand) :
    Careful A u (stageOrder h o g u) := by
  have recalled := recallIf_sound (A := A) g.cand.displaces.isSome g.cand.slot u
  have ready : A → Agreed u → ∃ p w,
      tblGet (if g.cand.displaces.isSome then recallStaged g.cand.slot u else u).ort.orders h = some p ∧
      p.state = .queued ∧
      tblGet (if g.cand.displaces.isSome then recallStaged g.cand.slot u else u).vht.vehicles g.cand.slot = some w ∧
      LayerFree w (grantLayer g.cand) := fun x a => by
    obtain ⟨q, v, hq, hs, hv, hc⟩ := hr x a
    exact recalled_free a hv hc hq hs
  unfold stageOrder
  generalize (if g.cand.displaces.isSome then recallStaged g.cand.slot u else u) = w at *
  have claimed := claimFound_careful (A := A ∧ Agreed u) h o g.shelf w
  have only := claimFound_only h o g.shelf w
  generalize claimFound h o g.shelf w = x at *
  have staged : Sound (A ∧ Agreed u) u (sendStage h g o (updVehicle g.cand.slot
      (stagedVehicle u.now u.vht.tTake h (grantLayer g.cand)) (moveOrder h (stagedRecord u g) .assigned .none none x))) := by
    refine .after (OnlyTold.careful (sendStage_told h g o _) (issueTo_steady _ _ _)).toSound (.after (stage_sound
      (fun q => ⟨rfl, rfl⟩) fun y _ => ?_) (.after claimed.toSound
        { recalled.toSound with fleet := fun y => recalled.fleet y.1 }))
    obtain ⟨p, v, hp, hs, hv, free⟩ := ready y.1 y.2
    exact ⟨p, v, by rw [only.ort]; exact hp, hs, by rw [only.eq]; exact hv, free⟩
  exact Careful.of_agreed (Sound.setExam staged)

/-- A grant step keeps what every command keeps, and sets the flag again where it serves an order. -/
theorem grantStep_regular (s : State) :
    Regular s (grantStep s) ∧ ((grantStep s).asa.examPending = true ∨ Unflagged s (grantStep s)) := by
  have cleared := clearExam_sound (A := TablesCanonical s) s
  have waits := setWaits_careful (A := TablesCanonical s) (walk s (rankedOrders s)).1
    { s with asa := { s.asa with examPending := false } }
  unfold grantStep
  cases hw : (walk s (rankedOrders s)).2 with
  | none =>
    refine ⟨(cleared.trans waits.toSound).regular_of_tables, waits.flag.flagged.imp_right fun u => ?_⟩
    exact Unflagged.trans (t := { s with asa := { s.asa with examPending := false } }) rfl (.of_eq rfl rfl rfl rfl) u
  | some x =>
    obtain ⟨h, o, g⟩ := x
    obtain ⟨hm, he⟩ := walk_servable hw
    obtain ⟨ho, hs⟩ := mem_rankedOrders.1 hm
    refine ⟨Sound.regular_of_tables (.after (stageOrder_regular (s := s) ?_).toSound
      (cleared.trans waits.toSound)), .inl rfl⟩
    intro c _
    obtain ⟨p, hp, e⟩ := setWaits_record (walk s (rankedOrders s)).1
      { s with asa := { s.asa with examPending := false } } (tblGet_of_mem c.orders.1 ho)
    obtain ⟨⟨k, v⟩, hv, hc⟩ := List.mem_filterMap.1 (candidate_of_servable he)
    have slot : g.cand.slot = k := by
      unfold candidateOf at hc
      split at hc
      · exact congrArg Candidate.slot (Option.some.inj hc).symm
      · split at hc
        · split at hc
          · split at hc
            · exact congrArg Candidate.slot (Option.some.inj hc).symm
            · cases hc
          · cases hc
        · cases hc
    subst slot
    refine ⟨p, v, hp, e.trans hs, ?_, hc⟩
    rw [setWaits_vht]
    exact tblGet_of_mem c.vehicles.1 hv

end Sys2Proof.Machine
end

section
/-! Every row of the command table: what it keeps, row by row. -/
namespace Sys2Proof.Machine

open Sys2Proof

variable {s t : State}

/-! ## The ordinary rows -/

/-- The rows that empty tables, load a layout, clear the capture or take the examination-pending flag down. -/
def exceptionalRows : List Instr :=
  [.powerOnReset, .captureClear, .restartEffect, .layoutOpen, .loopDef, .bayDef, .portDef, .layoutClose, .grantStep]

theorem restartAct_ordinary (r : Unit) (s : State) : Ordinary s (restartAct r s).state :=
  ordinary_of_lines rfl fun x => { x with }

theorem takeOrderRequest_ordinary {α : Type} {kind : Nat} {form : List Byte → Option α} {ref : α → OrderRef}
    {act : α → Order → State → Answered}
    (h : ∀ r s o, tblGet s.ort.orders (ref r).handle = some o → Ordinary s (act r o s).state) (s : State) :
    Ordinary s (takeRequest kind form (whenRunning (fun r => onOrder (ref r) (act r))) s) :=
  takeRequest_ordinary (whenRunning_ordinary fun r u _ => onOrder_ordinary fun o ho => h r u o ho) s

theorem takeVehicleRequest_ordinary {α : Type} {kind : Nat} {form : List Byte → Option α} {ref : α → Nat}
    {act : α → Nat → Vehicle → State → Answered}
    (h : ∀ r s slot v, tblGet s.vht.vehicles slot = some v → Ordinary s (act r slot v s).state) (s : State) :
    Ordinary s (takeRequest kind form (whenRunning (fun r => onVehicle (ref r) (act r))) s) :=
  takeRequest_ordinary (whenRunning_ordinary fun r u _ => onVehicle_ordinary fun slot v hv => h r u slot v hv) s

/-- A request that is taken in RUNNING keeps what its rule keeps. -/
theorem takeRunning_ordinary {α : Type} {kind : Nat} {form : List Byte → Option α} {act : α → State → Answered}
    (h : ∀ r s, Ordinary s (act r s).state) (s : State) :
    Ordinary s (takeRequest kind form (whenRunning act) s) :=
  takeRequest_ordinary (whenRunning_ordinary fun r u _ => h r u) s

theorem execTriggerBFire_ordinary (e : execTriggerBFire s = .next t) : Ordinary s t := by
  unfold execTriggerBFire at e
  split at e
  · cases e
    have zero : SurveyKept (s.lyt.opState = .running) s.iss { s.iss with stepCount := 0 } :=
      ⟨fun ⟨a, b, c, d, _⟩ => ⟨a, b, c, d, c⟩, id, fun _ => id, .inr id⟩
    exact ordinary_of_survey (zero.trans (fireTrigger_kept _ _))
  · split at e <;> cases e
    · exact takeReport_ordinary reportPlaceEnd_ordinary s
    · exact .refl s

/-- What every row keeps but the exceptional ones. -/
theorem exec_ordinary {c : Instr} (hc : c ∉ exceptionalRows) (e : exec c s = .next t) : Ordinary s t := by
  cases c with
  | powerOnReset | captureClear | restartEffect | layoutOpen | loopDef | bayDef | portDef | layoutClose | grantStep =>
    simp [exceptionalRows] at hc
  | gwrdyFall => exact execGwrdyFall_ordinary e
  | gwrdyRise => exact execGwrdyRise_ordinary e
  | hostFrameReceived bytes => exact execHostFrameReceived_ordinary e
  | busyMarkReply => exact execBusyMarkReply_ordinary e
  | badKind => exact execBadKind_ordinary e
  | replyTransmit => exact execReplyTransmit_ordinary e
  | noticeTransmit => exact execNoticeTransmit_ordinary e
  | layoutLock => cases e; exact takeRequest_ordinary (whenRunning_ordinary lockLayout_ordinary) s
  | portState => cases e; exact takeRunning_ordinary setPort_ordinary s
  | bayTune => cases e; exact takeRunning_ordinary bayTune_ordinary s
  | reserveSet => cases e; exact takeRunning_ordinary setReserve_ordinary s
  | classWeights => cases e; exact takeRunning_ordinary setWeights_ordinary s
  | timingSet => cases e; exact takeRunning_ordinary setTimings_ordinary s
  | incidentRoute => cases e; exact takeRunning_ordinary setRoutes_ordinary s
  | intakeGate => cases e; exact takeRunning_ordinary setGate_ordinary s
  | orderPlace => cases e; exact takeRunning_ordinary placeOrder_ordinary s
  | orderHold => cases e; exact takeOrderRequest_ordinary (fun _ _ _ ho => holdOrder_ordinary ho) s
  | orderRelease => cases e; exact takeOrderRequest_ordinary (fun _ _ _ ho => releaseOrder_ordinary ho) s
  | orderCancel => cases e; exact takeOrderRequest_ordinary (fun _ _ _ ho => cancelOrder_ordinary ho) s
  | orderRetarget => cases e; exact takeOrderRequest_ordinary (fun _ _ _ ho => retargetOrder_ordinary ho _) s
  | orderResource => cases e; exact takeOrderRequest_ordinary (fun _ _ _ ho => sourceAt_ordinary ho _) s
  | orderQuery => cases e; exact takeOrderRequest_ordinary (fun _ u _ _ => .refl u) s
  | orderClear => cases e; exact takeOrderRequest_ordinary (fun _ _ _ ho => clearOrder_ordinary ho) s
  | demandAck => cases e; exact takeOrderRequest_ordinary (fun _ _ _ ho => ackDemand_ordinary ho _) s
  | demandDrop => cases e; exact takeOrderRequest_ordinary (fun _ _ _ _ => dropDemand_ordinary) s
  | batchQuery => cases e; exact takeRunning_ordinary queryBatch_ordinary s
  | vehicleStall => cases e; exact takeVehicleRequest_ordinary (fun _ _ _ _ _ => stallVehicle_ordinary) s
  | vehicleUnstall => cases e; exact takeVehicleRequest_ordinary (fun _ _ _ _ _ => unstallVehicle_ordinary) s
  | vehicleClearfault => cases e; exact takeVehicleRequest_ordinary (fun _ _ _ _ _ => clearFault_ordinary) s
  | vehicleAutorelease => cases e; exact takeRunning_ordinary autoRelease_ordinary s
  | vehicleGroups => cases e; exact takeVehicleRequest_ordinary (fun _ _ _ _ _ => setGroups_ordinary _) s
  | vehicleQuery => cases e; exact takeRunning_ordinary queryVehicle_ordinary s
  | vehicleRetire => cases e; exact takeVehicleRequest_ordinary (fun _ _ _ _ hv => retireVehicle_ordinary hv) s
  | shelfSet => cases e; exact takeRunning_ordinary declareShelf_ordinary s
  | shelfQuery => cases e; exact takeRunning_ordinary queryShelf_ordinary s
  | surveySetup => cases e; exact takeRunning_ordinary setupSurvey_ordinary s
  | surveyStart => cases e; exact takeRequest_ordinary (whenRunning_ordinary startSurvey_ordinary) s
  | surveyStop => cases e; exact takeRunning_ordinary stopSurvey_ordinary s
  | status => cases e; exact takeRequest_ordinary (fun _ u => .refl u) s
  | restart => cases e; exact takeRunning_ordinary restartAct_ordinary s
  | captureRead => cases e; exact takeRequest_ordinary (fun _ u => .refl u) s
  | fleetFrameReceived bytes => exact execFleetFrameReceived_ordinary e
  | fleetFrameDrop => exact execFleetFrameDrop_ordinary e
  | fleetCommandTransmit => exact execFleetCommandTransmit_ordinary e
  | hello => cases e; exact takeFleet_ordinary reportHello_ordinary s
  | pos => cases e; exact takeReport_ordinary reportPos_ordinary s
  | taken => cases e; exact takeReport_ordinary reportTaken_ordinary s
  | pickBegin => cases e; exact takeReport_ordinary reportPickBegin_ordinary s
  | pickEnd => cases e; exact takeReport_ordinary reportPickEnd_ordinary s
  | placeBegin => cases e; exact takeReport_ordinary reportPlaceBegin_ordinary s
  | placeEnd => cases e; exact takeReport_ordinary reportPlaceEnd_ordinary s
  | triggerBFire => exact execTriggerBFire_ordinary e
  | batchDone tag => cases e; exact (closeBatch_careful tag s).ordinary
  | aborted => cases e; exact takeReport_ordinary reportAborted_ordinary s
  | abortLate => cases e; exact takeReport_ordinary reportAbortLate_ordinary s
  | fault => cases e; exact takeReport_ordinary reportFault_ordinary s
  | ready => cases e; exact takeReport_ordinary reportReady_ordinary s
  | entryAsk => cases e; exact takeReport_ordinary askEntry_ordinary s
  | exit => cases e; exact takeReport_ordinary exitBay_ordinary s
  | arrived => cases e; exact takeReport_ordinary (fun slot _ u => (endReposition_careful slot u).ordinary) s
  | bye => cases e; exact takeReport_ordinary (fun slot _ u => (byeVehicle_careful slot u).ordinary) s
  | rescanTimerExpiry => exact execRescanTimerExpiry_ordinary e
  | takeTimerExpiry slot => exact execTakeTimerExpiry_ordinary e
  | noTakeLimit slot => exact execNoTakeLimit_ordinary e
  | silenceTimerExpiry slot => exact execSilenceTimerExpiry_ordinary e
  | parkStep slot => exact execParkStep_ordinary e
  | dormantStep slot => exact execDormantStep_ordinary e
  | lapseTimerExpiry bay slot => exact execLapseTimerExpiry_ordinary e
  | yieldTimerExpiry bay => exact execYieldTimerExpiry_ordinary e
  | starvationTimerExpiry bay slot => exact execStarvationTimerExpiry_ordinary e
  | surveyTimerExpiry => exact execSurveyTimerExpiry_ordinary e
  | surveyBayStep => exact execSurveyBayStep_ordinary e
  | orphanTimerExpiry handle => exact execOrphanTimerExpiry_ordinary e

/-! ## Tables emptied (R11, R13, R181) -/

/-- Orders, vehicles and places emptied, with every timer stopped; what is left is within its bounds. -/
structure Cleared (s t : State) : Prop where
  orders : t.ort.orders = []
  vehicles : t.vht.vehicles = []
  rescan : t.asa.rescan = none
  bays : ∀ e ∈ t.bac.bays, e.2.admitted = [] ∧ e.2.queue = [] ∧ e.2.yield = none
  idle : t.iss.state = .idle
  lines : LinesBounded s.liu → LinesBounded t.liu
  settings : SettingsInRange s → SettingsInRange t
  tables : TablesCanonical s → TablesCanonical t
  rest : SurveyAtRest s → SurveyAtRest t

theorem Cleared.kept (h : Cleared s t) : Kept s t where
  lines := h.lines
  settings := h.settings
  tables := fun c _ => ⟨h.tables c, by
    constructor <;> simp [h.orders, h.vehicles]⟩
  rescan := fun _ => ⟨by rw [h.orders]; rfl, by simp [h.rescan, h.orders]⟩
  yield := fun _ e he => by
    obtain ⟨-, hq, hy⟩ := h.bays e he
    simp [hq, hy]
  rest := h.rest
  timers := fun _ _ r _ => by
    refine ⟨by simp [h.vehicles], by simp [h.vehicles], by simp [h.orders], fun e he a ha => ?_, fun e he w hw => ?_, ?_⟩
    · rw [(h.bays e he).1] at ha
      cases ha
    · rw [(h.bays e he).2.1] at hw
      cases hw
    · have := ((h.rest r).idle h.idle).1
      simp [this, h.idle]

/-! ## The records of a layout load (R5 to R13) -/

/-- What the layout records and the effect of a RESTART keep. -/
structure Lasting (s t : State) : Prop extends Kept s t where
  capture : captureGrows s.fcr t.fcr
  layout : LayoutStays s t

theorem Lasting.refl (s : State) : Lasting s s := ⟨.refl s, .refl _, .of_eq rfl⟩

theorem Lasting.trans {u : State} (h : Lasting s t) (k : Lasting t u) : Lasting s u :=
  ⟨h.toKept.trans k.toKept, h.capture.trans k.capture, h.layout.trans k.layout⟩

theorem Ordinary.lasting (h : Ordinary s t) : Lasting s t := ⟨h.toKept, h.capture, h.layout⟩

theorem Regular.lasting (h : Regular s t) : Lasting s t := ⟨h.toKept, h.capture, h.layout⟩

/-- What holds of a head that leaves, of a rule's act and of a reply that is placed holds of a request. -/
theorem takeRequest_induct {R : State → State → Prop} (refl : ∀ s, R s s)
    (trans : ∀ s t u, R s t → R t u → R s u) (pop : ∀ s, R s (popHost s)) (reply : ∀ r s, R s (placeReply r s))
    {α : Type} {kind : Nat} {form : List Byte → Option α} {act : α → State → Answered}
    (h : ∀ r s, R s (act r s).state) (s : State) : R s (takeRequest kind form act s) := by
  rcases takeRequest_cases kind form act s with e | ⟨tag, e⟩ | ⟨tag, r, e⟩ <;> rw [e]
  · exact refl s
  · exact trans _ _ _ (pop s) (reply _ _)
  · exact trans _ _ _ (trans _ _ _ (pop s) (h r _)) (reply _ _)

theorem takeRequest_lasting {α : Type} {kind : Nat} {form : List Byte → Option α} {act : α → State → Answered}
    (h : ∀ r s, Lasting s (act r s).state) (s : State) : Lasting s (takeRequest kind form act s) :=
  takeRequest_induct (R := Lasting) .refl (fun _ _ _ => Lasting.trans) (fun s => (popHost_ordinary s).lasting)
    (fun r s => (placeReply_ordinary r s).lasting) h s

/-- A layout written while no layout is in RUNNING. -/
theorem layout_lasting {l : Layout} (hs : s.lyt.opState ≠ .running)
    (wf : tblWf s.lyt.bays = true ∧ tblWf s.lyt.ports = true → tblWf l.bays = true ∧ tblWf l.ports = true) :
    Lasting s { s with lyt := l } where
  toKept := TablesSame.kept ⟨rfl, rfl, rfl, rfl, rfl, rfl, id⟩ wf id (fun x => { x with })
    (fun x => ⟨x.idle, fun _ => x.outside hs⟩) (fun _ => id)
  capture := .refl _
  layout := fun _ hr => absurd hr hs

theorem abandonLoad_lasting (hs : s.lyt.opState ≠ .running) : Lasting s (abandonLoad s).state :=
  layout_lasting hs fun _ => ⟨rfl, rfl⟩

/-- A load opened in RUNNING empties what depends on the layout (R13). -/
theorem reopened_lasting (hl : s.lyt.lock ≠ true) (r : LayoutOpenReq) :
    Lasting s { emptiedForLoad s with lyt := openedLayout s.lyt r } where
  toKept := Cleared.kept
    { orders := rfl
      vehicles := rfl
      rescan := rfl
      bays := fun e he => by cases he
      idle := rfl
      lines := id
      settings := fun x => { x with
        bays := fun e he => by cases he
        reserves := fun e he => by cases he
        survey := x.survey }
      tables := fun c =>
        { c with
          orders := ⟨rfl, fun e he => by cases he⟩
          vehicles := ⟨rfl, fun e he => by cases he⟩
          layout := ⟨rfl, rfl⟩
          bays := rfl
          shelves := ⟨rfl, fun e he => by cases he⟩ }
      rest := fun _ => ⟨fun _ => ⟨rfl, rfl⟩, fun _ => rfl⟩ }
  capture := .refl _
  layout := fun h _ => absurd h hl

theorem openLayout_lasting (r : LayoutOpenReq) (s : State) : Lasting s (openLayout r s).state := by
  unfold openLayout
  split
  · rename_i hs
    split
    · exact layout_lasting (by simp [hs]) fun _ => ⟨rfl, rfl⟩
    · exact .refl s
  · rename_i hs
    exact abandonLoad_lasting (by simp [hs])
  · split
    · exact .refl s
    · split
      · exact .refl s
      · split
        · exact reopened_lasting ‹_› r
        · exact .refl s

/-- A record other than LAYOUT_OPEN keeps what its own rule keeps in LOADING (R5). -/
theorem takeRecord_lasting {rec : LayoutRecord} {store : State → Answered}
    (h : ∀ s, s.lyt.opState = .loading → Lasting s (store s).state) (s : State) :
    Lasting s (takeRecord rec store s).state := by
  unfold takeRecord
  split
  · exact .refl s
  · exact .refl s
  · rename_i hs
    split
    · exact h s hs
    · exact abandonLoad_lasting (by simp [hs])

theorem defLoop_lasting (r : LoopDefReq) (s : State) : Lasting s (defLoop r s).state :=
  takeRecord_lasting (fun s hs => by
    split
    · exact layout_lasting (by simp [hs]) id
    · exact .refl s) s

theorem defBay_lasting (r : BayDefReq) (s : State) : Lasting s (defBay r s).state :=
  takeRecord_lasting (fun s hs => by
    split
    · exact layout_lasting (by simp [hs]) fun h => ⟨tblWf_set h.1 _ _, h.2⟩
    · exact .refl s) s

theorem defPort_lasting (r : PortDefReq) (s : State) : Lasting s (defPort r s).state :=
  takeRecord_lasting (fun s hs => by
    split
    · split
      · exact layout_lasting (by simp [hs]) fun h => ⟨h.1, tblWf_set h.2 _ _⟩
      · exact .refl s
    · exact .refl s) s

/-- The blocks as RUNNING begins on a valid layout (R11). -/
theorem enterRunning_lasting (hs : s.lyt.opState = .loading) : Lasting s (enterRunning s) where
  toKept := Cleared.kept
    { orders := rfl
      vehicles := rfl
      rescan := rfl
      bays := fun e he => by
        obtain ⟨f, -, rfl⟩ := List.mem_map.1 he
        exact ⟨rfl, rfl, rfl⟩
      idle := rfl
      lines := id
      settings := fun x => { x with
        bays := fun e he => by
          obtain ⟨f, -, rfl⟩ := List.mem_map.1 he
          simp [freshBay]
        reserves := fun e he => by
          obtain ⟨f, -, rfl⟩ := List.mem_map.1 he
          exact ⟨Nat.zero_le _, Nat.zero_le _⟩
        survey := x.survey }
      tables := fun c =>
        { c with
          orders := ⟨rfl, fun e he => by cases he⟩
          batches := ⟨rfl, Nat.zero_le _⟩
          vehicles := ⟨rfl, fun e he => by cases he⟩
          layout := ⟨c.layout.1, by
            show tblWf (runningLayout s.lyt).ports = true
            exact tblWf_map_records _ c.layout.2⟩
          bays := tblWf_map_records (fun _ => freshBay) c.layout.1
          shelves := ⟨rfl, fun e he => by cases he⟩ }
      rest := fun x => ⟨fun _ => x.idle (x.outside (by simp [hs])), fun _ => rfl⟩ }
  capture := .refl _
  layout := fun _ h => by simp [hs] at h

theorem closeLayout_lasting (r : Unit) (s : State) : Lasting s (closeLayout r s).state :=
  takeRecord_lasting (fun s hs => by
    split
    · exact layout_lasting (by simp [hs]) fun _ => ⟨rfl, rfl⟩
    · exact enterRunning_lasting hs) s

/-! ## RESTART and POWER_ON_RESET (R18, R181) -/

theorem restarted_lasting (s : State) : Lasting s (restarted s) where
  toKept := Cleared.kept
    { orders := rfl
      vehicles := rfl
      rescan := rfl
      bays := fun e he => by
        obtain ⟨f, -, rfl⟩ := List.mem_map.1 he
        exact ⟨rfl, rfl, rfl⟩
      idle := rfl
      lines := fun r =>
        { frames := Nat.zero_le _
          marks := Nat.zero_le _
          notices := Nat.zero_le _
          fleetIn := r.fleetIn
          fleetOut := Nat.zero_le _
          hostRx := r.hostRx
          fleetRx := r.fleetRx }
      settings := fun x => { x with
        bays := fun e he => by
          obtain ⟨f, hf, rfl⟩ := List.mem_map.1 he
          exact x.bays f hf
        survey := x.survey }
      tables := fun c =>
        { c with
          orders := ⟨rfl, fun e he => by cases he⟩
          batches := ⟨rfl, Nat.zero_le _⟩
          vehicles := ⟨rfl, fun e he => by cases he⟩
          bays := tblWf_map_records (fun e => restartedBay e.2) c.bays
          shelves := ⟨tblWf_filter _ (tblWf_map_records (fun e => unclaimed e.2) c.shelves.1), fun e he => by
            simpa using (List.mem_filter.1 he).2⟩ }
      rest := fun _ => ⟨fun _ => ⟨rfl, rfl⟩, fun _ => rfl⟩ }
  capture := .refl _
  layout := .of_eq rfl

theorem execRestartEffect_lasting (e : execRestartEffect s = .next t) : Lasting s t := by
  unfold execRestartEffect at e
  split at e <;> cases e
  · exact restarted_lasting s
  · exact .refl s

theorem execGrantStep_regular (e : execGrantStep s = .next t) :
    Regular s t ∧ (t.asa.examPending = true ∨ Unflagged s t) := by
  unfold execGrantStep at e
  split at e <;> cases e
  · exact grantStep_regular s
  · exact ⟨.refl s, .inr (.of_eq rfl rfl rfl rfl)⟩

/-- What every row keeps but a power-on reset and a CAPTURE_CLEAR. -/
theorem exec_lasting {c : Instr} (hp : c ≠ .powerOnReset) (hc : c ≠ .captureClear) (e : exec c s = .next t) :
    Lasting s t := by
  by_cases hx : c ∈ exceptionalRows
  · simp only [exceptionalRows, List.mem_cons, List.not_mem_nil, or_false] at hx
    rcases hx with rfl | rfl | rfl | rfl | rfl | rfl | rfl | rfl | rfl
    · exact absurd rfl hp
    · exact absurd rfl hc
    · exact execRestartEffect_lasting e
    · cases e; exact takeRequest_lasting openLayout_lasting s
    · cases e; exact takeRequest_lasting defLoop_lasting s
    · cases e; exact takeRequest_lasting defBay_lasting s
    · cases e; exact takeRequest_lasting defPort_lasting s
    · cases e; exact takeRequest_lasting closeLayout_lasting s
    · exact (execGrantStep_regular e).1.lasting
  · exact (exec_ordinary hx e).lasting

/-! ## CAPTURE_CLEAR (R170) -/

/-- What a CAPTURE_CLEAR keeps. -/
structure CaptureCleared (s t : State) : Prop where
  kept : Kept s t
  layout : t.lyt = s.lyt
  tables : TablesSame s t

theorem clearCapture_cleared (r : Unit) (s : State) : CaptureCleared s (clearCapture r s).state where
  kept := TablesSame.kept ⟨rfl, rfl, rfl, rfl, rfl, rfl, id⟩ id id (fun x => { x with }) (SurveyAtRest.of_eq rfl rfl)
    (fun _ => id)
  layout := rfl
  tables := ⟨rfl, rfl, rfl, rfl, rfl, rfl, id⟩

theorem TablesSame.trans {u : State} (h : TablesSame s t) (k : TablesSame t u) : TablesSame s u :=
  ⟨k.orders.trans h.orders, k.batches.trans h.batches, k.vehicles.trans h.vehicles, k.bays.trans h.bays,
    k.shelves.trans h.shelves, k.rescan.trans h.rescan, fun e => k.exam (h.exam e)⟩

theorem execCaptureClear_cleared (e : execCaptureClear s = .next t) : CaptureCleared s t := by
  cases e
  refine takeRequest_induct (R := CaptureCleared) (fun s => ⟨.refl s, rfl, ⟨rfl, rfl, rfl, rfl, rfl, rfl, id⟩⟩)
    (fun _ _ _ h k => ⟨h.kept.trans k.kept, k.layout.trans h.layout, h.tables.trans k.tables⟩)
    (fun s => ⟨(popHost_ordinary s).toKept, rfl, ⟨rfl, rfl, rfl, rfl, rfl, rfl, id⟩⟩)
    (fun r s => ⟨(placeReply_ordinary r s).toKept, rfl, ⟨rfl, rfl, rfl, rfl, rfl, rfl, id⟩⟩) clearCapture_cleared s

end Sys2Proof.Machine
end

section
/-! The statements about every command: bounds, tables, capture, layout, timers and the examination-pending flag. -/
namespace Sys2Proof.Machine

open Sys2Proof

variable {s t : State}

/-! ## Power-on reset -/

theorem linesBounded_reset : LinesBounded State.reset.liu := by
  constructor <;> decide

theorem settingsInRange_reset : SettingsInRange State.reset := by
  constructor <;> simp [State.reset, Arbiter.reset, VehicleTable.reset, Admission.reset, FaultCapture.reset,
    OrderTable.reset, ShelfMap.reset, Survey.reset]

theorem tablesCanonical_reset : TablesCanonical State.reset := by
  constructor <;> simp [State.reset, tblWf, OrderTable.reset, VehicleTable.reset, Layout.reset, Admission.reset,
    ShelfMap.reset]

theorem fleetConsistent_reset : FleetConsistent State.reset := by
  constructor <;> simp [State.reset, OrderTable.reset, VehicleTable.reset]

theorem rescanFollowsQueue_reset : RescanFollowsQueue State.reset := by
  constructor <;> simp [State.reset, tblWf, OrderTable.reset, Arbiter.reset]

theorem surveyAtRest_reset : SurveyAtRest State.reset := ⟨fun _ => ⟨rfl, rfl⟩, fun _ => rfl⟩

theorem timersRun_reset : TimersRun State.reset := by
  constructor <;> simp [State.reset, OrderTable.reset, VehicleTable.reset, Admission.reset, Survey.reset]

theorem yieldFollowsPressure_reset : YieldFollowsPressure State.reset := by
  intro e he
  cases he

/-- Settles O60: each invariant is read off the reset state. -/
theorem resetMeetsTheInvariants : Obligations.ResetMeetsTheInvariants :=
  ⟨linesBounded_reset, settingsInRange_reset, tablesCanonical_reset, fleetConsistent_reset, rescanFollowsQueue_reset,
    yieldFollowsPressure_reset, surveyAtRest_reset, timersRun_reset⟩

/-- After a power-on reset the invariants hold whatever held before. -/
theorem execPowerOnReset_kept (e : execPowerOnReset s = .next t) : Kept s t := by
  cases e
  have same : Kept State.reset { State.reset with gwrdy := s.gwrdy, pending := s.pending, choices := s.choices } :=
    Regular.toKept (Ordinary.toRegular (ordinary_of_lines rfl id))
  exact
    { lines := fun _ => same.lines linesBounded_reset
      settings := fun _ => same.settings settingsInRange_reset
      tables := fun _ _ => same.tables tablesCanonical_reset fleetConsistent_reset
      rescan := fun _ => same.rescan rescanFollowsQueue_reset
      yield := fun _ => same.yield yieldFollowsPressure_reset
      rest := fun _ => same.rest surveyAtRest_reset
      timers := fun _ _ _ _ => same.timers tablesCanonical_reset fleetConsistent_reset surveyAtRest_reset
        timersRun_reset }

/-! ## Steps -/

theorem exec_kept {c : Instr} (e : exec c s = .next t) : Kept s t := by
  by_cases hp : c = .powerOnReset
  · subst hp
    exact execPowerOnReset_kept e
  · by_cases hc : c = .captureClear
    · subst hc
      exact (execCaptureClear_cleared e).kept
    · exact (exec_lasting hp hc e).toKept

/-- A command leaves the queue before it is executed. -/
theorem dequeue_ordinary (s : State) (l : List Instr) : Ordinary s { s with pending := l } := ordinary_of_lines rfl id

/-- A step idles, or executes the command at the front of the queue. -/
theorem step_cases (e : step s = .next t) :
    (s.pending = [] ∧ t = idle s) ∨
      ∃ c l, s.pending = c :: l ∧ exec c { s with pending := l } = .next t := by
  unfold step at e
  split at e
  · rename_i c l hp
    exact .inr ⟨c, l, hp, e⟩
  · rename_i hp
    cases e
    exact .inl ⟨hp, rfl⟩

theorem step_kept (e : step s = .next t) : Kept s t := by
  rcases step_cases e with ⟨-, rfl⟩ | ⟨c, l, -, e⟩
  · exact (idle_ordinary s).toKept
  · exact (dequeue_ordinary s l).toKept.trans (exec_kept e)

/-- Settles O54: every row keeps the bounds, by the relation `Kept`. -/
theorem everyStepKeepsTheBounds : Obligations.EveryStepKeepsTheBounds := fun _ _ e =>
  ⟨(step_kept e).lines, (step_kept e).settings⟩

/-- Settles O55: every row keeps canonical tables canonical, and in them layers and orders in agreement. -/
theorem everyStepKeepsTheTables : Obligations.EveryStepKeepsTheTables := fun _ _ e => (step_kept e).tables

/-- Settles O56: the rows only offer incidents to the capture, but for the two that clear it. -/
theorem onlyAClearEmptiesTheCapture : Obligations.OnlyAClearEmptiesTheCapture := by
  intro s t e hc hp
  rcases step_cases e with ⟨-, rfl⟩ | ⟨c, l, hl, e⟩
  · exact (idle_ordinary s).capture
  · rw [hl] at hc hp
    exact ((dequeue_ordinary s l).lasting.trans
      (exec_lasting (by simpa using hp) (by simpa using hc) e)).capture

/-- Settles O57: a locked layout in RUNNING refuses every record, and PORT_STATE writes an open flag alone. -/
theorem aLockedLayoutStays : Obligations.ALockedLayoutStays := by
  intro s t e hp hlock hrun
  rcases step_cases e with ⟨-, rfl⟩ | ⟨c, l, hl, e⟩
  · exact (idle_ordinary s).layout hlock hrun
  · rw [hl] at hp
    by_cases hc : c = .captureClear
    · subst hc
      have := (execCaptureClear_cleared e).layout
      rw [this]
      exact ⟨rfl, fun _ => rfl⟩
    · exact ((dequeue_ordinary s l).lasting.trans (exec_lasting (by simpa using hp) hc e)).layout hlock hrun

/-- Settles O58: every row keeps the timers with their conditions, by the relation `Kept`. -/
theorem timersFollowTheirConditions : Obligations.TimersFollowTheirConditions := fun _ _ e =>
  ⟨(step_kept e).rescan, fun _ => (step_kept e).yield, (step_kept e).rest, (step_kept e).timers⟩

/-! ## The examination-pending flag (R70, R132) -/

/-- No order entered QUEUED or CARRYING, and no vehicle became IDLE or had its take timer started. -/
structure WorkUnflagged (s t : State) : Prop where
  orders : ∀ h p, tblGet t.ort.orders h = some p → p.state = .queued ∨ p.state = .carrying →
    ∃ o, tblGet s.ort.orders h = some o ∧ o.state = p.state
  idle : ∀ k w, tblGet t.vht.vehicles k = some w → w.activity = .idle →
    ∃ v, tblGet s.vht.vehicles k = some v ∧ v.activity = .idle
  take : ∀ k w, tblGet t.vht.vehicles k = some w → w.takeTimer ≠ none →
    ∃ v, tblGet s.vht.vehicles k = some v ∧ v.takeTimer = w.takeTimer

theorem Unflagged.work (u : Unflagged s t) : WorkUnflagged s t := ⟨u.orders, u.idle, u.take⟩

/-- No racked shelf became FREE or HELD, and no vehicle's place ended. -/
structure PlacesUnflagged (s t : State) : Prop where
  shelves : ∀ k, racked s.lyt k = true → shelfAt t.shm k = shelfAt s.shm k ∨
    ((shelfAt t.shm k).state ≠ .free ∧ (shelfAt t.shm k).state ≠ .held)
  admitted : ∀ b y a, tblGet s.bac.bays b = some y → a ∈ y.admitted →
    ∃ z e, tblGet t.bac.bays b = some z ∧ e ∈ z.admitted ∧ e.slot = a.slot

theorem Unflagged.place (u : Unflagged s t) : PlacesUnflagged s t := ⟨u.shelves, u.admitted⟩

/-- The tables are as they were, or those of orders and vehicles are empty. -/
def TablesDropped (s t : State) : Prop :=
  (t.ort.orders = s.ort.orders ∨ t.ort.orders = []) ∧ (t.vht.vehicles = s.vht.vehicles ∨ t.vht.vehicles = [])

theorem TablesDropped.refl (s : State) : TablesDropped s s := ⟨.inl rfl, .inl rfl⟩

theorem TablesDropped.trans {u : State} (h : TablesDropped s t) (k : TablesDropped t u) : TablesDropped s u :=
  ⟨k.1.elim (fun e => by rw [e]; exact h.1) .inr, k.2.elim (fun e => by rw [e]; exact h.2) .inr⟩

theorem TablesDropped.unflagged (h : TablesDropped s t) : WorkUnflagged s t := by
  refine ⟨fun g p hp _ => ?_, fun k w hw hi => ?_, fun k w hw _ => ?_⟩
  · rcases h.1 with e | e <;> rw [e] at hp
    · exact ⟨p, hp, rfl⟩
    · cases hp
  · rcases h.2 with e | e <;> rw [e] at hw
    · exact ⟨w, hw, hi⟩
    · cases hw
  · rcases h.2 with e | e <;> rw [e] at hw
    · exact ⟨w, hw, rfl⟩
    · cases hw

theorem takeRequest_dropped {α : Type} {kind : Nat} {form : List Byte → Option α} {act : α → State → Answered}
    (h : ∀ r s, TablesDropped s (act r s).state) (s : State) : TablesDropped s (takeRequest kind form act s) :=
  takeRequest_induct (R := TablesDropped) .refl (fun _ _ _ => TablesDropped.trans) .refl (fun _ s => .refl s) h s

/-- A record of a load writes the layout alone. -/
theorem takeRequest_record {α : Type} {kind : Nat} {form : List Byte → Option α} {act : α → State → Answered}
    (h : ∀ r s, (act r s).state = { s with lyt := (act r s).state.lyt }) (s : State) :
    ∃ l, takeRequest kind form act s = { s with
      liu := (takeRequest kind form act s).liu
      lyt := l } := by
  rcases takeRequest_cases kind form act s with e | ⟨tag, e⟩ | ⟨tag, r, e⟩ <;> rw [e]
  · exact ⟨s.lyt, rfl⟩
  · exact ⟨s.lyt, rfl⟩
  · rw [h r (popHost s)]
    exact ⟨_, rfl⟩

theorem takeRecord_layout {rec : LayoutRecord} {store : State → Answered}
    (h : ∀ s, (store s).state = { s with lyt := (store s).state.lyt }) (s : State) :
    (takeRecord rec store s).state = { s with lyt := (takeRecord rec store s).state.lyt } := by
  unfold takeRecord
  split
  · rfl
  · rfl
  · split
    · exact h s
    · rfl

theorem defLoop_layout (r : LoopDefReq) (s : State) :
    (defLoop r s).state = { s with lyt := (defLoop r s).state.lyt } :=
  takeRecord_layout (fun _ => by split <;> rfl) s

theorem defBay_layout (r : BayDefReq) (s : State) : (defBay r s).state = { s with lyt := (defBay r s).state.lyt } :=
  takeRecord_layout (fun _ => by split <;> rfl) s

theorem defPort_layout (r : PortDefReq) (s : State) :
    (defPort r s).state = { s with lyt := (defPort r s).state.lyt } :=
  takeRecord_layout (fun _ => by
    split
    · split <;> rfl
    · rfl) s

theorem openLayout_dropped (r : LayoutOpenReq) (s : State) : TablesDropped s (openLayout r s).state := by
  unfold openLayout
  split
  · split <;> exact .refl s
  · exact .refl s
  · split
    · exact .refl s
    · split
      · exact .refl s
      · split
        · exact ⟨.inr rfl, .inr rfl⟩
        · exact .refl s

theorem closeLayout_dropped (r : Unit) (s : State) : TablesDropped s (closeLayout r s).state := by
  unfold closeLayout takeRecord
  split
  · exact .refl s
  · exact .refl s
  · split
    · beta_reduce
      split
      · exact .refl s
      · exact ⟨.inr rfl, .inr rfl⟩
    · exact .refl s

/-- The rows that empty a table (R11, R13, R18, R181). -/
def emptyingRows : List Instr := [.powerOnReset, .restartEffect, .layoutOpen, .layoutClose]

/-- Every row but those that empty tables leaves the flag set or does nothing that sets it. -/
theorem exec_flagged {c : Instr} (hc : c ∉ emptyingRows) (e : exec c s = .next t) :
    t.asa.examPending = true ∨ Unflagged s t := by
  by_cases hx : c ∈ exceptionalRows
  · have record : (∃ l, t = { s with liu := t.liu, lyt := l }) → t.asa.examPending = true ∨ Unflagged s t := by
      rintro ⟨l, h⟩
      rw [h]
      exact .inr (.of_eq rfl rfl rfl rfl)
    simp only [emptyingRows, exceptionalRows, List.mem_cons, List.not_mem_nil, or_false, not_or] at hx hc
    obtain ⟨n1, n2, n3, n4⟩ := hc
    rcases hx with rfl | rfl | rfl | rfl | rfl | rfl | rfl | rfl | rfl
    · exact absurd rfl n1
    · exact (execCaptureClear_cleared e).tables.flag.flagged
    · exact absurd rfl n2
    · exact absurd rfl n3
    · cases e; exact record (takeRequest_record defLoop_layout s)
    · cases e; exact record (takeRequest_record defBay_layout s)
    · cases e; exact record (takeRequest_record defPort_layout s)
    · exact absurd rfl n4
    · exact (execGrantStep_regular e).2
  · exact (exec_ordinary hx e).flag.flagged

theorem exec_workFlagged {c : Instr} (e : exec c s = .next t) : t.asa.examPending = true ∨ WorkUnflagged s t := by
  by_cases hc : c ∈ emptyingRows
  · right
    simp only [emptyingRows, List.mem_cons, List.not_mem_nil, or_false] at hc
    rcases hc with rfl | rfl | rfl | rfl
    · cases e
      exact TablesDropped.unflagged ⟨.inr rfl, .inr rfl⟩
    · change execRestartEffect s = .next t at e
      unfold execRestartEffect at e
      split at e <;> cases e
      · exact TablesDropped.unflagged ⟨.inr rfl, .inr rfl⟩
      · exact (TablesDropped.refl s).unflagged
    · cases e
      exact (takeRequest_dropped openLayout_dropped s).unflagged
    · cases e
      exact (takeRequest_dropped closeLayout_dropped s).unflagged
  · exact (exec_flagged hc e).imp_right Unflagged.work

theorem step_workFlagged (e : step s = .next t) : t.asa.examPending = true ∨ WorkUnflagged s t := by
  rcases step_cases e with ⟨-, rfl⟩ | ⟨c, l, -, e⟩
  · exact (idle_ordinary s).flag.flagged.imp_right Unflagged.work
  · exact (exec_workFlagged e).imp_right fun u => ⟨u.orders, u.idle, u.take⟩

theorem step_placesFlagged (e : step s = .next t) (hc : ∀ c ∈ emptyingRows, s.pending.head? ≠ some c) :
    t.asa.examPending = true ∨ PlacesUnflagged s t := by
  rcases step_cases e with ⟨-, rfl⟩ | ⟨c, l, hl, e⟩
  · exact (idle_ordinary s).flag.flagged.imp_right Unflagged.place
  · have not : c ∉ emptyingRows := fun h => hc c h (by rw [hl]; rfl)
    exact (exec_flagged not e).imp_right fun u => ⟨u.shelves, u.admitted⟩

/-- Settles O59: each operation that makes such a change sets the flag, and the rows that empty tables make none. -/
theorem entryToTheQueueSetsTheFlag : Obligations.EntryToTheQueueSetsTheFlag := by
  refine ⟨fun s t h p e hp hs new => ?orders, fun s t slot w e hw new => ?vehicles,
    fun s t e h1 h2 h3 h4 new => ?places⟩
  case orders =>
    rcases step_workFlagged e with x | u
    · exact x
    · obtain ⟨o, ho, eq⟩ := u.orders h p hp hs
      exact absurd eq (new o ho)
  case vehicles =>
    rcases step_workFlagged e with x | u
    · exact x
    · rcases new with ⟨hi, new⟩ | ⟨ht, new⟩
      · obtain ⟨v, hv, eq⟩ := u.idle slot w hw hi
        exact absurd eq (new v hv)
      · obtain ⟨v, hv, eq⟩ := u.take slot w hw ht
        exact absurd eq (new v hv)
  case places =>
    rcases step_placesFlagged e (by simp [emptyingRows, h1, h2, h3, h4]) with x | u
    · exact x
    · rcases new with ⟨k, hr, hne, hst⟩ | ⟨b, y, z, a, hy, hz, ha, gone⟩
      · rcases u.shelves k (by simpa [racked, Option.isSome_iff_ne_none] using hr) with eq | ⟨n1, n2⟩
        · exact absurd eq hne
        · exact absurd hst (not_or.2 ⟨n1, n2⟩)
      · obtain ⟨z', x, hz', hx, eq⟩ := u.admitted b y a hy ha
        rw [hz] at hz'
        cases hz'
        exact absurd eq (gone x hx)

end Sys2Proof.Machine
end

section
/-! Requests in RUNNING by what their rules answer, and with them the queries, the clearing of terminal orders, RESTART
and the order of messages (R47, R110, R143, R145, R175 to R178, R181). -/
namespace Sys2Proof.Machine

open Sys2Proof

variable {α : Type} {kind tag : Nat} {payload : List Byte} {form : List Byte → Option α} {r : α} {s t : State}
  {st : Status} {p : ReplyPayload}

/-! ## What a rule's answer leaves in the reply slot -/

/-- The answer of a rule that is taken in RUNNING stands in the reply slot over the state it leaves (R4, R175). -/
theorem takeRequest_running {act : α → State → Answered} (h : askedRunning s kind tag payload)
    (hf : form payload = some r) (ha : act r (popHost s) = ⟨t, st, p⟩) :
    takeRequest kind form (whenRunning act) s = placeReply ⟨kind + 0x80, tag, st, p⟩ t :=
  takeRequest_of_answer h.2 hf (by rw [whenRunning, if_pos (show (popHost s).lyt.opState = .running from h.1), ha])

/-- The answer of a rule on the order a request names, whatever else its payload carries (R48). -/
theorem takeRequest_named {ref : α → OrderRef} {act : α → Order → State → Answered} {h : Nat} {o : Order}
    {extra : List Byte} (a : asksOrder s kind tag h o extra)
    (hf : ∀ b t0 t1 t2 t3, u8 b = h →
      ∃ r, form (b :: t0 :: t1 :: t2 :: t3 :: extra) = some r ∧ ref r = ⟨h, u32 t0 t1 t2 t3⟩ ∧
        act r o (popHost s) = ⟨t, st, p⟩) :
    takeRequest kind form (whenRunning (fun r => onOrder (ref r) (act r))) s =
      placeReply ⟨kind + 0x80, tag, st, p⟩ t := by
  obtain ⟨b, t0, t1, t2, t3, ⟨hr, hw⟩, rfl, ho, ht⟩ := a
  obtain ⟨r, hf, hn, ha⟩ := hf b t0 t1 t2 t3 rfl
  refine takeRequest_running ⟨hr, hw⟩ hf ?_
  simp [onOrder, hn, namedOrder, ho, ht, ha]

theorem fleetIdValid_iff {f : Nat} : fleetIdValid f = true ↔ 0 < f ∧ f < 65535 := by
  simp [fleetIdValid]

/-- The answer of a rule on the vehicle a request names (R101 to R110). -/
theorem onVehicle_named {f slot : Nat} {v : Vehicle} {act : Nat → Vehicle → State → Answered} (h0 : 0 < f)
    (h1 : f < 65535) (hs : slotOf s.vht f = some slot) (hv : tblGet s.vht.vehicles slot = some v) :
    onVehicle f act s = act slot v s := by
  have hf : fleetIdValid f = true := fleetIdValid_iff.2 ⟨h0, h1⟩
  simp [onVehicle, hf, hs, hv]

/-! ## The command queue -/

/-- Settles O1: the queue of the state names the command. -/
theorem stepRunsTheFrontCommand : Obligations.StepRunsTheFrontCommand := by
  intro c rest s hp
  simp only [step, hp]

/-! ## Messages (R166, R175 to R177, R181) -/

theorem mayTake_iff : mayTake s = true ↔ s.liu.replySlot = none ∧ s.liu.restartPending = false := by
  simp [mayTake]

theorem queueNotice_room (n : Notice) (h : s.liu.notices.length < 64) :
    queueNotice n s =
      { s with
        liu := { s.liu with
          notices := s.liu.notices ++ [{ gap := s.liu.gapMark, notice := n }], gapMark := false } } := by
  simp [queueNotice, h]

theorem queueNotice_full (n : Notice) (h : 64 ≤ s.liu.notices.length) :
    queueNotice n s = { s with liu := { s.liu with gapMark := true } } := by
  simp [queueNotice, Nat.not_lt.2 h]

theorem issue_room (f : Nat) (b : CommandBody) (hg : s.gwrdy = true) (h : s.liu.fleetOut.length < 32) :
    issue f b s = { s with liu := { s.liu with fleetOut := s.liu.fleetOut ++ [{ fleetId := f, body := b }] } } := by
  simp [issue, hg, h]

theorem issue_discarded (f : Nat) (b : CommandBody) (h : s.gwrdy = false ∨ 32 ≤ s.liu.fleetOut.length) :
    issue f b s = s := by
  obtain hg | hn := h
  · simp [issue, hg]
  · simp [issue, Nat.not_lt.2 hn]

/-- Settles O8, message by message: each transmitter's row by what its queue holds, and each queue by its room. -/
theorem messagesLeaveInOrder : Obligations.MessagesLeaveInOrder := by
  refine ⟨fun s r hr => ?reply, fun s n rest hr hp hn => ?notice, fun s h => ?waits, fun s c rest hg hc => ?command,
    fun n _ h => queueNotice_room n h, fun n _ h => queueNotice_full n h, fun f b _ hg h => issue_room f b hg h,
    fun f b _ h => issue_discarded f b h⟩
  case reply =>
    show execReplyTransmit s = _
    simp only [execReplyTransmit, hr]
  case notice =>
    show execNoticeTransmit s = _
    simp only [execNoticeTransmit, mayTake_iff.2 ⟨hr, hp⟩, hn, if_true]
  case waits =>
    show execNoticeTransmit s = _
    have hm : ¬ mayTake s = true := by
      rw [mayTake_iff]
      rintro ⟨hr, hp⟩
      simp [hr, hp] at h
    rw [execNoticeTransmit, if_neg hm]
  case command =>
    show execFleetCommandTransmit s = _
    simp only [execFleetCommandTransmit, hg, hc, if_true]

/-! ## ORDER_CLEAR (R47) -/

theorem clearOrder_live {h : Nat} {o : Order} (hl : o.state.live = true) : clearOrder h o s = refuse s .wrongState := by
  simp [clearOrder, hl]

theorem clearOrder_terminal {h : Nat} {o : Order} (hl : o.state.live = false) :
    clearOrder h o s = accept { s with ort := { s.ort with orders := tblErase s.ort.orders h } } .none := by
  simp [clearOrder, hl]

theorem exec_orderClear_of_asks {h : Nat} {o : Order} (a : asksOrder s 0x27 tag h o [])
    (ha : clearOrder h o (popHost s) = ⟨t, st, p⟩) : exec .orderClear s = .next (placeReply ⟨0xA7, tag, st, p⟩ t) :=
  congrArg Host.Outcome.next (takeRequest_onOrder (act := clearOrder) a ha)

/-- Settles O29: the order's state decides. -/
theorem clearFreesTerminalOrders : Obligations.ClearFreesTerminalOrders := fun _ _ _ _ a =>
  ⟨fun hl => exec_orderClear_of_asks a (clearOrder_live hl),
    fun hl => ⟨_, exec_orderClear_of_asks a (clearOrder_terminal hl), rfl, tblGet_erase_self _ _,
      fun _ hk => tblGet_erase_other _ hk⟩⟩

/-! ## STATUS, VEHICLE_QUERY and SHELF_QUERY (R110, R143, R178) -/

theorem exec_status_of_waits {b : Byte} (h : requestWaits s 0x3D tag [b]) :
    exec .status s = .next (replied 0x3D tag .ok (.status (statusView s)) s) :=
  congrArg Host.Outcome.next
    (takeRequest_of_answer (form := decodeFiller) (act := fun _ s => accept s (.status (statusView s))) h rfl rfl)

theorem exec_vehicleQuery_of_asked {k n0 n1 : Byte} (h : askedRunning s 0x35 tag [k, n0, n1])
    (ha : queryVehicle ⟨u8 k, u16 n0 n1⟩ (popHost s) = ⟨t, st, p⟩) :
    exec .vehicleQuery s = .next (placeReply ⟨0xB5, tag, st, p⟩ t) :=
  congrArg Host.Outcome.next (takeRequest_running (form := decodeSelect) (act := queryVehicle) h rfl ha)

theorem exec_shelfQuery_of_asked {k n0 n1 : Byte} (h : askedRunning s 0x39 tag [k, n0, n1])
    (ha : queryShelf ⟨u8 k, u16 n0 n1⟩ (popHost s) = ⟨t, st, p⟩) :
    exec .shelfQuery s = .next (placeReply ⟨0xB9, tag, st, p⟩ t) :=
  congrArg Host.Outcome.next (takeRequest_running (form := decodeSelect) (act := queryShelf) h rfl ha)

theorem layerOrder_filled {x : OrderTable} {y : Layer} {h : Nat} {o : Order} (hy : y = .staged h ∨ y = .active h)
    (ho : tblGet x.orders h = some o) : layerOrder x y = some o.state := by
  obtain rfl | rfl := hy <;> simp [layerOrder, ho]

theorem layerOrder_empty {x : OrderTable} {y : Layer} (hy : y = .empty) : layerOrder x y = none := by
  rw [hy, layerOrder]

/-- A held slot is viewed by the record and the states of the orders its layers hold, however it was selected. -/
theorem queryVehicle_held {n slot : Nat} {k : Nat} {v : Vehicle}
    (hk : (k = 0 ∧ 0 < n ∧ n < 65535 ∧ slotOf s.vht n = some slot) ∨ (k = 1 ∧ n < 64 ∧ slot = n))
    (hv : tblGet s.vht.vehicles slot = some v) : queryVehicle ⟨k, n⟩ s = accept s (vehicleView slot v s) := by
  obtain ⟨rfl, h0, h1, hs⟩ | ⟨rfl, hn, rfl⟩ := hk
  · exact onVehicle_named (act := fun slot v s => accept s (vehicleView slot v s)) h0 h1 hs hv
  · simp [queryVehicle, hn, hv]

theorem onVehicle_unknown {f : Nat} {act : Nat → Vehicle → State → Answered} (h0 : 0 < f) (h1 : f < 65535)
    (hs : slotOf s.vht f = none) : onVehicle f act s = refuse s .notFound := by
  have hf : fleetIdValid f = true := fleetIdValid_iff.2 ⟨h0, h1⟩
  simp [onVehicle, hf, hs]

theorem queryVehicle_free {n : Nat} (hn : n < 64) (hv : tblGet s.vht.vehicles n = none) :
    queryVehicle ⟨1, n⟩ s = accept s (.vehicleFree n) := by
  simp [queryVehicle, hn, hv]

/-- A selector of 2 or more selects nothing (R184). -/
theorem eq_add_two {n : Nat} (h : 2 ≤ n) : ∃ m, n = m + 2 := ⟨n - 2, by omega⟩

theorem queryVehicle_refused {k n : Nat}
    (h : (k = 0 ∧ (n = 0 ∨ n = 65535)) ∨ (k = 1 ∧ 64 ≤ n) ∨ 2 ≤ k) : queryVehicle ⟨k, n⟩ s = refuse s .badField := by
  obtain ⟨rfl, rfl | rfl⟩ | ⟨rfl, hn⟩ | hk := h
  · rfl
  · rfl
  · simp [queryVehicle, Nat.not_lt.2 hn]
  · obtain ⟨m, rfl⟩ := eq_add_two hk
    rfl

theorem hostTagAt_claim (sh : Shelf) : hostTagAt s.ort sh.claim = claimTagOf s sh := by
  cases h : sh.claim with
  | none => simp [hostTagAt, claimTagOf, h]
  | some g => simp [hostTagAt, claimTagOf, h]

theorem shelfView_eq (k : Nat) :
    shelfView s k = { shelf := shelfAt s.shm k, claimTag := claimTagOf s (shelfAt s.shm k) } := by
  rw [shelfView, hostTagAt_claim]

theorem queryShelf_index {n : Nat} (h : n ≤ 1023) :
    queryShelf ⟨0, n⟩ s = accept s (.shelf (shelfView s n) (rackPlace s n)) := by
  simp [queryShelf, h]

theorem queryShelf_bay {n : Nat} {y : BayRec} (h : tblGet s.lyt.bays n = some y) :
    queryShelf ⟨1, n⟩ s = accept s (rackView s n y) := by
  simp [queryShelf, h]

theorem queryShelf_refused {k n : Nat}
    (h : k = 0 ∧ 1023 < n ∨ k = 1 ∧ tblGet s.lyt.bays n = none ∨ 2 ≤ k) :
    queryShelf ⟨k, n⟩ s = refuse s .badField := by
  obtain ⟨rfl, hn⟩ | ⟨rfl, hn⟩ | hk := h
  · simp [queryShelf, Nat.not_le.2 hn]
  · simp [queryShelf, hn]
  · obtain ⟨m, rfl⟩ := eq_add_two hk
    rfl

/-- The counts and the sequencer of the STATUS reply, as the tables hold them (R178). -/
theorem statusView_free (s : State) :
    (statusView s).free + s.ort.orders.length = max 256 s.ort.orders.length := by
  show 256 - s.ort.orders.length + s.ort.orders.length = _
  omega

theorem statusSurvey_running (h : s.lyt.opState = .running) : statusSurvey s = surveyView s.iss := by
  simp [statusSurvey, h]

theorem statusSurvey_outside (h : s.lyt.opState ≠ .running) :
    statusSurvey s = { surveyView s.iss with skipLeft := 0, stepCount := 0 } := by
  simp [statusSurvey, h]

/-- Outside RUNNING the two counts alone differ from the sequencer's own (log 37). -/
theorem statusSurvey_settings (s : State) :
    { statusSurvey s with skipLeft := s.iss.skipLeft, stepCount := s.iss.stepCount } = surveyView s.iss := by
  unfold statusSurvey
  split <;> rfl

/-- Settles O33, by the request and its selector: in each case the equation of the rule that answers it. -/
theorem queriesChangeNothing : Obligations.QueriesChangeNothing := by
  refine ⟨fun s tag b h => ?status, fun s tag k n0 n1 h => ?vehicle, fun s tag k n0 n1 h => ?shelf⟩
  case status =>
    refine ⟨_, exec_status_of_waits h, rfl, rfl, rfl, rfl, rfl, rfl, rfl, almnAsserted_iff s, rfl, rfl, rfl, rfl, rfl,
      statusView_free s, rfl, rfl, rfl, rfl, ?survey, rfl, rfl⟩
    have hv {β : Type} (f : SurveyView → β) := congrArg f (statusSurvey_settings s)
    refine ⟨hv (·.mode), hv (·.first), hv (·.last), hv (·.aOn), hv (·.aPeriod), hv (·.bOn), hv (·.skipN), hv (·.everyM),
      hv (·.state), hv (·.current), hv (·.pendingStart), fun hr => ?_, fun hr => ?_, hv (·.expiry)⟩
    · exact ⟨congrArg (·.skipLeft) (statusSurvey_running hr), congrArg (·.stepCount) (statusSurvey_running hr)⟩
    · exact ⟨congrArg (·.skipLeft) (statusSurvey_outside hr), congrArg (·.stepCount) (statusSurvey_outside hr)⟩
  case vehicle =>
    refine ⟨fun slot v hk hv => ?held, fun hk h0 h1 hs => ?unknown, fun hk hn hv => ?free, fun hbad => ?refused⟩
    case held =>
      exact ⟨_, _, exec_vehicleQuery_of_asked h (queryVehicle_held hk hv), layerOrder_empty, layerOrder_empty,
        fun _ _ => layerOrder_filled, fun _ _ => layerOrder_filled⟩
    case unknown =>
      have ha : queryVehicle ⟨u8 k, u16 n0 n1⟩ (popHost s) = refuse (popHost s) .notFound := by
        rw [hk]
        exact onVehicle_unknown (act := fun slot v s => accept s (vehicleView slot v s)) h0 h1 hs
      exact exec_vehicleQuery_of_asked h ha
    case free =>
      have ha := queryVehicle_free (s := popHost s) hn hv
      rw [← hk] at ha
      exact exec_vehicleQuery_of_asked h ha
    case refused => exact exec_vehicleQuery_of_asked h (queryVehicle_refused hbad)
  case shelf =>
    refine ⟨fun hk hn => ?index, fun y hk hy => ?bay, fun hbad => ?refused⟩
    case index =>
      refine ⟨rackPlace s (u16 n0 n1), ?_, fun hr => ?_, fun b y hr => ?_⟩
      · rw [← shelfView_eq]
        exact exec_shelfQuery_of_asked h (hk ▸ queryShelf_index hn)
      · simp [rackPlace, hr]
      · simp [rackPlace, hr, regionAt]
    case bay =>
      simp only [← shelfView_eq]
      have ha := queryShelf_bay (s := popHost s) hy
      rw [← hk] at ha
      exact exec_shelfQuery_of_asked h ha
    case refused => exact exec_shelfQuery_of_asked h (queryShelf_refused hbad)

/-! ## RESTART (R19, R181) -/

theorem exec_restart_of_asked {b : Byte} (h : askedRunning s 0x3E tag [b]) :
    exec .restart s =
      .next (replied 0x3E tag .ok (.time s.now) { s with liu := { s.liu with restartPending := true } }) :=
  congrArg Host.Outcome.next (takeRequest_running (form := decodeFiller) (act := restartAct) h rfl rfl)

/-- What `tblGet` finds after a filter is what it found before, where the filter keeps it (R131). -/
theorem tblGet_filter {β : Type} (q : Nat × β → Bool) {x : Tbl β} (hw : tblWf x = true) (k : Nat) :
    tblGet (x.filter q : Tbl β) k = (tblGet x k).filter (fun y => q (k, y)) := by
  cases hg : tblGet x k with
  | none =>
    cases hf : tblGet (x.filter q : Tbl β) k with
    | none => rfl
    | some y =>
      have hm := (List.mem_filter.1 (tblGet_mem hf)).1
      rw [tblGet_of_mem hw hm] at hg
      contradiction
  | some y =>
    have hm := tblGet_mem hg
    cases hq : q (k, y) with
    | true =>
      simp only [Option.filter, hq, if_true]
      exact tblGet_of_mem (tblWf_filter q hw) (List.mem_filter.2 ⟨hm, hq⟩)
    | false =>
      cases hf : tblGet (x.filter q : Tbl β) k with
      | none => simp [Option.filter, hq]
      | some z =>
        obtain ⟨hz, hqz⟩ := List.mem_filter.1 (tblGet_mem hf)
        obtain rfl : z = y := Option.some.inj ((tblGet_of_mem hw hz).symm.trans hg)
        rw [hq] at hqz
        contradiction

/-- A shelf whose claims have been dropped; one that becomes FREE leaves the map (R145). -/
theorem shelfAt_dropClaims {m : ShelfMap} (hw : tblWf m.shelves = true) (k : Nat) :
    shelfAt (dropClaims m) k = unclaimed (shelfAt m k) := by
  have hg : tblGet (dropClaims m).shelves k =
      ((tblGet m.shelves k).map unclaimed).filter (fun y => decide (y ≠ freeShelf)) := by
    rw [← tblGet_map_records]
    exact tblGet_filter (fun e => decide (e.2 ≠ freeShelf)) (tblWf_map_records (fun e => unclaimed e.2) hw) k
  unfold shelfAt
  rw [hg]
  cases tblGet m.shelves k with
  | none => rfl
  | some sh =>
    by_cases hf : unclaimed sh = freeShelf
    · simp [Option.filter, hf]
    · simp [Option.filter, hf]

theorem execRestartEffect_due (hp : s.liu.restartPending = true) (hr : s.liu.replySlot = none) :
    execRestartEffect s = .next (restarted s) :=
  if_pos ⟨hp, hr⟩

/-- Settles O4: the reply and what it blocks, the effect block by block, and its absence before the reply has left. -/
theorem restartRepliesThenResets : Obligations.RestartRepliesThenResets := by
  refine ⟨fun s tag b => exec_restart_of_asked, fun s hp hr hw => ?effect, fun s h => ?before⟩
  case effect =>
    refine ⟨restarted s, execRestartEffect_due hp hr, rfl, rfl, rfl, rfl, rfl, rfl, rfl, rfl, rfl, rfl,
      fun b => tblGet_map_records restartedBay _ b, rfl, fun k => ?shelf, rfl, rfl⟩
    case shelf =>
      rw [show shelfAt (restarted s).shm k = _ from shelfAt_dropClaims hw k]
      cases h : (shelfAt s.shm k).state <;> simp [unclaimed, h, freeShelf]
  case before =>
    show execRestartEffect s = _
    rw [execRestartEffect, if_neg h]

end Sys2Proof.Machine
end

section
/-! The records of a layout load in their order, and the settings: class weights, timings, the lock, ports, routes and
the gate, and the requests of the idle survey (R5, R8, R9, R14, R17, R34, R147, R148, R156, R169, R179, R180). -/
namespace Sys2Proof.Machine

open Sys2Proof

variable {tag : Nat} {s t : State} {st : Status} {p : ReplyPayload}

/-! ## Layout records (R5, R8, R9) -/

section Records

theorem takeRecord_unloaded {x : LayoutRecord} {store : State → Answered} (ho : s.lyt.opState = .unloaded)
    (hx : s.lyt.expected = some .layoutOpen) : takeRecord x store s = ⟨s, .orderSeq, .expected .layoutOpen⟩ := by
  simp [takeRecord, ho, expectedRecord, hx]

theorem takeRecord_running {x : LayoutRecord} {store : State → Answered} (ho : s.lyt.opState = .running) :
    takeRecord x store s = refuse s .wrongState := by
  simp [takeRecord, ho]

theorem takeRecord_unmatched {x y : LayoutRecord} {store : State → Answered} (ho : s.lyt.opState = .loading)
    (hx : s.lyt.expected = some y) (hne : y ≠ x) :
    takeRecord x store s = ⟨{ s with lyt := unloadedLayout s.lyt }, .orderSeq, .expected y⟩ := by
  have hu : s.lyt.expected ≠ some x := by
    rw [hx]
    exact fun e => hne (Option.some.inj e)
  simp only [takeRecord, ho, if_neg hu]
  exact abandonLoad_of_expected hx

/-- The row of a record of a load answers it by R5's rule on that record. -/
theorem exec_record {kind : Nat} {payload : List Byte} {i : Instr} {rec : LayoutRecord}
    (h : requestWaits s kind tag payload) (hi : hostRow kind = some i) (hf : requestFits kind payload = true)
    (hr : recordOf kind payload = some rec) :
    ∃ store, ∀ t st p, takeRecord rec store (popHost s) = ⟨t, st, p⟩ →
      exec i s = .next (placeReply ⟨kind + 0x80, tag, st, p⟩ t) := by
  unfold recordOf at hr
  split at hr
  · obtain rfl := Option.some.inj hi
    obtain rfl := Option.some.inj hr
    obtain ⟨r, hr⟩ := Option.isSome_iff_exists.1 hf
    exact ⟨_, fun _ _ _ ha => congrArg Host.Outcome.next (takeRequest_of_answer (act := defLoop) h hr ha)⟩
  · obtain rfl := Option.some.inj hi
    obtain rfl := Option.some.inj hr
    obtain ⟨r, hr⟩ := Option.isSome_iff_exists.1 hf
    have hb : r.bay = u8 (payload.getD 0 0#8) := by
      unfold decodeBayDef at hr
      split at hr
      · obtain rfl := Option.some.inj hr
        rfl
      · contradiction
    rw [← hb]
    exact ⟨_, fun _ _ _ ha => congrArg Host.Outcome.next (takeRequest_of_answer (act := defBay) h hr ha)⟩
  · obtain rfl := Option.some.inj hi
    obtain rfl := Option.some.inj hr
    obtain ⟨r, hr⟩ := Option.isSome_iff_exists.1 hf
    have hb : r.port = u16 (payload.getD 0 0#8) (payload.getD 1 0#8) := by
      unfold decodePortDef at hr
      split at hr
      · obtain rfl := Option.some.inj hr
        rfl
      · contradiction
    rw [← hb]
    exact ⟨_, fun _ _ _ ha => congrArg Host.Outcome.next (takeRequest_of_answer (act := defPort) h hr ha)⟩
  · obtain rfl := Option.some.inj hi
    obtain rfl := Option.some.inj hr
    obtain ⟨r, hr⟩ := Option.isSome_iff_exists.1 hf
    exact ⟨_, fun _ _ _ ha => congrArg Host.Outcome.next (takeRequest_of_answer (act := closeLayout) h hr ha)⟩
  · contradiction

/-- The check of a BAY_DEF's fields, as R8 has it: the length has 16 bits and the pitch 8. -/
theorem bayFits_iff {r : BayDefReq} (hl : r.length ≤ 65535) (hp : r.rackPitch ≤ 255) :
    bayFits r = true ↔ 16 ≤ r.length ∧ 1 ≤ r.speed ∧ r.speed ≤ 60 ∧ r.rackCount ≤ 64 ∧ r.rackBase ≤ 1023 ∧
      1 ≤ r.rackPitch ∧ 1 ≤ r.rackHandoff ∧ r.rackHandoff ≤ 600 := by
  simp [bayFits, inRange_iff, hl, hp, and_assoc]

theorem u8_le_max (a : Byte) : u8 a ≤ 255 := by
  have ha := a.isLt
  unfold u8
  omega

theorem defBay_stored {r : BayDefReq} (ho : s.lyt.opState = .loading) (hx : s.lyt.expected = some (.bayDef r.bay))
    (hf : bayFits r = true) :
    defBay r s =
      accept
        { s with
          lyt := { s.lyt with
            bays := tblSet s.lyt.bays r.bay (bayRecord r)
            expected := some (if r.bay + 1 < s.lyt.bayCount then .bayDef (r.bay + 1) else afterBays s.lyt) } }
        .none :=
  (takeRecord_of_expected ho hx).trans (if_pos hf)

theorem defBay_refused {r : BayDefReq} (ho : s.lyt.opState = .loading) (hx : s.lyt.expected = some (.bayDef r.bay))
    (hf : ¬ bayFits r = true) : defBay r s = refuse s .badField :=
  (takeRecord_of_expected ho hx).trans (if_neg hf)

theorem portKindOf_iff {n : Nat} {k : PortKind} : portKindOf n = some k ↔ n = 0 ∧ k = .tool ∨ n = 1 ∧ k = .stocker := by
  unfold portKindOf
  split <;> simp_all [eq_comm]

theorem defPort_stored {r : PortDefReq} {k : PortKind} (ho : s.lyt.opState = .loading)
    (hx : s.lyt.expected = some (.portDef r.port)) (hk : portKindOf r.kind = some k) (hb : r.bay < s.lyt.bayCount)
    (hh : inRange 1 600 r.handoff = true) :
    defPort r s =
      accept
        { s with
          lyt := { s.lyt with
            ports := tblSet s.lyt.ports r.port ⟨r.bay, r.coord, r.handoff, k, true⟩
            expected := some (if r.port + 1 < s.lyt.portCount then .portDef (r.port + 1) else .layoutClose) } }
        .none := by
  refine (takeRecord_of_expected ho hx).trans ?_
  simp [hk, hb, hh]

theorem defPort_refused {r : PortDefReq} (ho : s.lyt.opState = .loading) (hx : s.lyt.expected = some (.portDef r.port))
    (hf : ¬(r.bay < s.lyt.bayCount ∧ 1 ≤ r.handoff ∧ r.handoff ≤ 600 ∧ r.kind ≤ 1)) :
    defPort r s = refuse s .badField := by
  refine (takeRecord_of_expected ho hx).trans ?_
  dsimp only
  split
  · next k hk =>
    have hk1 : r.kind ≤ 1 := by
      obtain ⟨h, _⟩ | ⟨h, _⟩ := portKindOf_iff.1 hk <;> omega
    refine if_neg fun hc => hf ?_
    obtain ⟨hb, hh⟩ := Bool.and_eq_true_iff.1 hc
    obtain ⟨h1, h2⟩ := inRange_iff.1 hh
    exact ⟨of_decide_eq_true hb, h1, h2, hk1⟩
  · rfl

/-- Settles O13: a matching record by its own checks, and any other by the operating state. -/
theorem layoutRecordsAreTakenInOrder : Obligations.LayoutRecordsAreTakenInOrder := by
  refine ⟨?bay, ?port, fun s kind tag payload i rec h hi hf hr => ?unmatched⟩
  case bay =>
    intro s tag b l0 l1 v x0 x1 e0 e1 j0 j1 p0 p1 n c0 c1 f0 f1 h t0 t1 hw ho hx
    have fits := bayFits_iff (r := ⟨u8 b, u16 l0 l1, u8 v, u16 x0 x1, u16 e0 e1, u16 j0 j1, u16 p0 p1, u8 n,
      u16 c0 c1, u16 f0 f1, u8 h, u16 t0 t1⟩) (u16_le_max _ _) (u8_le_max _)
    exact ⟨fun hfit => congrArg Host.Outcome.next
        (takeRequest_of_answer (form := decodeBayDef) hw rfl (defBay_stored ho hx (fits.2 hfit))),
      fun hfit => congrArg Host.Outcome.next
        (takeRequest_of_answer (form := decodeBayDef) hw rfl (defBay_refused ho hx (mt fits.1 hfit)))⟩
  case port =>
    intro s tag p0 p1 b c0 c1 h0 h1 k hw ho hx
    refine ⟨fun kind ⟨hb, hl, hh⟩ hk => ?_, fun hf => ?_⟩
    · exact congrArg Host.Outcome.next
        (takeRequest_of_answer (form := decodePortDef) hw rfl
          (defPort_stored (r := ⟨u16 p0 p1, u8 b, u16 c0 c1, u16 h0 h1, u8 k⟩) ho hx (portKindOf_iff.2 hk) hb
            (inRange_iff.2 ⟨hl, hh⟩)))
    · exact congrArg Host.Outcome.next
        (takeRequest_of_answer (form := decodePortDef) hw rfl
          (defPort_refused (r := ⟨u16 p0 p1, u8 b, u16 c0 c1, u16 h0 h1, u8 k⟩) ho hx hf))
  case unmatched =>
    obtain ⟨store, hexec⟩ := exec_record h hi hf hr
    exact ⟨fun ho hx => hexec _ _ _ (takeRecord_unloaded ho hx), fun ho => hexec _ _ _ (takeRecord_running ho),
      fun r ho hx hne => hexec _ _ _ (takeRecord_unmatched ho hx hne)⟩

end Records

/-! ## Lists of entries that each name something of their own -/

section Lists

theorem noRepeat_iff {l : List Nat} : noRepeat l = true ↔ l.Nodup := by
  induction l with
  | nil => simp [noRepeat]
  | cons x xs ih => simp [noRepeat, ih]

theorem entriesFit_iff {known : Nat → Bool} {most : Nat} {names : List Nat} :
    entriesFit known most names = true ↔
      1 ≤ names.length ∧ names.length ≤ most ∧ (∀ n ∈ names, known n = true) ∧ names.Nodup := by
  simp [entriesFit, noRepeat_iff, and_assoc]

variable {σ ε ν : Type} {write : σ → ε → σ} {read : σ → ν} {touches : ε → Prop}

/-- What none of the entries written touches reads as it did. -/
theorem foldl_read_other (hother : ∀ x e, ¬ touches e → read (write x e) = read x) {es : List ε}
    (h : ∀ e ∈ es, ¬ touches e) (x : σ) : read (es.foldl write x) = read x := by
  induction es generalizing x with
  | nil => rfl
  | cons e es ih =>
    exact (ih (fun e he => h e (List.mem_cons_of_mem _ he)) _).trans (hother x e (h e List.mem_cons_self))

/-- What one entry alone touches reads as that entry wrote it, whatever was written before and after. -/
theorem foldl_read_written {I : σ → Prop} {v : ν} {e : ε} (hI : ∀ x e, I x → I (write x e))
    (hother : ∀ x e, ¬ touches e → read (write x e) = read x) (hv : ∀ x, I x → read (write x e) = v) {es : List ε}
    (hpw : es.Pairwise (fun a b => touches a → ¬ touches b)) (he : e ∈ es) (ht : touches e) {x : σ} (hx : I x) :
    read (es.foldl write x) = v := by
  induction es generalizing x with
  | nil => contradiction
  | cons d es ih =>
    obtain ⟨hd, hes⟩ := List.pairwise_cons.1 hpw
    obtain rfl | he := List.mem_cons.1 he
    · exact (foldl_read_other hother (fun b hb => hd b hb ht) _).trans (hv x hx)
    · exact ih hes he (hI x d hx)

/-- Entries of different names do not touch the same thing, where a thing has one name. -/
theorem pairwise_of_nodup {es : List ε} {name : ε → Nat} (hn : (es.map name).Nodup)
    (inj : ∀ a b, touches a → touches b → name a = name b) : es.Pairwise (fun a b => touches a → ¬ touches b) :=
  (List.pairwise_map.1 hn).imp fun hne ha hb => hne (inj _ _ ha hb)

end Lists

/-! ## Class weights (R34) -/

theorem orderClassOf_iff {n : Nat} {c : OrderClass} : orderClassOf n = some c ↔ n = c.code := by
  unfold orderClassOf
  split
  case h_5 => cases c <;> simp_all [OrderClass.code]
  all_goals cases c <;> simp [OrderClass.code]

theorem orderClassOf_isSome {n : Nat} : (orderClassOf n).isSome = true ↔ n ≤ 3 := by
  rw [Option.isSome_iff_exists]
  constructor
  · rintro ⟨c, hc⟩
    rw [orderClassOf_iff.1 hc]
    cases c <;> decide
  · intro h
    interval_cases n <;> exact ⟨_, rfl⟩

theorem putWeight_of {w : Weights} {e : WeightEntry} {c : OrderClass} (h : orderClassOf e.cls = some c) :
    (putWeight w e).of c = ⟨e.base, e.rate⟩ := by
  simp only [putWeight, h]
  cases c <;> rfl

theorem putWeight_of_other {w : Weights} {e : WeightEntry} {c : OrderClass} (h : orderClassOf e.cls ≠ some c) :
    (putWeight w e).of c = w.of c := by
  unfold putWeight
  split
  · next d hd =>
    have hne : d ≠ c := fun he => h (he ▸ hd)
    cases d <;> cases c <;> first | rfl | exact absurd rfl hne
  · rfl

theorem setWeights_fits {es : List WeightEntry} :
    entriesFit (fun c => (orderClassOf c).isSome) 4 (es.map (fun e => e.cls)) = true ↔
      1 ≤ es.length ∧ es.length ≤ 4 ∧ (∀ e ∈ es, e.cls ≤ 3) ∧ (es.map (fun e => e.cls)).Nodup := by
  simp only [entriesFit_iff, orderClassOf_isSome, List.length_map, List.forall_mem_map]

/-- Settles O15: each class reads what its own entry wrote. -/
theorem classWeightsAreSetTogether : Obligations.ClassWeightsAreSetTogether := by
  intro s tag payload es h hd
  constructor
  · intro hfit
    obtain ⟨_, _, _, hnodup⟩ := id hfit
    have apart (c : OrderClass) :
        es.Pairwise (fun a b => orderClassOf a.cls = some c → ¬ orderClassOf b.cls = some c) :=
      pairwise_of_nodup hnodup fun a b ha hb => (orderClassOf_iff.1 ha).trans (orderClassOf_iff.1 hb).symm
    refine ⟨es.foldl putWeight s.ort.weights, fun e he c hc => ?_, fun c hc => ?_, ?_⟩
    · exact foldl_read_written (read := fun w : Weights => w.of c) (I := fun _ => True)
        (touches := fun e => orderClassOf e.cls = some c) (fun _ _ _ => trivial)
        (fun _ _ => putWeight_of_other) (fun _ _ => putWeight_of hc) (apart c) he hc trivial
    · exact foldl_read_other (read := fun w : Weights => w.of c) (fun _ _ => putWeight_of_other) hc _
    · exact congrArg Host.Outcome.next
        (takeRequest_running (act := setWeights) h hd (if_pos (setWeights_fits.2 hfit)))
  · intro hfit
    exact congrArg Host.Outcome.next
      (takeRequest_running (act := setWeights) h hd (if_neg (mt setWeights_fits.1 hfit)))

/-! ## Timings (R39, R102, R179) -/

section Timings

theorem clamp_eq (lo hi v : Nat) (h : lo ≤ hi) : clamp lo hi v = if v < lo then lo else if hi < v then hi else v := by
  simp only [clamp, Nat.max_def, Nat.min_def]
  split_ifs <;> omega

theorem storeSetting_written (s : State) (e : Nat × Nat) (h1 : 1 ≤ e.1) (h2 : e.1 ≤ 15) :
    settingOf (storeSetting s e) e.1 = clampSetting e.1 e.2 := by
  obtain ⟨c, v⟩ := e
  dsimp only at h1 h2
  have on : ∀ n : Nat, (if decide (n ≠ 0) = true then 1 else 0) = clampSetting 10 n := by
    intro n
    simp only [clampSetting, settingRange, decide_eq_true_eq]
    split_ifs <;> omega
  obtain hc | rfl | rfl | hc : c ≤ 9 ∨ c = 10 ∨ c = 11 ∨ 12 ≤ c := by omega
  · interval_cases c <;> exact clamp_eq _ _ _ (by decide)
  · exact on v
  · exact on v
  · interval_cases c <;> exact clamp_eq _ _ _ (by decide)

theorem storeSetting_other (s : State) (e : Nat × Nat) {c : Nat} (h : ¬ e.1 = c) :
    settingOf (storeSetting s e) c = settingOf s c := by
  obtain ⟨d, v⟩ := e
  dsimp only at h
  unfold storeSetting
  split <;> (unfold settingOf; split <;> first | rfl | omega)

/-- What storing settings and acting on them leaves alone: everything but the settings, the flag and the records of
vehicles. -/
structure OnlySettings (s t : State) : Prop where
  liu : t.liu = s.liu
  now : t.now = s.now
  gwrdy : t.gwrdy = s.gwrdy
  pending : t.pending = s.pending
  choices : t.choices = s.choices
  lyt : t.lyt = s.lyt
  ort : t.ort = s.ort
  bays : t.bac.bays = s.bac.bays
  shm : t.shm = s.shm
  iss : t.iss = s.iss
  rescan : t.asa.rescan = s.asa.rescan
  fcr : t.fcr = { s.fcr with tOrphan := t.fcr.tOrphan }

theorem OnlySettings.refl (s : State) : OnlySettings s s := by constructor <;> rfl

theorem OnlySettings.trans {u : State} (h : OnlySettings s t) (k : OnlySettings t u) : OnlySettings s u where
  liu := k.liu.trans h.liu
  now := k.now.trans h.now
  gwrdy := k.gwrdy.trans h.gwrdy
  pending := k.pending.trans h.pending
  choices := k.choices.trans h.choices
  lyt := k.lyt.trans h.lyt
  ort := k.ort.trans h.ort
  bays := k.bays.trans h.bays
  shm := k.shm.trans h.shm
  iss := k.iss.trans h.iss
  rescan := k.rescan.trans h.rescan
  fcr := by
    have e := k.fcr
    rw [h.fcr] at e
    exact e

theorem storeSetting_only (s : State) (e : Nat × Nat) : OnlySettings s (storeSetting s e) := by
  unfold storeSetting
  split <;> constructor <;> rfl

theorem storeSettings_only (es : List (Nat × Nat)) (s : State) : OnlySettings s (es.foldl storeSetting s) := by
  induction es generalizing s with
  | nil => exact .refl s
  | cons e es ih => exact (storeSetting_only s e).trans (ih _)

theorem storeSettings_exam (es : List (Nat × Nat)) (s : State) :
    (es.foldl storeSetting s).asa.examPending = s.asa.examPending := by
  refine foldl_read_other (read := fun s : State => s.asa.examPending) (touches := fun _ => False) (fun s e _ => ?_)
    (fun _ _ => id) s
  unfold storeSetting
  split <;> rfl

theorem storeSettings_vehicles (es : List (Nat × Nat)) (s : State) :
    (es.foldl storeSetting s).vht.vehicles = s.vht.vehicles := by
  refine foldl_read_other (read := fun s : State => s.vht.vehicles) (touches := fun _ => False) (fun s e _ => ?_)
    (fun _ _ => id) s
  unfold storeSetting
  split <;> rfl

/-- Stored settings act on the examination-pending flag and on the idle levels, and on nothing else. -/
theorem settingsAct_eq (old new : State) :
    settingsAct old new =
      { new with
        asa := { new.asa with examPending := new.asa.examPending || grantSettingsChanged old.asa new.asa }
        vht := { new.vht with
          vehicles :=
            if idleSettingsChanged old.vht new.vht = true then
              tblMap (fun _ v => retimed new.vht new.now v) new.vht.vehicles
            else new.vht.vehicles } } := by
  cases hg : grantSettingsChanged old.asa new.asa <;> cases hi : idleSettingsChanged old.vht new.vht <;>
    simp only [settingsAct, hg, hi, setExamIf_true, setExamIf_false, Bool.or_true, Bool.or_false, if_true,
      Bool.false_eq_true, if_false] <;> rfl

theorem settingsAct_only (old new : State) : OnlySettings new (settingsAct old new) := by
  rw [settingsAct_eq]
  constructor <;> rfl

theorem settingOf_settingsAct (old new : State) (c : Nat) : settingOf (settingsAct old new) c = settingOf new c := by
  rw [settingsAct_eq]
  rfl

theorem idleSettingsChanged_eq_false_iff {old t : VehicleTable} :
    idleSettingsChanged old t = false ↔
      t.tPark = old.tPark ∧ t.tDorm = old.tDorm ∧ t.parkOn = old.parkOn ∧ t.dormOn = old.dormOn := by
  simp only [idleSettingsChanged, Bool.or_eq_false_iff, decide_eq_false_iff_not, ne_eq, not_not, and_assoc]
  exact ⟨fun ⟨a, b, c, d⟩ => ⟨a.symm, b.symm, c.symm, d.symm⟩, fun ⟨a, b, c, d⟩ => ⟨a.symm, b.symm, c.symm, d.symm⟩⟩

/-- A vehicle retimed after a change has the level R102 gives it; DORMANT already, it stays so either way. -/
theorem retimed_level {old t : VehicleTable} (h : idleSettingsChanged old t = true) (now : Nat) (v : Vehicle) :
    retimed t now v = { v with idleLevel := retimedLevel old t now v } := by
  have hn : ¬(t.tPark = old.tPark ∧ t.tDorm = old.tDorm ∧ t.parkOn = old.parkOn ∧ t.dormOn = old.dormOn) := by
    rw [← idleSettingsChanged_eq_false_iff, h]
    simp
  have level : (retimed t now v).idleLevel = retimedLevel old t now v := by
    rw [retimedLevel, if_neg hn]
    simp only [retimed, apply_ite Vehicle.idleLevel, dormHolds, parkHolds, Bool.and_eq_true, decide_eq_true_eq,
      and_assoc]
    cases hl : v.idleLevel <;>
      simp only [dormTime, parkTime, satTime, timeMax, ne_eq, reduceCtorEq, not_false_eq_true, not_true_eq_false,
        true_and, false_and, and_false, if_false, ite_self]
  obtain ⟨l, e⟩ := retimed_eq t now v
  rw [← level, e]

theorem retimedLevel_unchanged {old t : VehicleTable} (h : idleSettingsChanged old t = false) (now : Nat)
    (v : Vehicle) : retimedLevel old t now v = v.idleLevel :=
  if_pos (idleSettingsChanged_eq_false_iff.1 h)

theorem settingsAct_vehicles {old new : State} (k : Nat) :
    tblGet (settingsAct old new).vht.vehicles k =
      (tblGet new.vht.vehicles k).map
        (fun v => { v with idleLevel := retimedLevel old.vht (settingsAct old new).vht new.now v }) := by
  have ht : ∀ v, retimedLevel old.vht (settingsAct old new).vht new.now v = retimedLevel old.vht new.vht new.now v := by
    intro v
    rw [settingsAct_eq]
    rfl
  simp only [ht]
  rw [settingsAct_eq]
  cases hc : idleSettingsChanged old.vht new.vht with
  | true =>
    rw [if_pos rfl, tblGet_map]
    exact congrArg (fun f => (tblGet new.vht.vehicles k).map f) (funext (retimed_level hc new.now))
  | false =>
    simp only [retimedLevel_unchanged hc, Bool.false_eq_true, if_false]
    exact Option.map_id'.symm

theorem setTimings_fits {es : List (Nat × Nat)} :
    entriesFit (fun c => decide (1 ≤ c) && decide (c ≤ 15)) 15 (es.map (fun e => e.1)) = true ↔
      1 ≤ es.length ∧ es.length ≤ 15 ∧ (∀ e ∈ es, 1 ≤ e.1 ∧ e.1 ≤ 15) ∧ (es.map (fun e => e.1)).Nodup := by
  simp only [entriesFit_iff, List.length_map, List.forall_mem_map, Bool.and_eq_true, decide_eq_true_eq]

/-- The reply to a TIMING_SET carries every setting under its code (R179). -/
theorem settings_eq (s : State) : settings s = (List.range 15).map (fun c => (c + 1, settingOf s (c + 1))) := rfl

end Timings

/-- Settles O16: each setting reads what its own entry stored, and the settings then act. -/
theorem timingsAreClampedAndStored : Obligations.TimingsAreClampedAndStored := by
  intro s tag payload es h hd
  constructor
  · intro hfit
    obtain ⟨_, _, hcodes, hnodup⟩ := id hfit
    have act := settingOf_settingsAct (popHost s) (es.foldl storeSetting (popHost s))
    have apart (c : Nat) : es.Pairwise (fun a b => a.1 = c → ¬ b.1 = c) :=
      pairwise_of_nodup hnodup fun a b ha hb => ha.trans hb.symm
    have only := (storeSettings_only es (popHost s)).trans
      (settingsAct_only (popHost s) (es.foldl storeSetting (popHost s)))
    refine ⟨placeReply ⟨0x94, tag, .ok, .timing (settings (es.foldl storeSetting (popHost s)))⟩
        (settingsAct (popHost s) (es.foldl storeSetting (popHost s))),
      congrArg Host.Outcome.next (takeRequest_running (act := setTimings) h hd (if_pos (setTimings_fits.2 hfit))),
      fun e he => ?written, fun c hc => ?other, ?lines, only.now, only.gwrdy, only.pending, only.choices, only.lyt,
      only.ort, only.bays, only.shm, only.iss, only.rescan, only.fcr, fun k => ?vehicles, ?exam⟩
    case written =>
      obtain ⟨h1, h2⟩ := hcodes e he
      exact (act e.1).trans (foldl_read_written (read := fun s => settingOf s e.1) (I := fun _ => True)
        (touches := fun d => d.1 = e.1) (fun _ _ _ => trivial) (fun s d => storeSetting_other s d)
        (fun s _ => storeSetting_written s e h1 h2) (apart e.1) he rfl trivial)
    case other =>
      exact (act c).trans (foldl_read_other (read := fun s => settingOf s c) (fun s d => storeSetting_other s d) hc _)
    case lines =>
      have same : settings (settingsAct (popHost s) (es.foldl storeSetting (popHost s))) =
          settings (es.foldl storeSetting (popHost s)) := by
        simp only [settings_eq, act]
      rw [placeReply_liu_congr _ only.liu, ← same]
      rfl
    case vehicles =>
      have e := settingsAct_vehicles (old := popHost s) (new := es.foldl storeSetting (popHost s)) k
      rw [storeSettings_vehicles, (storeSettings_only es (popHost s)).now] at e
      exact e
    case exam =>
      rw [settingsAct_eq]
      show (_ || _) = _
      rw [storeSettings_exam]
      simp only [grantSettingsChanged, popHost_asa, ne_comm, Bool.or_assoc]
      rfl
  · intro hfit
    exact congrArg Host.Outcome.next
      (takeRequest_running (act := setTimings) h hd (if_neg (mt setTimings_fits.1 hfit)))

end Sys2Proof.Machine
end

section
/-! Single settings, the requests of the idle survey, the reserves and the shelves a request declares (R14, R17, R134,
R142, R147, R148, R156, R169, R180). -/
namespace Sys2Proof.Machine

open Sys2Proof

variable {tag : Nat} {s t : State} {st : Status} {p : ReplyPayload}

/-! ## The lock, the ports, the routes and the gate (R14, R17, R46, R169) -/

theorem exec_layoutLock_of_asked {b : Byte} (h : askedRunning s 0x06 tag [b]) :
    exec .layoutLock s = .next (replied 0x06 tag .ok .none { s with lyt := { s.lyt with lock := true } }) :=
  congrArg Host.Outcome.next (takeRequest_running (form := decodeFiller) (act := lockLayout) h rfl rfl)

theorem exec_portState_of_asked {p0 p1 v : Byte} (h : askedRunning s 0x12 tag [p0, p1, v])
    (ha : setPort ⟨u16 p0 p1, u8 v⟩ (popHost s) = ⟨t, st, p⟩) :
    exec .portState s = .next (placeReply ⟨0x92, tag, st, p⟩ t) :=
  congrArg Host.Outcome.next (takeRequest_running (form := decodePortState) (act := setPort) h rfl ha)

theorem flagOf_iff {n : Nat} {b : Bool} : flagOf n = some b ↔ n = 0 ∧ b = false ∨ n = 1 ∧ b = true := by
  unfold flagOf
  split <;> simp_all [eq_comm]

theorem flagOf_eq_none_iff {n : Nat} : flagOf n = none ↔ 2 ≤ n := by
  rcases n with _ | _ | n <;> simp [flagOf]

theorem flagOf_of_le {n : Nat} (h : n ≤ 1) : flagOf n = some (decide (n = 1)) := by
  interval_cases n <;> rfl

theorem le_of_flagOf {n : Nat} {b : Bool} (h : flagOf n = some b) : n ≤ 1 := by
  obtain ⟨rfl, _⟩ | ⟨rfl, _⟩ := flagOf_iff.1 h <;> decide

/-- The examination-pending flag is set where it was or where a change asks for it (R70). -/
theorem setExamIf_eq (b : Bool) (s : State) :
    setExamIf b s = { s with asa := { s.asa with examPending := s.asa.examPending || b } } := by
  cases b <;> simp [setExam]

theorem setPort_set {r : PortStateReq} {x : PortRec} {isOpen : Bool} (hx : tblGet s.lyt.ports r.port = some x)
    (hf : flagOf r.state = some isOpen) :
    setPort r s =
      accept
        { s with
          lyt := { s.lyt with ports := tblSet s.lyt.ports r.port { x with isOpen := isOpen } }
          asa := { s.asa with examPending := s.asa.examPending || (isOpen && !x.isOpen) } }
        (.port r.port { x with isOpen := isOpen }) := by
  simp only [setPort, hx, hf, setExamIf_eq]

theorem setPort_refused {r : PortStateReq} (h : tblGet s.lyt.ports r.port = none ∨ 2 ≤ r.state) :
    setPort r s = refuse s .badField := by
  obtain h | h := h
  · simp [setPort, h]
  · simp [setPort, flagOf_eq_none_iff.2 h]

theorem incidentClassOf_iff {n : Nat} {c : IncidentClass} : incidentClassOf n = some c ↔ n = c.code := by
  unfold incidentClassOf
  split
  case h_13 => cases c <;> simp_all [IncidentClass.code]
  all_goals cases c <;> simp [IncidentClass.code]

theorem incidentClassOf_isSome {n : Nat} : (incidentClassOf n).isSome = true ↔ 1 ≤ n ∧ n ≤ 12 := by
  rw [Option.isSome_iff_exists]
  constructor
  · rintro ⟨c, hc⟩
    rw [incidentClassOf_iff.1 hc]
    cases c <;> decide
  · rintro ⟨h1, h2⟩
    interval_cases n <;> exact ⟨_, rfl⟩

theorem noticeSeverityOf_isSome {n : Nat} : (noticeSeverityOf n).isSome = true ↔ n ≤ 3 := by
  rcases n with _ | _ | _ | _ | n <;> simp [noticeSeverityOf]

theorem putRoute_length (routes : List NoticeSeverity) (e : Nat × Nat) : (putRoute routes e).length = routes.length := by
  unfold putRoute
  split
  · exact List.length_set
  · rfl

theorem putRoute_length_of (es : List (Nat × Nat)) (routes : List NoticeSeverity) :
    (es.foldl putRoute routes).length = routes.length :=
  foldl_read_other (read := List.length) (touches := fun _ => False) (fun x e _ => putRoute_length x e)
    (fun _ _ => id) routes

theorem code_pred_lt (c : IncidentClass) : c.code - 1 < 12 := by
  cases c <;> decide

theorem putRoute_written {routes : List NoticeSeverity} {e : Nat × Nat} {c : IncidentClass} {sev : NoticeSeverity}
    (hl : routes.length = 12) (hc : e.1 = c.code) (hs : noticeSeverityOf e.2 = some sev) :
    (putRoute routes e).getD (c.code - 1) .note = sev := by
  have hlt : c.code - 1 < routes.length := hl ▸ code_pred_lt c
  simp [putRoute, incidentClassOf_iff.2 hc, hs, hlt]

/-- Two classes whose codes differ have their routes apart. -/
theorem putRoute_other {routes : List NoticeSeverity} {e : Nat × Nat} {c : IncidentClass} (hc : ¬ e.1 = c.code) :
    (putRoute routes e).getD (c.code - 1) .note = routes.getD (c.code - 1) .note := by
  unfold putRoute
  split
  · next d sev hd _ =>
    have hd1 := incidentClassOf_iff.1 hd
    have h1 : 1 ≤ d.code := by cases d <;> decide
    have h2 : 1 ≤ c.code := by cases c <;> decide
    have hne : d.code - 1 ≠ c.code - 1 := by omega
    simp [List.getD, List.getElem?_set_ne hne]
  · rfl

theorem setRoutes_fits {es : List (Nat × Nat)} :
    (entriesFit (fun c => (incidentClassOf c).isSome) 12 (es.map (fun e => e.1)) &&
        es.all (fun e => (noticeSeverityOf e.2).isSome)) = true ↔
      1 ≤ es.length ∧ es.length ≤ 12 ∧ (∀ e ∈ es, 1 ≤ e.1 ∧ e.1 ≤ 12 ∧ e.2 ≤ 3) ∧ (es.map (fun e => e.1)).Nodup := by
  simp only [Bool.and_eq_true, entriesFit_iff, List.length_map, List.forall_mem_map, incidentClassOf_isSome,
    List.all_eq_true, noticeSeverityOf_isSome]
  constructor
  · rintro ⟨⟨h1, h2, h3, h4⟩, h5⟩
    exact ⟨h1, h2, fun e he => ⟨(h3 e he).1, (h3 e he).2, h5 e he⟩, h4⟩
  · rintro ⟨h1, h2, h3, h4⟩
    exact ⟨⟨h1, h2, fun e he => ⟨(h3 e he).1, (h3 e he).2.1⟩, h4⟩, fun e he => (h3 e he).2.2⟩

theorem intakeOpen_eq (g n : Nat) : (!intakeClosed g n) = decide (g = 0 ∨ n < g * 32) := by
  rw [Bool.eq_iff_iff]
  simp only [intakeClosed, Bool.not_eq_true', Bool.and_eq_false_iff, decide_eq_false_iff_not, decide_eq_true_eq]
  omega

theorem exec_intakeGate_of_asked {g : Byte} (h : askedRunning s 0x16 tag [g])
    (ha : setGate (u8 g) (popHost s) = ⟨t, st, p⟩) : exec .intakeGate s = .next (placeReply ⟨0x96, tag, st, p⟩ t) :=
  congrArg Host.Outcome.next (takeRequest_running (form := decodeU8) (act := setGate) h rfl ha)

theorem routeNotice_silent {i : Incident} {c : Bool} (h : routeOf s.fcr i.cls = .silent) : routeNotice i c s = s := by
  simp [routeNotice, h]

theorem routeNotice_sent {i : Incident} {c : Bool} (h : routeOf s.fcr i.cls ≠ .silent) :
    routeNotice i c s = queueNotice (.incident (routeOf s.fcr i.cls) i c) s := by
  unfold routeNotice
  split
  · contradiction
  · rfl

/-- Offering an incident to the capture leaves its route (R167). -/
theorem routeOf_captureOffer (f : FaultCapture) (i : Incident) (c : IncidentClass) :
    routeOf (captureOffer f i) c = routeOf f c := by
  rw [routeOf, captureOffer_routes, routeOf]

/-- Settles O17, setting by setting. -/
theorem lockPortsRoutesAndGateAreSet : Obligations.LockPortsRoutesAndGateAreSet := by
  refine ⟨fun s tag b => exec_layoutLock_of_asked, fun s tag p0 p1 v r isOpen h hr hv => ?port,
    fun s tag p0 p1 v h hr => ?badPort, fun s tag payload es h hl hd => ⟨fun hfit => ?routes, fun hfit => ?badRoutes⟩,
    fun s tag g h => ⟨fun hg => ?gate, fun hg => ?badGate⟩, fun i s => ⟨fun hr => ?silent, fun hr => ?sent⟩⟩
  case port => exact exec_portState_of_asked h (setPort_set hr (flagOf_iff.2 hv))
  case badPort => exact exec_portState_of_asked h (setPort_refused hr)
  case routes =>
    obtain ⟨_, _, hcodes, hnodup⟩ := id hfit
    have apart (n : Nat) : es.Pairwise (fun a b => a.1 = n → ¬ b.1 = n) :=
      pairwise_of_nodup hnodup fun a b ha hb => ha.trans hb.symm
    refine ⟨es.foldl putRoute s.fcr.routes, (putRoute_length_of es _).trans hl, fun e he c hc => ?_, fun c hc => ?_, ?_⟩
    · obtain ⟨sev, hs⟩ := Option.isSome_iff_exists.1 (noticeSeverityOf_isSome.2 (hcodes e he).2.2)
      rw [hs]
      exact congrArg some (foldl_read_written (read := fun l : List NoticeSeverity => l.getD (c.code - 1) .note)
        (I := fun l => l.length = 12) (touches := fun e => e.1 = c.code) (fun l e h => (putRoute_length l e).trans h)
        (fun _ _ => putRoute_other) (fun l hl => putRoute_written hl (incidentClassOf_iff.1 hc) hs) (apart c.code) he
        (incidentClassOf_iff.1 hc) hl)
    · exact foldl_read_other (read := fun l : List NoticeSeverity => l.getD (c.code - 1) .note)
        (touches := fun e : Nat × Nat => e.1 = c.code) (fun _ _ => putRoute_other) hc _
    · exact congrArg Host.Outcome.next (takeRequest_running (act := setRoutes) h hd (if_pos (setRoutes_fits.2 hfit)))
  case badRoutes =>
    exact congrArg Host.Outcome.next
      (takeRequest_running (act := setRoutes) h hd (if_neg (mt setRoutes_fits.1 hfit)))
  case gate =>
    rw [← intakeOpen_eq]
    exact exec_intakeGate_of_asked h (if_pos hg)
  case badGate => exact exec_intakeGate_of_asked h (if_neg (Nat.not_le.2 hg))
  case silent => exact routeNotice_silent ((routeOf_captureOffer _ _ _).trans hr)
  case sent =>
    have hr' : routeOf (captureOffer s.fcr i) i.cls ≠ .silent := by rwa [routeOf_captureOffer]
    refine (routeNotice_sent hr').trans ?_
    rw [routeOf_captureOffer]

/-! ## Survey requests (R147, R148, R156) -/

section Survey

theorem surveyModeOf_range {n : Nat} {m : SurveyMode} (h : surveyModeOf n = some m) :
    m.range = true ↔ n = 1 ∨ n = 3 := by
  unfold surveyModeOf at h
  split at h <;> simp_all [SurveyMode.range, eq_comm]
  all_goals subst h; simp

theorem surveyModeOf_isSome {n : Nat} : (surveyModeOf n).isSome = true ↔ n ≤ 3 := by
  rcases n with _ | _ | _ | _ | n <;> simp [surveyModeOf]

/-- The ranges of R147, case 3, by the mode's code. -/
theorem setupFits_iff {l : Layout} {m : SurveyMode} {r : SurveySetupReq} (hm : surveyModeOf r.mode = some m) :
    setupFits l m r = true ↔
      r.first < l.bayCount ∧ (r.mode = 1 ∨ r.mode = 3 → r.last < l.bayCount ∧ r.first ≤ r.last) ∧ r.period ≠ 0 ∧
        r.skipN ≤ 15 ∧ 1 ≤ r.everyM ∧ r.everyM ≤ 16 := by
  rw [← surveyModeOf_range hm]
  cases hr : m.range <;> simp [setupFits, hr, inRange_iff, and_assoc]

/-- The settings of an accepted SURVEY_SETUP; in ARMED the timer restarts or stops, and elsewhere it is kept (R147). -/
theorem retimeSurvey_setUp {r : SurveySetupReq} {m : SurveyMode} (hm : surveyModeOf r.mode = some m) (now : Nat)
    (i : Survey) :
    retimeSurvey now (setUp m (decide (r.aEnable = 1)) (decide (r.bEnable = 1)) r i) =
      { i with
        mode := m, first := r.first, last := if r.mode = 1 ∨ r.mode = 3 then r.last else r.first
        aOn := decide (r.aEnable = 1), aPeriod := r.period, bOn := decide (r.bEnable = 1), skipN := r.skipN
        everyM := r.everyM, skipLeft := r.skipN, stepCount := 0, current := r.first
        timer :=
          if i.state = .armed then
            if r.aEnable = 1 then some { start := now, expiry := min 4294967295 (now + r.period) } else none
          else i.timer } := by
  have hl : (if m.range = true then r.last else r.first) = if r.mode = 1 ∨ r.mode = 3 then r.last else r.first := by
    simp only [surveyModeOf_range hm]
  rw [retimeSurvey, setUp, hl]
  by_cases hs : i.state = .armed
  · rw [if_pos hs, if_pos hs]
    by_cases ha : r.aEnable = 1
    · simp only [surveyTimer, ha, decide_true, if_true, startTimer, satTime, timeMax]
    · simp only [surveyTimer, ha, decide_false, Bool.false_eq_true, if_false]
  · rw [if_neg hs, if_neg hs]

theorem setupSurvey_surveying {r : SurveySetupReq} (h : s.iss.state = .surveying) :
    setupSurvey r s = refuse s .wrongState := if_pos h

theorem setupSurvey_accepts {r : SurveySetupReq} {m : SurveyMode} {a b : Bool} (h : s.iss.state ≠ .surveying)
    (hm : surveyModeOf r.mode = some m) (ha : flagOf r.aEnable = some a) (hb : flagOf r.bEnable = some b)
    (hf : setupFits s.lyt m r = true) :
    setupSurvey r s = surveyAnswer (retimeSurvey s.now (setUp m a b r s.iss)) s := by
  simp [setupSurvey, h, hm, ha, hb, hf]

theorem setupSurvey_refuses {r : SurveySetupReq} (h : s.iss.state ≠ .surveying)
    (hf : ∀ m a b, surveyModeOf r.mode = some m → flagOf r.aEnable = some a → flagOf r.bEnable = some b →
      ¬ setupFits s.lyt m r = true) : setupSurvey r s = refuse s .badField := by
  rw [setupSurvey, if_neg h]
  split
  · next m a b hm ha hb => exact if_neg (hf m a b hm ha hb)
  · rfl

theorem exec_surveySetup_of_asked {m f l a p0 p1 b n e : Byte} (h : askedRunning s 0x3A tag [m, f, l, a, p0, p1, b, n, e])
    (ha : setupSurvey ⟨u8 m, u8 f, u8 l, u8 a, u16 p0 p1, u8 b, u8 n, u8 e⟩ (popHost s) = ⟨t, st, p⟩) :
    exec .surveySetup s = .next (placeReply ⟨0xBA, tag, st, p⟩ t) :=
  congrArg Host.Outcome.next (takeRequest_running (form := decodeSurveySetup) (act := setupSurvey) h rfl ha)

theorem exec_surveyStart_of_asked {b : Byte} (h : askedRunning s 0x3B tag [b])
    (ha : startSurvey () (popHost s) = ⟨t, st, p⟩) : exec .surveyStart s = .next (placeReply ⟨0xBB, tag, st, p⟩ t) :=
  congrArg Host.Outcome.next (takeRequest_running (form := decodeFiller) (act := startSurvey) h rfl ha)

theorem exec_surveyStop_of_asked {b : Byte} (h : askedRunning s 0x3C tag [b])
    (ha : stopSurvey () (popHost s) = ⟨t, st, p⟩) : exec .surveyStop s = .next (placeReply ⟨0xBC, tag, st, p⟩ t) :=
  congrArg Host.Outcome.next (takeRequest_running (form := decodeFiller) (act := stopSurvey) h rfl ha)

theorem startSurvey_idle (h : s.iss.state = .idle) :
    startSurvey () s = surveyAnswer (startPass { resetCounter s.iss with timer := surveyTimer s.now s.iss }) s := by
  simp [startSurvey, h]

theorem startSurvey_armed (h : s.iss.state = .armed) : startSurvey () s = surveyAnswer (startPass s.iss) s := by
  simp [startSurvey, h]

theorem startSurvey_surveying (h : s.iss.state = .surveying) : startSurvey () s = refuse s .wrongState := by
  simp [startSurvey, h]

theorem stopSurvey_idle (h : s.iss.state = .idle) : stopSurvey () s = surveyAnswer s.iss s := by
  simp [stopSurvey, h]

theorem stopSurvey_active (h : s.iss.state ≠ .idle) : stopSurvey () s = surveyAnswer (stopped s.iss) s := by
  unfold stopSurvey
  split
  · contradiction
  · rfl
  · rfl

/-- Settles O35, by the request and the sequencer's state. -/
theorem surveyRequestsByState : Obligations.SurveyRequestsByState := by
  refine ⟨fun s tag m f l a p0 p1 b n e h => ⟨fun hs => ?busy, fun hs hf => ?unfit, fun mode hs hm hf hl hp hn h1 h2 ha hb
    => ?fit⟩, fun s tag b h => ⟨fun hs => ?again, fun hs => ?armed, fun hs => ?idle⟩,
    fun s tag b h => ⟨fun hs => ?atRest, fun hs => ?active⟩⟩
  case busy => exact exec_surveySetup_of_asked h (setupSurvey_surveying hs)
  case unfit =>
    refine exec_surveySetup_of_asked h (setupSurvey_refuses hs fun m' a' b' hm ha hb hfit => hf ?_)
    obtain ⟨h1, h2, h3, h4, h5, h6⟩ := (setupFits_iff hm).1 hfit
    have hm3 := surveyModeOf_isSome.1 (Option.isSome_iff_exists.2 ⟨_, hm⟩)
    exact ⟨hm3, h1, h2, h3, h4, h5, h6, le_of_flagOf ha, le_of_flagOf hb⟩
  case fit =>
    have hset := setupSurvey_accepts (s := popHost s)
      (r := ⟨u8 m, u8 f, u8 l, u8 a, u16 p0 p1, u8 b, u8 n, u8 e⟩) hs hm (flagOf_of_le ha) (flagOf_of_le hb)
      ((setupFits_iff hm).2 ⟨hf, hl, hp, hn, h1, h2⟩)
    rw [retimeSurvey_setUp hm] at hset
    exact ⟨_, rfl, exec_surveySetup_of_asked h hset⟩
  case again => exact exec_surveyStart_of_asked h (startSurvey_surveying hs)
  case armed => exact ⟨_, rfl, exec_surveyStart_of_asked h (startSurvey_armed hs)⟩
  case idle => exact ⟨_, rfl, exec_surveyStart_of_asked h (startSurvey_idle hs)⟩
  case atRest => exact exec_surveyStop_of_asked h (stopSurvey_idle hs)
  case active => exact ⟨_, rfl, exec_surveyStop_of_asked h (stopSurvey_active hs)⟩

end Survey

end Sys2Proof.Machine
end

section
/-! The reserves of a bay and the shelves a request declares (R133, R134, R142). -/
namespace Sys2Proof.Machine

open Sys2Proof

variable {tag : Nat} {s t : State} {st : Status} {p : ReplyPayload}

/-! ## The regions of a rack and their counts (R133, R134) -/

theorem range_filter_lt {m n : Nat} (h : m ≤ n) (q : Nat → Bool) :
    (List.range n).filter (fun i => decide (i < m) && q i) = (List.range m).filter q := by
  obtain ⟨k, rfl⟩ := Nat.exists_eq_add_of_le h
  rw [List.range_add, List.filter_append]
  have below : (List.range m).filter (fun i => decide (i < m) && q i) = (List.range m).filter q :=
    List.filter_congr fun i hi => by simp [List.mem_range.1 hi]
  have above : ((List.range k).map (fun i => m + i)).filter (fun i => decide (i < m) && q i) = [] :=
    List.filter_eq_nil_iff.2 fun i hi => by
      obtain ⟨j, _, rfl⟩ := List.mem_map.1 hi
      simp
  rw [below, above, List.append_nil]

variable {y : BayRec} {r : Reserve}

theorem regionOf_hot {i : Nat} (hi : i < y.rackCount) :
    regionOf y.rackCount r.hot r.empty i = .hotReserve ↔ y.rackCount - r.hot ≤ i ∧ i < y.rackCount := by
  unfold regionOf
  split_ifs <;> simp <;> omega

theorem regionOf_empty {i : Nat} :
    regionOf y.rackCount r.hot r.empty i = .emptyReserve ↔
      y.rackCount - r.hot - r.empty ≤ i ∧ i < y.rackCount - r.hot := by
  unfold regionOf
  split_ifs <;> simp <;> omega

theorem regionOf_general {i : Nat} :
    regionOf y.rackCount r.hot r.empty i = .general ↔ 0 ≤ i ∧ i < y.rackCount - r.hot - r.empty := by
  unfold regionOf
  split_ifs <;> simp <;> omega

/-- The shelves of a region that satisfy `q`, counted over the local indexes it takes up. -/
theorem regionShelves_count {g : Region} {lo hi : Nat} (hhi : hi ≤ y.rackCount)
    (hg : ∀ i, i < y.rackCount → (regionOf y.rackCount r.hot r.empty i = g ↔ lo ≤ i ∧ i < hi)) (q : Nat → Bool) :
    ((regionShelves y r g).filter q).length =
      ((List.range hi).filter (fun i => decide (lo ≤ i) && q (y.rackBase + i))).length := by
  rw [regionShelves, List.filter_map, List.length_map, List.filter_filter, ← range_filter_lt hhi]
  congr 1
  refine List.filter_congr fun i hlt => ?_
  rw [Bool.eq_iff_iff]
  simp only [Function.comp, Bool.and_eq_true, decide_eq_true_eq, hg i (List.mem_range.1 hlt)]
  tauto

theorem countShelves_region {g : Region} {lo hi : Nat} (hhi : hi ≤ y.rackCount)
    (hg : ∀ i, i < y.rackCount → (regionOf y.rackCount r.hot r.empty i = g ↔ lo ≤ i ∧ i < hi)) :
    countShelves s.shm (regionShelves y r g) = countsOf s y lo hi := by
  have count := regionShelves_count (r := r) hhi hg
  simp only [countShelves, countsOf, shelvesWith, count, Bool.decide_and, Bool.decide_eq_false, Bool.decide_eq_true]

/-! ## RESERVE_SET (R134) -/

theorem exec_reserveSet_of_asked {b h e l : Byte} (a : askedRunning s 0x11 tag [b, h, e, l])
    (ha : setReserve ⟨u8 b, u8 h, u8 e, u8 l⟩ (popHost s) = ⟨t, st, p⟩) :
    exec .reserveSet s = .next (placeReply ⟨0x91, tag, st, p⟩ t) :=
  congrArg Host.Outcome.next (takeRequest_running (form := decodeReserveSet) (act := setReserve) a rfl ha)

theorem setReserve_badField {q : ReserveSetReq}
    (h : tblGet s.lyt.bays q.bay = none ∨ s.lyt.bayCount ≤ q.bay ∨ 64 < q.hot ∨ 64 < q.empty ∨ 1 < q.lock) :
    setReserve q s = refuse s .badField := by
  unfold setReserve
  split
  · next y l hy hl =>
    have hl1 := le_of_flagOf hl
    rw [hy] at h
    refine if_pos ?_
    obtain h | h | h | h | h := h
    · contradiction
    · exact .inl h
    · exact .inr (.inl h)
    · exact .inr (.inr h)
    · omega
  · rfl

section Set

variable {q : ReserveSetReq} (hy : tblGet s.lyt.bays q.bay = some y) (hb : q.bay < s.lyt.bayCount) (hh : q.hot ≤ 64)
  (he : q.empty ≤ 64) (hl : q.lock ≤ 1)

include hy hb hh he hl

theorem setReserve_fields :
    setReserve q s =
      if (reserveOf s.shm q.bay).lock then refuse s .locked
      else if y.rackCount < q.hot + q.empty then refuse s .badField
      else
        accept
          (setExamIf (decide ((reserveOf s.shm q.bay).hot ≠ q.hot) || decide ((reserveOf s.shm q.bay).empty ≠ q.empty))
            (putReserve q (decide (q.lock = 1)) s))
          (reserveView (putReserve q (decide (q.lock = 1)) s).shm q.bay y) := by
  have hin : ¬(s.lyt.bayCount ≤ q.bay ∨ 64 < q.hot ∨ 64 < q.empty) := by omega
  simp only [setReserve, hy, flagOf_of_le hl, if_neg hin]

theorem setReserve_locked (hk : (reserveOf s.shm q.bay).lock = true) : setReserve q s = refuse s .locked := by
  rw [setReserve_fields hy hb hh he hl, if_pos hk]

theorem setReserve_tooMany (hk : (reserveOf s.shm q.bay).lock = false) (hn : y.rackCount < q.hot + q.empty) :
    setReserve q s = refuse s .badField := by
  rw [setReserve_fields hy hb hh he hl, hk, if_neg Bool.false_ne_true, if_pos hn]

theorem setReserve_accepts (hk : (reserveOf s.shm q.bay).lock = false) (hn : q.hot + q.empty ≤ y.rackCount) :
    setReserve q s =
      accept
        { s with
          shm := { s.shm with
            reserves := tblSet s.shm.reserves q.bay { hot := q.hot, empty := q.empty, lock := decide (q.lock = 1) } }
          asa := { s.asa with
            examPending :=
              s.asa.examPending || decide ((reserveOf s.shm q.bay).hot ≠ q.hot) ||
                decide ((reserveOf s.shm q.bay).empty ≠ q.empty) } }
        (.reserve q.bay y.rackCount q.hot q.empty (decide (q.lock = 1))
          (countsOf s y (y.rackCount - q.hot) y.rackCount)
          (countsOf s y (y.rackCount - q.hot - q.empty) (y.rackCount - q.hot))
          (countsOf s y 0 (y.rackCount - q.hot - q.empty))) := by
  have hr : reserveOf (putReserve q (decide (q.lock = 1)) s).shm q.bay = ⟨q.hot, q.empty, decide (q.lock = 1)⟩ := by
    simp [reserveOf, putReserve]
  have counts {g : Region} {lo hi : Nat} (hhi : hi ≤ y.rackCount)
      (hg : ∀ i, i < y.rackCount → (regionOf y.rackCount q.hot q.empty i = g ↔ lo ≤ i ∧ i < hi)) :
      countShelves (putReserve q (decide (q.lock = 1)) s).shm
        (regionShelves y ⟨q.hot, q.empty, decide (q.lock = 1)⟩ g) = countsOf s y lo hi :=
    countShelves_region (s := putReserve q (decide (q.lock = 1)) s) hhi hg
  rw [setReserve_fields hy hb hh he hl, hk, if_neg Bool.false_ne_true, if_neg (Nat.not_lt.2 hn), reserveView, hr,
    counts (Nat.le_refl _) (fun _ => regionOf_hot (r := ⟨q.hot, q.empty, false⟩)),
    counts (Nat.sub_le _ _) (fun _ _ => regionOf_empty (r := ⟨q.hot, q.empty, false⟩)),
    counts ((Nat.sub_le _ _).trans (Nat.sub_le _ _)) (fun _ _ => regionOf_general (r := ⟨q.hot, q.empty, false⟩)),
    setExamIf_eq, ← Bool.or_assoc]
  rfl

end Set

/-! ## SHELF_SET (R142) -/

theorem exec_shelfSet_of_asked {payload : List Byte} {r : ShelfSetReq} (a : askedRunning s 0x38 tag payload)
    (hd : decodeShelfSet payload = some r) (ha : declareShelf r (popHost s) = ⟨t, st, p⟩) :
    exec .shelfSet s = .next (placeReply ⟨0xB8, tag, st, p⟩ t) :=
  congrArg Host.Outcome.next (takeRequest_running (act := declareShelf) a hd ha)

/-- What the model reads from a SHELF_SET is what R142 declares. -/
theorem declared_eq (r : ShelfSetReq) : declared r = declaredShelf r := by
  obtain ⟨index, state, flag, tag⟩ := r
  rcases state with _ | _ | _ | state
  · rfl
  · rfl
  · by_cases hf : flag ≤ 1
    · cases tag <;> simp [declared, declaredShelf, flagOf_of_le hf, hf]
    · simp [declared, declaredShelf, flagOf_eq_none_iff.2 (Nat.not_le.1 hf), hf]
  · simp [declared, declaredShelf]

theorem declaredShelf_settled {r : ShelfSetReq} {sh : Shelf} (h : declaredShelf r = some sh) :
    (sh.state = .free ∨ sh.state = .held) ∧ sh.claim = none := by
  unfold declaredShelf at h
  split_ifs at h
  · obtain rfl := Option.some.inj h
    exact ⟨.inl rfl, rfl⟩
  · obtain rfl := Option.some.inj h
    exact ⟨.inr rfl, rfl⟩

theorem tagOnOther_iff {m : ShelfMap} {k : Nat} {x : Option CarrierTag} :
    tagOnOther m k x = true ↔
      ∃ f ∈ m.shelves, f.1 ≠ k ∧ (f.2.state = .held ∨ f.2.state = .outbound) ∧ x ≠ none ∧ f.2.tag = x := by
  simp only [tagOnOther, Bool.and_eq_true, List.any_eq_true, Bool.or_eq_true, decide_eq_true_eq, Option.isSome_iff_ne_none]
  constructor
  · rintro ⟨hx, f, hf, ⟨hk, hs⟩, ht⟩
    exact ⟨f, hf, hk, hs, hx, ht⟩
  · rintro ⟨f, hf, hk, hs, hx, ht⟩
    exact ⟨hx, f, hf, ⟨hk, hs⟩, ht⟩

theorem racked_iff {l : Layout} {k : Nat} : racked l k = false ↔ rackOf l k = none := by
  simp [racked]

variable {q : ShelfSetReq} {sh : Shelf}

theorem declareShelf_badField (h : declaredShelf q = none ∨ 1023 < q.index ∨ rackOf s.lyt q.index = none) :
    declareShelf q s = refuse s .badField := by
  unfold declareShelf
  rw [declared_eq]
  split
  · next x hx =>
    rw [hx] at h
    obtain h | h := h
    · contradiction
    · exact if_pos (h.imp id racked_iff.2)
  · rfl

section Declare

variable {e : Nat × BayRec} (hd : declaredShelf q = some sh) (hi : q.index ≤ 1023) (hr : rackOf s.lyt q.index = some e)

include hd hi hr

theorem declareShelf_declared :
    declareShelf q s =
      if (shelfAt s.shm q.index).state = .inbound ∨ (shelfAt s.shm q.index).state = .outbound then refuse s .tooLate
      else if tagOnOther s.shm q.index sh.tag then refuse s .duplicate
      else accept (setShelf q.index sh s) (.shelfSet q.index (shelfView (setShelf q.index sh s) q.index)) := by
  have hin : ¬(1023 < q.index ∨ racked s.lyt q.index = false) := by
    rw [racked_iff, hr]
    simp [hi]
  simp only [declareShelf, declared_eq, hd, if_neg hin]

theorem declareShelf_tooLate (h : (shelfAt s.shm q.index).state = .inbound ∨ (shelfAt s.shm q.index).state = .outbound) :
    declareShelf q s = refuse s .tooLate := by
  rw [declareShelf_declared hd hi hr, if_pos h]

variable (hu : (shelfAt s.shm q.index).state = .free ∨ (shelfAt s.shm q.index).state = .held)

include hu

theorem declareShelf_unclaimed :
    declareShelf q s =
      if tagOnOther s.shm q.index sh.tag then refuse s .duplicate
      else accept (setShelf q.index sh s) (.shelfSet q.index (shelfView (setShelf q.index sh s) q.index)) := by
  have hn : ¬((shelfAt s.shm q.index).state = .inbound ∨ (shelfAt s.shm q.index).state = .outbound) := by
    obtain hu | hu := hu <;> simp [hu]
  rw [declareShelf_declared hd hi hr, if_neg hn]

theorem declareShelf_duplicate (h : tagOnOther s.shm q.index sh.tag = true) :
    declareShelf q s = refuse s .duplicate := by
  rw [declareShelf_unclaimed hd hi hr hu, if_pos h]

theorem declareShelf_accepts (h : ¬ tagOnOther s.shm q.index sh.tag = true) :
    declareShelf q s = accept (setShelf q.index sh s) (.shelfSet q.index { shelf := sh, claimTag := none }) := by
  have hv : shelfView (setShelf q.index sh s) q.index = { shelf := sh, claimTag := none } := by
    rw [shelfView, setShelf_at, if_pos rfl, (declaredShelf_settled hd).2, hostTagAt]
  rw [declareShelf_unclaimed hd hi hr hu, if_neg h, hv]

end Declare

/-- A shelf written: the flag is set where a racked one becomes FREE or HELD by it (R132). -/
theorem setShelf_eq (k : Nat) (sh : Shelf) (s : State) :
    setShelf k sh s =
      { s with
        shm := { s.shm with
          shelves := if sh = freeShelf then tblErase s.shm.shelves k else tblSet s.shm.shelves k sh }
        asa := { s.asa with
          examPending :=
            s.asa.examPending || (decide (sh ≠ shelfAt s.shm k) && racked s.lyt k &&
              (decide (sh.state = .free) || decide (sh.state = .held))) } } :=
  setExamIf_eq _ _

/-- Settles O19, by the cases of R134 and of R142. -/
theorem reservesAndShelvesAreSet : Obligations.ReservesAndShelvesAreSet := by
  refine ⟨fun s tag b h e l a => ⟨fun hbad => ?badField, fun y hy hb hh he hl =>
      ⟨fun hk => ?locked, fun hk hn => ?tooMany, fun hk hn => ?reserve⟩⟩,
    fun s tag payload r a hd => ⟨fun hbad => ?badShelf, fun sh e hsh hi hr =>
      ⟨fun hc => ?tooLate, fun hu hother => ?duplicate, fun hu hother => ?shelf⟩⟩⟩
  case badField => exact exec_reserveSet_of_asked a (setReserve_badField hbad)
  case locked => exact exec_reserveSet_of_asked a (setReserve_locked hy hb hh he hl hk)
  case tooMany => exact exec_reserveSet_of_asked a (setReserve_tooMany hy hb hh he hl hk hn)
  case reserve => exact exec_reserveSet_of_asked a (setReserve_accepts hy hb hh he hl hk hn)
  case badShelf => exact exec_shelfSet_of_asked a hd (declareShelf_badField hbad)
  case tooLate => exact exec_shelfSet_of_asked a hd (declareShelf_tooLate hsh hi hr hc)
  case duplicate =>
    exact exec_shelfSet_of_asked a hd (declareShelf_duplicate hsh hi hr hu (tagOnOther_iff.2 hother))
  case shelf =>
    have hn : ¬ tagOnOther s.shm r.index sh.tag = true := by
      rw [tagOnOther_iff]
      rintro ⟨f, hf, hk, hs, hx, ht⟩
      exact hother f hf hk hs hx ht
    refine ⟨_, exec_shelfSet_of_asked a hd (declareShelf_accepts hsh hi hr hu hn), ?_, ?_, fun k hk => ?_, ?_, ?_⟩
    · simp only [setShelf_eq]
      rfl
    · exact (setShelf_at _ _ _ _).trans (if_pos rfl)
    · exact (setShelf_at _ _ _ _).trans (if_neg hk)
    · simp only [placeReply_shm, setShelf_eq]
      rfl
    · have hracked : racked s.lyt r.index = true := by simp [racked, hr]
      have hstate : (decide (sh.state = .free) || decide (sh.state = .held)) = true := by
        simpa using (declaredShelf_settled hsh).1
      simp only [placeReply_asa, setShelf_eq, popHost_asa, popHost_lyt, popHost_shm, hracked, hstate, Bool.and_true] <;> rfl

end Sys2Proof.Machine
end

section
/-! What a bay that grants from its queue makes of the state, and BAY_TUNE (R116 to R118). -/
namespace Sys2Proof.Machine

open Sys2Proof

variable {s t : State} {b : Nat}

/-! ## Steps that send fleet commands and do nothing else (R177) -/

/-- A step that changes the fleet output queue alone, by what the lines, the pin and the vehicle table hold. -/
structure SendsOnly (f : State → State) : Prop where
  only : ∀ s, f s = { s with liu := { s.liu with fleetOut := (f s).liu.fleetOut } }
  sent : ∀ s t : State, s.liu.fleetOut = t.liu.fleetOut → s.gwrdy = t.gwrdy → s.vht = t.vht →
    (f s).liu.fleetOut = (f t).liu.fleetOut

namespace SendsOnly

variable {f g : State → State}

theorem id : SendsOnly id := ⟨fun _ => rfl, fun _ _ h _ _ => h⟩

theorem gwrdy (h : SendsOnly f) (s : State) : (f s).gwrdy = s.gwrdy := by rw [h.only s]
theorem vht (h : SendsOnly f) (s : State) : (f s).vht = s.vht := by rw [h.only s]
theorem bac (h : SendsOnly f) (s : State) : (f s).bac = s.bac := by rw [h.only s]
theorem ort (h : SendsOnly f) (s : State) : (f s).ort = s.ort := by rw [h.only s]
theorem asa (h : SendsOnly f) (s : State) : (f s).asa = s.asa := by rw [h.only s]
theorem now (h : SendsOnly f) (s : State) : (f s).now = s.now := by rw [h.only s]
theorem notices (h : SendsOnly f) (s : State) : (f s).liu.notices = s.liu.notices := by rw [h.only s]

theorem liu (h : SendsOnly f) (s : State) : (f s).liu = { s.liu with fleetOut := (f s).liu.fleetOut } := by
  rw [h.only s]

theorem same (h : SendsOnly f) (s t : State) (hl : s.liu = t.liu) (hp : s.gwrdy = t.gwrdy) (hv : s.vht = t.vht) :
    (f s).liu = (f t).liu := by
  rw [h.liu s, h.liu t, hl, h.sent s t (by rw [hl]) hp hv]

theorem framed (h : SendsOnly f) (s : State) : Framed s (f s) := by
  rw [h.only s]
  constructor <;> rfl

theorem comp (hg : SendsOnly g) (hf : SendsOnly f) : SendsOnly (fun s => g (f s)) where
  only s := by
    show g (f s) = _
    rw [hg.only (f s)]
    rw [hf.only s]
  sent s t hl hp hv := hg.sent _ _ (hf.sent s t hl hp hv) (by rw [hf.gwrdy, hf.gwrdy, hp]) (by rw [hf.vht, hf.vht, hv])

/-- A reply does not read the fleet output queue. -/
theorem replied (h : SendsOnly f) (kind tag : Nat) (st : Status) (p : ReplyPayload) (s : State) :
    (Machine.replied kind tag st p (f s)).liu =
      { (Machine.replied kind tag st p s).liu with fleetOut := (f s).liu.fleetOut } := by
  rw [h.only s]
  rfl

end SendsOnly

theorem issue_sendsOnly (x : Nat) (c : CommandBody) : SendsOnly (issue x c) where
  only s := by
    unfold issue
    split <;> rfl
  sent s t hl hp _ := by
    unfold issue
    rw [hl, hp]
    split
    · rfl
    · exact hl

theorem issueTo_sendsOnly (slot : Nat) (c : CommandBody) : SendsOnly (issueTo slot c) where
  only s := by
    unfold issueTo
    split
    · exact (issue_sendsOnly _ c).only s
    · rfl
  sent s t hl hp hv := by
    unfold issueTo
    rw [hv]
    split
    · exact (issue_sendsOnly _ c).sent s t hl hp hv
    · exact hl

theorem grantsSent_sendsOnly (b : Nat) (ws : List Waiting) : SendsOnly (grantsSent b ws) := by
  induction ws with
  | nil => exact .id
  | cons w ws ih => exact ih.comp (issueTo_sendsOnly w.slot (.entryGrant b))

/-! ## A bay changed (R125) -/

/-- A change of a bay writes its record, with the yield timer that follows. -/
theorem updBay_of_get {f : BayState → BayState} {y : BayState} (hy : tblGet s.bac.bays b = some y) :
    updBay b f s = withBay b { f y with yield := yieldAfter s.now s.bac.tYield y (f y) } s := by
  simp only [updBay, hy, withBay]

@[simp] theorem withBay_get_self (y : BayState) (s : State) : tblGet (withBay b y s).bac.bays b = some y :=
  tblGet_set_self _ _ _

theorem withBay_others (y : BayState) (s : State) : otherBaysKept b s (withBay b y s) :=
  fun _ hc => tblGet_set_other _ _ hc

/-! ## Grants from a queue (R118) -/

/-- The bay `b` that stood as `y` has granted to the first `n` of its queue between `s` and `t`: this and nothing else,
but for its yield timer. -/
structure GrantedFirst (b n : Nat) (y : BayState) (s t : State) : Prop where
  only : t =
    { s with
      liu := { s.liu with fleetOut := t.liu.fleetOut }
      bac := { s.bac with bays := t.bac.bays } }
  bay : ∃ z, tblGet t.bac.bays b = some z ∧ z.capacity = y.capacity ∧ z.soft = y.soft ∧ z.quota = y.quota ∧
    z.isOpen = y.isOpen ∧ z.admitted = y.admitted ++ (y.queue.take n).map (fun w => grantedEntry s w.slot) ∧
    z.queue = y.queue.drop n
  bays : otherBaysKept b s t
  lines : t.liu = (grantsSent b (y.queue.take n) s).liu

theorem GrantedFirst.none {y : BayState} (hy : tblGet s.bac.bays b = some y) : GrantedFirst b 0 y s s where
  only := rfl
  bay := ⟨y, hy, rfl, rfl, rfl, rfl, by simp, by simp⟩
  bays := fun _ _ => rfl
  lines := rfl

theorem hasRoom_iff {y : BayState} : y.hasRoom = true ↔ y.isOpen = true ∧ y.admitted.length < y.capacity := by
  simp [BayState.hasRoom]

theorem grantCount_eq_zero {y : BayState} (h : y.hasRoom = false ∨ y.queue = []) : grantCount y = 0 := by
  unfold grantCount
  obtain h | h := h
  · cases ho : y.isOpen with
    | false => rfl
    | true =>
      have hn : ¬ y.admitted.length < y.capacity := by simpa [BayState.hasRoom, ho] using h
      simp only [if_true]
      omega
  · simp [h]

/-- The bay after the grant to the head of its queue. -/
def headGranted (s : State) (y : BayState) (w : Waiting) (rest : List Waiting) : BayState :=
  { y with admitted := y.admitted ++ [grantedEntry s w.slot], queue := rest }

theorem grantCount_headGranted {y : BayState} {w : Waiting} {rest : List Waiting} (hq : y.queue = w :: rest)
    (hr : y.hasRoom = true) : grantCount y = grantCount (headGranted s y w rest) + 1 := by
  obtain ⟨ho, hn⟩ := hasRoom_iff.1 hr
  simp only [grantCount, headGranted, ho, hq, if_true, List.length_cons, List.length_append, List.length_nil]
  omega

/-- A grant to the head: its bay's record is written, and ENTRY_GRANT is sent. -/
theorem grantHead_of_room {y : BayState} {w : Waiting} {rest : List Waiting} (hy : tblGet s.bac.bays b = some y)
    (hq : y.queue = w :: rest) (hr : y.hasRoom = true) :
    ∃ x, grantHead b s =
      issueTo w.slot (.entryGrant b) (withBay b { headGranted s y w rest with yield := x } s) := by
  have h2 (u : State) (v : BayState) (hu : tblGet u.bac.bays b = some v) :
      ∃ x, grantEntry b w.slot u =
        issueTo w.slot (.entryGrant b)
          (withBay b { v with admitted := v.admitted ++ [grantedEntry u w.slot], yield := x } u) := by
    rw [grantEntry, updBay_of_get hu]
    exact ⟨_, rfl⟩
  obtain ⟨x, hx⟩ := h2 (updBay b (fun y => { y with queue := rest }) s) _
    (by rw [updBay_of_get hy]; exact withBay_get_self _ _)
  refine ⟨x, ?_⟩
  simp only [grantHead, hy, hq, hr, if_true]
  rw [hx, updBay_of_get hy]
  simp only [withBay, tblSet_set]
  rfl

theorem grantHead_of_none {y : BayState} (hy : tblGet s.bac.bays b = some y) (h : y.hasRoom = false ∨ y.queue = []) :
    grantHead b s = s := by
  simp only [grantHead, hy]
  split
  · next w rest hq =>
    obtain h | h := h
    · simp [h]
    · rw [hq] at h
      contradiction
  · rfl

theorem grantHeads_of_none {n : Nat} (h : grantHead b s = s) : grantHeads n b s = s := by
  induction n with
  | zero => rfl
  | succ n ih => rw [grantHeads, h, ih]

/-- Grants in a row stop where the bay is full or closed or its queue is empty. -/
theorem grantHeads_granted (n : Nat) {y : BayState} (hy : tblGet s.bac.bays b = some y) :
    GrantedFirst b (min n (grantCount y)) y s (grantHeads n b s) := by
  induction n generalizing s y with
  | zero =>
    rw [Nat.zero_min]
    exact .none hy
  | succ n ih =>
    by_cases hroom : y.hasRoom = false ∨ y.queue = []
    · rw [grantCount_eq_zero hroom, Nat.min_zero, grantHeads_of_none (grantHead_of_none hy hroom)]
      exact .none hy
    · obtain ⟨hr, hq⟩ := not_or.1 hroom
      obtain ⟨w, rest, hq⟩ := List.exists_cons_of_ne_nil hq
      have hr : y.hasRoom = true := by simpa using hr
      obtain ⟨x, hx⟩ := grantHead_of_room hy hq hr
      have hsend := issueTo_sendsOnly w.slot (.entryGrant b)
      have hcount : grantCount y = grantCount { headGranted s y w rest with yield := x } + 1 :=
        grantCount_headGranted hq hr
      have hmin : min (n + 1) (grantCount y) = min n (grantCount { headGranted s y w rest with yield := x }) + 1 := by
        omega
      have hy1 : tblGet (grantHead b s).bac.bays b = some { headGranted s y w rest with yield := x } := by
        rw [hx, hsend.bac]
        exact withBay_get_self _ _
      have later := ih hy1
      rw [hmin]
      rw [hx] at later hy1
      rw [grantHeads, hx]
      have hnow : (issueTo w.slot (.entryGrant b) (withBay b { headGranted s y w rest with yield := x } s)).now = s.now :=
        hsend.now _
      have hgrant : (issueTo w.slot (.entryGrant b)
          (withBay b { headGranted s y w rest with yield := x } s)).bac.tGrant = s.bac.tGrant := by
        rw [hsend.bac]
        rfl
      generalize hu : issueTo w.slot (.entryGrant b) (withBay b { headGranted s y w rest with yield := x } s) = u at *
      have only1 : u = { s with
          liu := { s.liu with fleetOut := u.liu.fleetOut }, bac := { s.bac with bays := u.bac.bays } } := by
        have e := hsend.only (withBay b { headGranted s y w rest with yield := x } s)
        rw [hu] at e
        rw [e]
        rfl
      have entries (k : Nat) : grantedEntry u k = grantedEntry s k := by
        simp only [grantedEntry, timerFrom, hnow, hgrant]
      obtain ⟨z, hz, h1, h2, h3, h4, h5, h6⟩ := later.bay
      refine ⟨?_, ⟨z, hz, h1, h2, h3, h4, ?_, ?_⟩, fun c hc => ?_, ?_⟩
      · rw [later.only, only1]
      · simp only [h5, headGranted, hq, List.take_succ_cons, List.map_cons, List.append_assoc, List.singleton_append,
          entries]
      · simp only [h6, headGranted, hq, List.drop_succ_cons]
      · rw [later.bays c hc, ← hu, hsend.bac]
        exact withBay_others _ s c hc
      · rw [later.lines, hq, List.take_succ_cons]
        refine (grantsSent_sendsOnly b _).same _ _ ?_ ?_ ?_
        · rw [← hu]
          exact hsend.same _ _ rfl rfl rfl
        · rw [only1, hsend.gwrdy]
        · rw [only1, hsend.vht]

/-- A bay grants from its queue until it is full, closed or its queue is empty (R118). -/
theorem grantQueue_granted {y : BayState} (hy : tblGet s.bac.bays b = some y) :
    GrantedFirst b (grantCount y) y s (grantQueue b s) := by
  have hle : grantCount y ≤ y.queue.length := by
    unfold grantCount
    split
    · exact Nat.min_le_left _ _
    · exact Nat.zero_le _
  have e := grantHeads_granted (s := s) y.queue.length hy
  rw [Nat.min_eq_right hle] at e
  simpa only [grantQueue, hy] using e

/-! ## A place given up (R118, R122, R123) -/

theorem leaveBay_of_entry {slot : Nat} {a : Admitted} (ha : entryIn s.bac b slot = some a) :
    leaveBay b slot s =
      setExam (updBay b (fun y => { y with admitted := y.admitted.filter (fun e => e.slot != slot) }) s) := by
  simp only [leaveBay, ha]

/-- A bay grants from its queue after a place in it has been given up and `void` has been sent. -/
theorem placeGivenUp_of_granted {slot : Nat} {y : BayState} {a : Admitted} {void : State → State}
    (hv : SendsOnly void) (hy : tblGet s.bac.bays b = some y) (ha : entryIn s.bac b slot = some a) :
    PlaceGivenUp b { y with admitted := y.admitted.filter (fun e => e.slot != slot) } void s
      (grantQueue b (void (leaveBay b slot s))) := by
  obtain ⟨x, hx⟩ : ∃ x, leaveBay b slot s =
      setExam (withBay b { y with admitted := y.admitted.filter (fun e => e.slot != slot), yield := x } s) :=
    ⟨_, by rw [leaveBay_of_entry ha, updBay_of_get hy]⟩
  rw [hx]
  generalize hu : setExam (withBay b { y with admitted := y.admitted.filter (fun e => e.slot != slot), yield := x } s) = u
  have hub : tblGet (void u).bac.bays b =
      some { y with admitted := y.admitted.filter (fun e => e.slot != slot), yield := x } := by
    rw [hv.bac, ← hu]
    exact withBay_get_self _ _
  have g := grantQueue_granted hub
  have count : grantCount { y with admitted := y.admitted.filter (fun e => e.slot != slot), yield := x } =
      grantCount { y with admitted := y.admitted.filter (fun e => e.slot != slot) } := rfl
  have entries (k : Nat) : grantedEntry (void u) k = grantedEntry s k := by
    simp only [grantedEntry, timerFrom, hv.now, hv.bac, ← hu]
    rfl
  obtain ⟨z, hz, h1, h2, h3, h4, h5, h6⟩ := g.bay
  simp only [entries] at h5
  have only : grantQueue b (void u) =
      { s with
        liu := { s.liu with fleetOut := (grantQueue b (void u)).liu.fleetOut }
        bac := { s.bac with bays := (grantQueue b (void u)).bac.bays }
        asa := { s.asa with examPending := true } } := by
    have e := g.only
    rw [hv.only u] at e
    rw [hv.only u, e, ← hu]
    rfl
  refine ⟨?_, ⟨z, hz, h1, h2, h3, h4, h5, h6⟩, fun c hc => ?_, ?_, by rw [only], by rw [only]; exact ⟨rfl, rfl, rfl, rfl⟩⟩
  · rw [only]
    constructor <;> rfl
  · rw [g.bays c hc, hv.bac, ← hu]
    exact withBay_others _ s c hc
  · rw [g.lines, count]
    refine (grantsSent_sendsOnly b _).same _ _ (hv.same _ _ ?_ ?_ ?_) ?_ ?_
    · rw [← hu]
      rfl
    · rw [← hu]
      rfl
    · rw [← hu]
      rfl
    · rw [hv.gwrdy, hv.gwrdy, ← hu]
      rfl
    · rw [hv.vht, hv.vht, ← hu]
      rfl

/-! ## BAY_TUNE (R116, R117) -/

section Tune

variable {r : BayTuneReq} {y : BayState}

theorem tuneFits_iff : tuneFits r = true ↔
    (∀ c, r.capacity = some c → 1 ≤ c ∧ c ≤ 32) ∧ r.soft ≠ some 0 ∧ (∀ f, r.openFlag = some f → f ≤ 1) := by
  have hflag (f : Nat) : (flagOf f).isSome = true ↔ f ≤ 1 := by
    rw [← Option.ne_none_iff_isSome, ne_eq, flagOf_eq_none_iff]
    omega
  unfold tuneFits
  cases r.capacity <;> cases r.openFlag <;> simp [inRange_iff, hflag, and_assoc]

/-- A carried open flag opens or closes the bay; without one it stays as it is. -/
theorem tunedOpen_iff (hf : ∀ f, r.openFlag = some f → f ≤ 1) :
    (r.openFlag = none → tunedOpen r y = y.isOpen) ∧ ∀ f, r.openFlag = some f → (tunedOpen r y = true ↔ f = 1) := by
  constructor
  · intro h
    simp [tunedOpen, h]
  · intro f h
    simp [tunedOpen, h, flagOf_of_le (hf f h)]

theorem bayTune_refused
    (h : tblGet s.bac.bays r.bay = none ∨ s.lyt.bayCount ≤ r.bay ∨ (∃ c, r.capacity = some c ∧ (c = 0 ∨ 32 < c)) ∨
      r.soft = some 0 ∨ (∃ f, r.openFlag = some f ∧ 1 < f)) : bayTune r s = refuse s .badField := by
  unfold bayTune
  split
  · next y hy =>
    rw [hy] at h
    refine if_pos ?_
    by_cases hb : s.lyt.bayCount ≤ r.bay
    · exact .inl hb
    · refine .inr (Bool.eq_false_iff.2 fun hfit => ?_)
      obtain ⟨h1, h2, h3⟩ := tuneFits_iff.1 hfit
      obtain h | h | ⟨c, hc, h⟩ | h | ⟨f, hf, h⟩ := h
      · contradiction
      · exact hb h
      · have := h1 c hc
        omega
      · exact h2 h
      · have := h3 f hf
        omega
  · rfl

theorem bayTune_accepts (hy : tblGet s.bac.bays r.bay = some y) (hb : r.bay < s.lyt.bayCount)
    (hf : tuneFits r = true) :
    bayTune r s = accept (tuneBay r y s) (bayView (tuneBay r y s) r.bay) := by
  have hin : ¬(s.lyt.bayCount ≤ r.bay ∨ tuneFits r = false) := by
    simp [hf, hb]
  simp only [bayTune, hy, if_neg hin]

/-- How many a bay grants after its settings went from those of `y` to those of `z` (R117). -/
def grantsAfter (y z : BayState) : Nat :=
  if y.capacity < z.capacity ∨ (y.isOpen = false ∧ z.isOpen = true) then
    grantCount { y with capacity := z.capacity, isOpen := z.isOpen }
  else 0

/-- The flag after a bay's settings went from those of `y` to those of `z` (R117). -/
def tuneFlag (y z : BayState) : Bool := (!y.isOpen && z.isOpen) || decide (y.soft ≠ z.soft)

theorem tuneBay_eq (hy : tblGet s.bac.bays r.bay = some y) :
    ∃ x u, u = withBay r.bay { tuned r y with yield := x } s ∧
      ∃ v, GrantedFirst r.bay (grantsAfter y (tuned r y)) { tuned r y with yield := x } u v ∧
        tuneBay r y s = setExamIf (tuneFlag y (tuned r y)) v := by
  refine ⟨yieldAfter s.now s.bac.tYield y (tuned r y), _, rfl, _, ?_, by rw [tuneBay, tuneActs, updBay_of_get hy]; rfl⟩
  split
  · next h =>
    rw [grantsAfter, if_pos h]
    have g := grantQueue_granted (b := r.bay)
      (withBay_get_self { tuned r y with yield := yieldAfter s.now s.bac.tYield y (tuned r y) } s)
    exact g
  · next h =>
    rw [grantsAfter, if_neg h]
    exact .none (withBay_get_self _ _)

end Tune

theorem exec_bayTune_of_asked {tag : Nat} {payload : List Byte} {r : BayTuneReq} {st : Status} {p : ReplyPayload}
    (h : askedRunning s 0x10 tag payload) (hd : decodeBayTune payload = some r)
    (ha : bayTune r (popHost s) = ⟨t, st, p⟩) : exec .bayTune s = .next (placeReply ⟨0x90, tag, st, p⟩ t) :=
  congrArg Host.Outcome.next (takeRequest_running (act := bayTune) h hd ha)

/-- The reply of a BAY_TUNE carries the bay as it stands, its vehicles by their fleet ids (R116). -/
theorem bayView_of_get {z : BayState} (hz : tblGet s.bac.bays b = some z) :
    bayView s b =
      .bay z.capacity z.soft z.quota z.isOpen
        (z.admitted.map (fun a => (memberId s a.slot, a.inside, a.entryTime)))
        (z.queue.map (fun w => (memberId s w.slot, w.hot, w.askedAt))) := by
  simp only [bayView, hz]
  rfl

/-- Settles O18: the bay with the values stored, and then the grants that they allow. -/
theorem bayTuneStoresItsValues : Obligations.BayTuneStoresItsValues := by
  intro s tag payload r h hd
  refine ⟨fun y hy hb hc hs hf => ?accepted, fun hbad => exec_bayTune_of_asked h hd (bayTune_refused hbad)⟩
  have hfit := tuneFits_iff.2 ⟨hc, hs, hf⟩
  obtain ⟨hkeep, hset⟩ := tunedOpen_iff (y := y) hf
  obtain ⟨x, u, hu, v, g, e⟩ := tuneBay_eq (s := popHost s) (r := r) hy
  obtain ⟨z, hz, h1, h2, h3, h4, h5, h6⟩ := g.bay
  have hv : v =
      { popHost s with
        liu := { (popHost s).liu with fleetOut := v.liu.fleetOut }
        bac := { s.bac with bays := v.bac.bays } } := by
    rw [g.only, hu]
    rfl
  have hview : bayView (tuneBay r y (popHost s)) r.bay =
      .bay z.capacity z.soft z.quota z.isOpen
        (z.admitted.map (fun a => (memberId s a.slot, a.inside, a.entryTime)))
        (z.queue.map (fun w => (memberId s w.slot, w.hot, w.askedAt))) := by
    have hz' : tblGet (tuneBay r y (popHost s)).bac.bays r.bay = some z := by
      rw [e, setExamIf_eq]
      exact hz
    rw [bayView_of_get hz', e, setExamIf_eq, hv]
    rfl
  have hentry (k : Nat) : grantedEntry u k = grantedEntry s k := by
    rw [hu]
    rfl
  have hcount : grantsAfter y (tuned r y) =
      if y.capacity < z.capacity ∨ (y.isOpen = false ∧ z.isOpen = true) then
        grantCount { y with capacity := z.capacity, isOpen := z.isOpen }
      else 0 := by
    rw [grantsAfter, h1, h4]
  refine ⟨_, z, _, exec_bayTune_of_asked h hd (bayTune_accepts hy hb hfit), ?_, h1, h2.trans ?_, h3.trans ?_,
    fun hn => h4.trans (hkeep hn), fun f hf => by rw [h4]; exact hset f hf, hcount, ?_, h6, fun c hc => ?_, ?_⟩
  · rw [e, setExamIf_eq]
    exact hz
  · rw [h1]
    rfl
  · rw [h1]
    rfl
  · simp only [hentry] at h5
    exact h5
  · rw [e, setExamIf_eq]
    exact (g.bays c hc).trans (hu ▸ withBay_others _ (popHost s) c hc)
  · refine ⟨?_, ?_⟩
    · have sends := grantsSent_sendsOnly r.bay (y.queue.take (grantsAfter y (tuned r y)))
      have hsent : v.liu.fleetOut = (grantsSent r.bay (y.queue.take (grantsAfter y (tuned r y))) s).liu.fleetOut := by
        rw [g.lines]
        exact sends.sent _ _ (by rw [hu]; rfl) (by rw [hu]; rfl) (by rw [hu]; rfl)
      rw [hview, e, setExamIf_eq, sends.replied, ← hsent, hv]
      rfl
    · rw [e, setExamIf_eq, hv]
      refine ⟨rfl, rfl, rfl, rfl, rfl, rfl, ?_, rfl⟩
      have ho : (tuned r y).isOpen = z.isOpen := h4.symm
      have hso : (tuned r y).soft = z.soft := h2.symm
      simp only [tuneFlag, ho, hso, Bool.and_comm, ← Bool.or_assoc]
      rfl

end Sys2Proof.Machine
end

section
/-! Requests on orders by the order's state: cancelling, demands, queries, and what the end of an order makes of its
batch (R48, R52, R60, R63 to R65, R67). -/
namespace Sys2Proof.Machine

open Sys2Proof

variable {s t : State} {tag h : Nat} {o : Order} {st : Status} {p : ReplyPayload}

/-! ## Moves that keep the order's vehicle (R49) -/

section Moves

variable {f : Order → Order} {why : OrderReason}

theorem leaveState_of_ne {now : Nat} (hq : o.state ≠ .queued) : leaveState now o = o := by
  simp [leaveState, hq]

/-- An order on the way to QUEUED or between other states, its host tag and its vehicle kept (R32, R49). -/
theorem moveOrder_kept (ho : tblGet s.ort.orders h = some o) (hq : o.state ≠ .queued) (ht : (f o).hostTag = o.hostTag)
    (hl : (f o).loc = o.loc) (st : OrderState) :
    OrderStepped h o (enterState s.now st (f o)) why s (moveOrder h f st why none s) := by
  have he : (enterState s.now st (f o)).hostTag = o.hostTag ∧ (enterState s.now st (f o)).loc = o.loc := by
    unfold enterState
    split <;> exact ⟨ht, hl⟩
  have e := moveOrder_stepped (s := s) ho f st why none
  rw [leaveState_of_ne hq] at e
  refine e he.1 ?_
  rw [he.2]
  exact carrierId_eq s o

/-- A move to a state other than QUEUED writes the state alone. -/
theorem enterState_of_ne {now : Nat} {st : OrderState} (hq : st ≠ .queued) : enterState now st o = { o with state := st } := by
  simp [enterState, hq]

theorem updOrder_of_get (ho : tblGet s.ort.orders h = some o) : updOrder h f s = putOrder h (f o) s := by
  simp only [updOrder, ho]

@[simp] theorem putOrder_get_self (q : Order) (s : State) : tblGet (putOrder h q s).ort.orders h = some q :=
  tblGet_set_self _ _ _

/-- The end of an order does not tell the record it had from one just written. -/
theorem OrderEnded.of_putOrder {q : Order} {st : OrderState} {why : EndReason}
    (e : OrderEnded h o st why (putOrder h q s) t) : OrderEnded h o st why s t where
  framed := Framed.trans (by constructor <;> rfl) e.framed
  record := e.record
  others := fun k hk => (e.others k hk).trans (tblGet_set_other _ _ hk)
  vehicles := e.vehicles
  shelves := e.shelves
  batches := e.batches
  lines := by
    rw [e.lines]
    unfold endNotices
    have same : batchClosed (putOrder h q s) o = batchClosed s o := rfl
    rw [same]
    cases batchClosed s o with
    | none => exact queueNotice_liu_congr _ rfl
    | some x => exact queueNotice_liu_congr _ (queueNotice_liu_congr _ rfl)
  kept := e.kept
  exam := e.exam

end Moves

/-! ## ORDER_CANCEL (R52, R60) -/

section Cancel

theorem exec_orderCancel_of_asks (a : asksOrder s 0x23 tag h o []) (ha : cancelOrder h o (popHost s) = ⟨t, st, p⟩) :
    exec .orderCancel s = .next (placeReply ⟨0xA3, tag, st, p⟩ t) :=
  congrArg Host.Outcome.next (takeRequest_onOrder (act := cancelOrder) a ha)

theorem cancelOrder_waiting (hs : o.state = .queued ∨ o.state = .held ∨ o.state = .served) :
    cancelOrder h o s = accept (endOrder h .cancelled .cancelledByHost s) .none := by
  obtain hs | hs | hs := hs <;> simp [cancelOrder, hs]

theorem cancelOrder_assigned (hs : o.state = .assigned) :
    cancelOrder h o s = accept (endOrder h .cancelled .cancelledByHost (sendRecall h s)) .none := by
  simp [cancelOrder, hs]

theorem cancelOrder_toSource (hs : o.state = .toSource) : cancelOrder h o s = accept (cancelling h o s) .none := by
  simp [cancelOrder, hs]

theorem cancelOrder_cancelling (hs : o.state = .cancelling) : cancelOrder h o s = accept s .none := by
  simp [cancelOrder, hs]

theorem cancelOrder_late
    (hs : o.state = .picking ∨ o.state = .carrying ∨ o.state = .placing ∨ o.state = .suspended ∨ o.state.live = false) :
    cancelOrder h o s = refuse s .tooLate := by
  obtain hs | hs | hs | hs | hs := hs
  case inr.inr.inr.inr => obtain hs | hs | hs := live_eq_false_iff.1 hs <;> simp [cancelOrder, hs]
  all_goals simp [cancelOrder, hs]

/-- The end of an order over a reply: the reply is there first (R175). -/
theorem ended_under_reply {st : OrderState} (ho : tblGet s.ort.orders h = some o) (hst : st ≠ .queued) (why : EndReason)
    (r : Reply) : OrderEnded h o st why (placeReply r s) (placeReply r (endOrder h st why s)) :=
  (endOrder_ended ho hst why).placeReply r

/-- The end of a recalled order: RECALL is sent first (R50, R52). -/
theorem recalled_ended_under_reply {slot : Nat} {i : LayerId} {v : Vehicle} {st : OrderState}
    (ho : tblGet s.ort.orders h = some o) (hl : o.loc = some (slot, i)) (hv : tblGet s.vht.vehicles slot = some v)
    (hst : st ≠ .queued) (why : EndReason) (r : Reply) :
    OrderEnded h o st why (issue v.fleetId (.recall h i) (placeReply r s))
      (placeReply r (endOrder h st why (sendRecall h s))) := by
  rw [sendRecall_eq_issue ho hl hv, ← issue_placeReply]
  exact ended_under_reply (by rw [issue_ort]; exact ho) hst why r

theorem sendAbort_eq_issue {slot : Nat} {i : LayerId} {v : Vehicle} (hl : o.loc = some (slot, i))
    (hv : tblGet s.vht.vehicles slot = some v) : sendAbort h o s = issue v.fleetId (.abort h) s := by
  simp [sendAbort, issueTo, fleetIdAt, hl, hv]

/-- One ABORT for a cancelled order: none where one is awaited already (R60). -/
theorem cancelling_stepped {slot : Nat} {i : LayerId} {v : Vehicle} (ho : tblGet s.ort.orders h = some o)
    (hs : o.state = .toSource) (hl : o.loc = some (slot, i)) (hv : tblGet s.vht.vehicles slot = some v) :
    OrderStepped h o { o with state := .cancelling, abortPending := false } .none
      (if o.abortPending = true then s else issue v.fleetId (.abort h) s) (cancelling h o s) := by
  rw [cancelling, sendAbort_eq_issue hl hv]
  have ho' : tblGet (if o.abortPending = true then s else issue v.fleetId (.abort h) s).ort.orders h = some o := by
    split
    · exact ho
    · rw [issue_ort]
      exact ho
  exact moveOrder_kept (f := fun o => { o with abortPending := false }) ho' (by simp [hs]) rfl rfl .cancelling

/-- Settles O24, by the order's state. -/
theorem cancelByState : Obligations.CancelByState := by
  intro s tag h o a
  have ho := asksOrder_record a
  refine ⟨fun hs => ?waiting, fun slot i v hs hl hv _ => ?assigned, fun slot i v hs hl hv => ?toSource, fun hs => ?cancelling,
    fun hs => ?late⟩
  case waiting =>
    exact ⟨_, exec_orderCancel_of_asks a (cancelOrder_waiting hs), ended_under_reply ho (by decide) _ _⟩
  case assigned =>
    exact ⟨_, exec_orderCancel_of_asks a (cancelOrder_assigned hs),
      recalled_ended_under_reply (s := popHost s) ho hl hv (by decide) _ _⟩
  case toSource =>
    refine ⟨_, exec_orderCancel_of_asks a (cancelOrder_toSource hs), ?_⟩
    have e := (cancelling_stepped (s := popHost s) ho hs hl hv).placeReply ⟨0xA3, tag, .ok, .none⟩
    rwa [apply_ite (placeReply _), issue_placeReply] at e
  case cancelling => exact exec_orderCancel_of_asks a (cancelOrder_cancelling hs)
  case late => exact exec_orderCancel_of_asks a (cancelOrder_late hs)

end Cancel

/-! ## Standing demands (R63 to R65) -/

section Demands

theorem exec_demandAck_of_asks {x : Byte} (a : asksOrder s 0x28 tag h o [x])
    (ha : ackDemand h (u8 x) o (popHost s) = ⟨t, st, p⟩) : exec .demandAck s = .next (placeReply ⟨0xA8, tag, st, p⟩ t) :=
  congrArg Host.Outcome.next
    (takeRequest_named (form := decodeDemandAck) (ref := OrderNumReq.order)
      (act := fun r => ackDemand r.order.handle r.value) a
      fun b t0 t1 t2 t3 hb => ⟨⟨⟨u8 b, u32 t0 t1 t2 t3⟩, u8 x⟩, rfl, by rw [hb], by rw [hb]; exact ha⟩)

theorem exec_demandDrop_of_asks (a : asksOrder s 0x29 tag h o []) (ha : dropDemand h o (popHost s) = ⟨t, st, p⟩) :
    exec .demandDrop s = .next (placeReply ⟨0xA9, tag, st, p⟩ t) :=
  congrArg Host.Outcome.next (takeRequest_onOrder (act := dropDemand) a ha)

variable {x : Nat}

theorem ackDemand_badValue (hx : 2 ≤ x) : ackDemand h x o s = refuse s .badField := by
  simp [ackDemand, flagOf_eq_none_iff.2 hx]

theorem ackDemand_once (hx : x ≤ 1) (ht : o.trigger = .once) : ackDemand h x o s = refuse s .wrongState := by
  simp [ackDemand, flagOf_of_le hx, ht]

theorem ackDemand_unserved (hx : x ≤ 1) (hs : o.state ≠ .served) (hl : o.state.live = true) :
    ackDemand h x o s = refuse s .wrongState := by
  by_cases ht : o.trigger = .once <;> simp [ackDemand, flagOf_of_le hx, ht, hs, hl]

theorem ackDemand_terminal (hx : x ≤ 1) (ht : o.trigger = .standing) (hl : o.state.live = false) :
    ackDemand h x o s = refuse s .tooLate := by
  have hs : o.state ≠ .served := fun e => by simp [e, OrderState.live] at hl
  simp [ackDemand, flagOf_of_le hx, ht, hs, hl]

theorem ackDemand_set (hx : x = 1) (ht : o.trigger = .standing) (hs : o.state = .served) :
    ackDemand h x o s = accept (moveOrder h newInstance .queued .none none s) .none := by
  subst hx
  simp [ackDemand, flagOf, ht, hs]

theorem ackDemand_clear (hx : x = 0) (ht : o.trigger = .standing) (hs : o.state = .served) :
    ackDemand h x o s =
      accept (endOrder h .done .withdrawn (updOrder h (fun o => { o with asserted := false }) s)) .none := by
  subst hx
  simp [ackDemand, flagOf, ht, hs]

theorem dropDemand_once (ht : o.trigger = .once) : dropDemand h o s = refuse s .wrongState := by
  simp [dropDemand, ht]

section Standing

variable (ht : o.trigger = .standing)

include ht

theorem dropDemand_waiting (hs : o.state = .queued ∨ o.state = .held ∨ o.state = .served) :
    dropDemand h o s = accept (endOrder h .done .withdrawn s) .none := by
  obtain hs | hs | hs := hs <;> simp [dropDemand, ht, hs]

theorem dropDemand_assigned (hs : o.state = .assigned) :
    dropDemand h o s = accept (endOrder h .done .withdrawn (sendRecall h s)) .none := by
  simp [dropDemand, ht, hs]

theorem dropDemand_moving
    (hs : o.state = .toSource ∨ o.state = .picking ∨ o.state = .carrying ∨ o.state = .placing ∨
      o.state = .cancelling ∨ o.state = .suspended) :
    dropDemand h o s = accept (updOrder h (fun o => { o with asserted := false }) s) .none := by
  obtain hs | hs | hs | hs | hs | hs := hs <;> simp [dropDemand, ht, hs]

theorem dropDemand_terminal (hl : o.state.live = false) : dropDemand h o s = refuse s .tooLate := by
  obtain hs | hs | hs := live_eq_false_iff.1 hl <;> simp [dropDemand, ht, hs]

end Standing

/-- Settles O30, by trigger and state. -/
theorem demandsAreAcknowledgedAndDropped : Obligations.DemandsAreAcknowledgedAndDropped := by
  refine ⟨fun s tag h o x a hx => ⟨fun ht => ?once, fun ht hs hl => ?unserved, fun ht hl => ?terminal, fun ht hs h1 => ?set,
      fun ht hs h0 => ?clear⟩, fun s tag h o x a hx => exec_demandAck_of_asks a (ackDemand_badValue hx),
    fun s tag h o a => ⟨fun ht => ?dropOnce, fun ht => ⟨fun hs => ?dropWaiting, fun slot i v hs hl hv _ => ?dropAssigned,
      fun hs => ?dropMoving, fun hl => ?dropTerminal⟩⟩⟩
  case once => exact exec_demandAck_of_asks a (ackDemand_once hx ht)
  case unserved => exact exec_demandAck_of_asks a (ackDemand_unserved hx hs hl)
  case terminal => exact exec_demandAck_of_asks a (ackDemand_terminal hx ht hl)
  case set =>
    exact ⟨_, exec_demandAck_of_asks a (ackDemand_set h1 ht hs),
      (moveOrder_kept (f := newInstance) (asksOrder_record a) (by simp [hs]) rfl rfl .queued).placeReply _⟩
  case clear =>
    refine ⟨_, exec_demandAck_of_asks a (ackDemand_clear h0 ht hs), ?_⟩
    rw [updOrder_of_get (asksOrder_record a)]
    have e := ended_under_reply (h := h) (st := .done) (putOrder_get_self { o with asserted := false } (popHost s)) (by decide)
      .withdrawn ⟨0xA8, tag, .ok, .none⟩
    exact OrderEnded.of_putOrder (q := { o with asserted := false }) e
  case dropOnce => exact exec_demandDrop_of_asks a (dropDemand_once ht)
  case dropWaiting =>
    exact ⟨_, exec_demandDrop_of_asks a (dropDemand_waiting ht hs), ended_under_reply (asksOrder_record a) (by decide) _ _⟩
  case dropAssigned =>
    exact ⟨_, exec_demandDrop_of_asks a (dropDemand_assigned ht hs),
      recalled_ended_under_reply (asksOrder_record a) hl hv (by decide) _ _⟩
  case dropMoving =>
    have e := exec_demandDrop_of_asks a (dropDemand_moving ht hs)
    rw [updOrder_of_get (asksOrder_record a)] at e
    exact e
  case dropTerminal => exact exec_demandDrop_of_asks a (dropDemand_terminal ht hl)

end Demands

/-! ## Orders and batches by name (R32, R48, R67) -/

section Names

/-- A request that names no order is answered NOT_FOUND, whatever its own rule is (R48). -/
theorem takeRequest_unnamed {α : Type} {kind : Nat} {payload : List Byte} {form : List Byte → Option α}
    {ref : α → OrderRef} {act : α → Order → State → Answered} {r : α} (a : askedRunning s kind tag payload)
    (hf : form payload = some r)
    (hn : ∀ o, tblGet s.ort.orders (ref r).handle = some o → o.hostTag ≠ (ref r).hostTag) :
    takeRequest kind form (whenRunning (fun r => onOrder (ref r) (act r))) s = replied kind tag .notFound .none s := by
  have hnone : namedOrder s.ort (ref r) = none := by
    unfold namedOrder
    split
    · next o ho => exact if_neg (hn o ho)
    · rfl
  have ha : onOrder (ref r) (act r) (popHost s) = refuse (popHost s) .notFound := by
    simp only [onOrder, popHost_ort, hnone]
  exact takeRequest_running (act := fun r => onOrder (ref r) (act r)) a hf ha

section Refs

variable {b t0 t1 t2 t3 : Byte} {extra : List Byte}

theorem decodeOrderRef_ref {r : OrderRef} (h : decodeOrderRef (b :: t0 :: t1 :: t2 :: t3 :: extra) = some r) :
    r = ⟨u8 b, u32 t0 t1 t2 t3⟩ := by
  unfold decodeOrderRef at h
  split at h <;> cases h
  next e =>
    cases e
    rfl

theorem decodeOrderRetarget_ref {r : OrderRetargetReq}
    (h : decodeOrderRetarget (b :: t0 :: t1 :: t2 :: t3 :: extra) = some r) : r.order = ⟨u8 b, u32 t0 t1 t2 t3⟩ := by
  unfold decodeOrderRetarget at h
  split at h <;> cases h
  next e =>
    cases e
    rfl

theorem decodeOrderResource_ref {r : OrderNumReq}
    (h : decodeOrderResource (b :: t0 :: t1 :: t2 :: t3 :: extra) = some r) : r.order = ⟨u8 b, u32 t0 t1 t2 t3⟩ := by
  unfold decodeOrderResource at h
  split at h <;> cases h
  next e =>
    cases e
    rfl

theorem decodeDemandAck_ref {r : OrderNumReq}
    (h : decodeDemandAck (b :: t0 :: t1 :: t2 :: t3 :: extra) = some r) : r.order = ⟨u8 b, u32 t0 t1 t2 t3⟩ := by
  unfold decodeDemandAck at h
  split at h <;> cases h
  next e =>
    cases e
    rfl

end Refs

theorem closeBatch_closed {k : Nat} {b : Batch} (hb : tblGet s.ort.batches k = some b) (h0 : b.openCount = 0) :
    closeBatch k s =
      queueNotice (.batchDone k b.total b.failed) { s with ort := { s.ort with batches := tblErase s.ort.batches k } } := by
  simp only [closeBatch, hb, h0, if_true]

theorem closeBatch_open {k : Nat} (h : ∀ b, tblGet s.ort.batches k = some b → b.openCount ≠ 0) : closeBatch k s = s := by
  unfold closeBatch
  split
  · next b hb => exact if_neg (h b hb)
  · rfl

/-- The end of a batch's last open order closes its entry, and touches no other (R67). -/
theorem OrderEnded.closes {st : OrderState} {why : EndReason} {k : Nat} {b : Batch} (e : OrderEnded h o st why s t)
    (hk : o.batchTag = some k) (hb : tblGet s.ort.batches k = some b) (h1 : b.openCount = 1) :
    tblGet t.ort.batches k = none ∧ (∀ j, j ≠ k → tblGet t.ort.batches j = tblGet s.ort.batches j) ∧
      t.liu =
        (queueNotice (.batchDone k b.total (if st = .failed then b.failed + 1 else b.failed))
          (queueNotice (.orderState h o.hostTag o.state st s.now (.ended why) (vehicleOf s o)) s)).liu := by
  have hle : b.openCount ≤ 1 := Nat.le_of_eq h1
  refine ⟨?_, fun j hj => ?_, ?_⟩
  · rw [e.batches, if_pos hk, hb]
    exact if_pos hle
  · rw [e.batches, hk, if_neg fun x => hj (Option.some.inj x).symm]
  · rw [e.lines, endNotices]
    simp only [batchClosed, hk, hb, if_pos hle, batchCounted]

theorem queryBatch_found {k : Nat} {b : Batch} (hb : tblGet s.ort.batches k = some b) :
    queryBatch k s = accept s (.batch b.openCount b.failed b.total) := by
  simp only [queryBatch, hb]

theorem queryBatch_free {k : Nat} (hb : tblGet s.ort.batches k = none) : queryBatch k s = refuse s .notFound := by
  simp only [queryBatch, hb]

/-- Settles O22, request by request, and by what the end of an order leaves of its batch. -/
theorem ordersAndBatchesAreNamed : Obligations.OrdersAndBatchesAreNamed := by
  refine ⟨fun s kind tag payload i b t0 t1 t2 t3 extra a h1 h2 hi hf hp hn => ?unnamed, fun s tag h o a => ?query,
    fun s tag k0 k1 a => ⟨fun b hb => ?batch, fun hb => ?noBatch⟩, fun s k => ⟨fun b hb h0 => ?closed, fun hb => ?unclosed⟩,
    fun s tag h o k b a hs hk hb h1 => ?cancelled, fun s h o k b st why ho hst hk hb h1 => ?ended⟩
  case unnamed =>
    subst hp
    have named (r : OrderRef) (e : r = ⟨u8 b, u32 t0 t1 t2 t3⟩) :
        ∀ o, tblGet s.ort.orders r.handle = some o → o.hostTag ≠ r.hostTag := by
      rw [e]
      exact hn
    interval_cases kind <;> obtain rfl := Option.some.inj hi <;>
      obtain ⟨r, hr⟩ := Option.isSome_iff_exists.1 hf
    -- Of the nine kinds, the fourth, fifth and eighth carry more than the order's name.
    on_goal 8 => exact congrArg Host.Outcome.next (takeRequest_unnamed a hr (named _ (decodeDemandAck_ref hr)))
    on_goal 5 => exact congrArg Host.Outcome.next (takeRequest_unnamed a hr (named _ (decodeOrderResource_ref hr)))
    on_goal 4 => exact congrArg Host.Outcome.next (takeRequest_unnamed a hr (named _ (decodeOrderRetarget_ref hr)))
    all_goals
      exact congrArg Host.Outcome.next (takeRequest_unnamed (ref := fun r => r) a hr (named _ (decodeOrderRef_ref hr)))
  case query =>
    rw [← carrierId_eq]
    exact congrArg Host.Outcome.next (takeRequest_onOrder (act := queryOrder) a rfl)
  case batch =>
    exact congrArg Host.Outcome.next
      (takeRequest_running (form := decodeU16) (act := queryBatch) a rfl (queryBatch_found (s := popHost s) hb))
  case noBatch =>
    exact congrArg Host.Outcome.next
      (takeRequest_running (form := decodeU16) (act := queryBatch) a rfl (queryBatch_free (s := popHost s) hb))
  case closed =>
    refine ⟨_, congrArg Host.Outcome.next (closeBatch_closed hb h0), ?_, fun j hj => ?_, ?_⟩
    · rw [queueNotice_eq]
      exact tblGet_erase_self _ _
    · rw [queueNotice_eq]
      exact tblGet_erase_other _ hj
    · congr 1
      rw [queueNotice_eq]
  case unclosed => exact congrArg Host.Outcome.next (closeBatch_open hb)
  case cancelled =>
    have e := ended_under_reply (s := popHost s) (st := .cancelled) (asksOrder_record a) (by decide) .cancelledByHost
      ⟨0xA3, tag, .ok, .none⟩
    exact ⟨_, exec_orderCancel_of_asks a (cancelOrder_waiting hs), e.closes hk hb h1⟩
  case ended =>
    have hst' : st ≠ .queued := fun e => by simp [e, OrderState.live] at hst
    exact (endOrder_ended ho hst' why).closes hk hb h1

end Names

end Sys2Proof.Machine
end

section
/-! ORDER_RETARGET and ORDER_RESOURCE (R37, R61, R62, R162, R164). -/
namespace Sys2Proof.Machine

open Sys2Proof

variable {s t : State} {tag h : Nat} {o : Order} {st : Status} {p : ReplyPayload}

/-! ## The refusals of ORDER_RETARGET (R61) -/

theorem exec_orderRetarget_of_asks {e d0 d1 : Byte} (a : asksOrder s 0x24 tag h o [e, d0, d1])
    (ha : retargetOrder h ⟨u8 e, u16 d0 d1⟩ o (popHost s) = ⟨t, st, p⟩) :
    exec .orderRetarget s = .next (placeReply ⟨0xA4, tag, st, p⟩ t) :=
  congrArg Host.Outcome.next
    (takeRequest_named (form := decodeOrderRetarget) (ref := OrderRetargetReq.order)
      (act := fun r => retargetOrder r.order.handle r.dest) a
      fun b t0 t1 t2 t3 hb => ⟨⟨⟨u8 b, u32 t0 t1 t2 t3⟩, endpointField e d0 d1⟩, rfl, by rw [hb], by rw [hb]; exact ha⟩)

theorem mismatched_iff : o.mismatched = true ↔ o.state = .suspended ∧ o.suspendReason = some .mismatch := by
  simp [Order.mismatched]

theorem mismatched_of_ne (hs : o.state ≠ .suspended) : o.mismatched = false := by
  simp [Order.mismatched, hs]

section Refusals

variable {f : EndpointField}

theorem retargetOrder_unmoved (hk : o.kind = .supplyEmpty ∨ o.trigger = .standing) :
    retargetOrder h f o s = refuse s .wrongState := if_pos hk

variable (hk : o.kind ≠ .supplyEmpty) (ht : o.trigger = .once)

include hk ht

theorem retargetOrder_refused {status : Status} (hr : retargetRefusal o = some status) :
    retargetOrder h f o s = refuse s status := by
  simp [retargetOrder, hk, ht, hr]

theorem retargetOrder_formed {x : RetargetTo} (hr : retargetRefusal o = none) (hf : retargetForm s.lyt o f = some x) :
    retargetOrder h f o s = retargetTo h o x s := by
  simp [retargetOrder, hk, ht, hr, hf]

theorem retargetOrder_badForm (hr : retargetRefusal o = none) (hf : retargetForm s.lyt o f = none) :
    retargetOrder h f o s = refuse s .badField := by
  simp [retargetOrder, hk, ht, hr, hf]

end Refusals

theorem retargetRefusal_late (hs : o.state = .placing ∨ o.state = .cancelling ∨ o.state.live = false) :
    retargetRefusal o = some .tooLate := by
  obtain hs | hs | hs := hs
  case inr.inr => obtain hs | hs | hs := live_eq_false_iff.1 hs <;> simp [retargetRefusal, hs]
  all_goals simp [retargetRefusal, hs]

theorem retargetRefusal_suspended (hs : o.state = .suspended) (hr : o.suspendReason ≠ some .mismatch) :
    retargetRefusal o = some .wrongState := by
  simp [retargetRefusal, hs, hr]

theorem retargetRefusal_none
    (hs : o.state = .queued ∨ o.state = .held ∨ o.state = .assigned ∨ o.state = .toSource ∨ o.state = .picking ∨
      o.state = .carrying ∨ (o.state = .suspended ∧ o.suspendReason = some .mismatch)) : retargetRefusal o = none := by
  obtain hs | hs | hs | hs | hs | hs | ⟨hs, hr⟩ := hs
  case inr.inr.inr.inr.inr.inr => simp [retargetRefusal, hs, hr]
  all_goals simp [retargetRefusal, hs]

theorem retargetForm_none {l : Layout} {f : EndpointField}
    (hm : o.state = .suspended → o.suspendReason = some .mismatch)
    (h : ¬((f.type = 0 ∧ f.number < l.portCount ∧ o.source ≠ some (.port f.number)) ∨
      (f.type = 1 ∧ o.state = .suspended ∧ o.dest = some (.shelf f.number)) ∨
      (f.type = 2 ∧ f.number < l.bayCount ∧ o.kind = .store ∧ (o.state = .queued ∨ o.state = .held) ∧
        o.dest = none))) : retargetForm l o f = none := by
  obtain ⟨ty, n⟩ := f
  obtain ⟨h0, h1, h2⟩ := by simpa only [not_or] using h
  rcases ty with _ | _ | _ | ty
  · exact if_neg fun hc => h0 ⟨rfl, hc⟩
  · exact if_neg fun hc => h1 ⟨rfl, (mismatched_iff.1 hc.1).1, hc.2⟩
  · exact if_neg fun hc => h2 ⟨rfl, hc⟩
  · rfl

/-- Settles O25, check by check. -/
theorem retargetChecksInOrder : Obligations.RetargetChecksInOrder := by
  intro s tag h o e d0 d1 a
  refine ⟨fun hk => exec_orderRetarget_of_asks a (retargetOrder_unmoved hk), fun hk ht => ⟨fun hs => ?late,
    fun hs hr => ?suspended, fun hs hf => ?form⟩⟩
  case late => exact exec_orderRetarget_of_asks a (retargetOrder_refused hk ht (retargetRefusal_late hs))
  case suspended => exact exec_orderRetarget_of_asks a (retargetOrder_refused hk ht (retargetRefusal_suspended hs hr))
  case form =>
    have hm : o.state = .suspended → o.suspendReason = some .mismatch := by
      intro hsus
      obtain hs | hs | hs | hs | hs | hs | ⟨_, hr⟩ := hs
      case inr.inr.inr.inr.inr.inr => exact hr
      all_goals simp [hs] at hsus
    exact exec_orderRetarget_of_asks a
      (retargetOrder_badForm hk ht (retargetRefusal_none hs) (retargetForm_none (f := ⟨u8 e, u16 d0 d1⟩) hm hf))

/-! ## An order rewritten among shelves and commands -/

/-- Order `h` has been written as `p` between `s` and `t`, after the shelves went as in `u` and `f` was sent: this and
nothing else, but for the rescan timer and the examination-pending flag. -/
structure OrderRewritten (h : Nat) (p : Order) (f : State → State) (s u t : State) : Prop where
  framed : Framed s t
  lines : t.liu = (f s).liu
  record : tblGet t.ort.orders h = some p
  others : otherOrdersKept h s t
  shelves : t.shm = u.shm
  kept : t.vht = s.vht ∧ t.bac = s.bac ∧ t.fcr = s.fcr ∧ t.ort.batches = s.ort.batches
  exam : s.asa.examPending = true → t.asa.examPending = true

theorem putOrder_rewritten {f : State → State} {u : State} (hf : SendsOnly f) (hu : OnlyShelves s u) (q : Order) :
    OrderRewritten h q f s u (putOrder h q (f u)) := by
  have only : putOrder h q (f u) =
      { s with
        liu := { s.liu with fleetOut := (f u).liu.fleetOut }
        ort := { s.ort with orders := tblSet s.ort.orders h q }
        asa := (putOrder h q (f u)).asa
        shm := { s.shm with shelves := u.shm.shelves } } := by
    rw [hf.only u, hu.eq]
    rfl
  have hasa : (putOrder h q (f u)).asa =
      { s.asa with examPending := u.asa.examPending, rescan := (putOrder h q (f u)).asa.rescan } := by
    rw [hf.only u, hu.eq]
    rfl
  have hsent : (f u).liu.fleetOut = (f s).liu.fleetOut := by
    rw [hu.eq]
    exact hf.sent _ _ rfl rfl rfl
  refine ⟨?_, ?_, putOrder_get_self _ _, fun k hk => ?_, ?_, ?_, fun he => ?_⟩
  · rw [only, hasa]
    constructor <;> rfl
  · rw [only, hf.liu s, hsent]
  · rw [only]
    exact tblGet_set_other _ _ hk
  · rw [only, hu.eq]
  · rw [only]
    exact ⟨rfl, rfl, rfl, rfl⟩
  · rw [hasa]
    exact hu.exam he

theorem OrderRewritten.setExamIf {q : Order} {f : State → State} {u : State} (e : OrderRewritten h q f s u t) (b : Bool) :
    OrderRewritten h q f s u (setExamIf b t) where
  framed := e.framed.trans (setExamIf_steady b t).framed
  lines := (setExamIf_liu b t).trans e.lines
  record := by rw [setExamIf_ort]; exact e.record
  others := by rw [otherOrdersKept, setExamIf_ort]; exact e.others
  shelves := (setExamIf_shm b t).trans e.shelves
  kept := by rw [setExamIf_vht, setExamIf_bac, setExamIf_fcr, setExamIf_ort]; exact e.kept
  exam := fun he => by rw [setExamIf_examPending, e.exam he]; rfl

/-- Nothing in the steps reads the reply slot (R175). -/
theorem OrderRewritten.placeReply {q : Order} {f : State → State} {u : State} (e : OrderRewritten h q f s u t)
    (r : Reply) (hf : ∀ s, placeReply r (f s) = f (placeReply r s)) :
    OrderRewritten h q f (placeReply r s) u (placeReply r t) where
  framed := e.framed.placeReply r
  lines := by rw [placeReply_liu_congr r e.lines, hf]
  record := e.record
  others := e.others
  shelves := e.shelves
  kept := e.kept
  exam := e.exam

theorem issueTo_placeReply (slot : Nat) (c : CommandBody) (r : Reply) (s : State) :
    placeReply r (issueTo slot c s) = issueTo slot c (placeReply r s) := by
  unfold issueTo
  rw [placeReply_vht]
  split
  · exact issue_placeReply _ _ _ _
  · rfl

/-! ## An accepted ORDER_RETARGET (R37, R62) -/

section Accepted

theorem retargetForm_port {l : Layout} {n : Nat} (hn : n < l.portCount) (hs : o.source ≠ some (.port n)) :
    retargetForm l o ⟨0, n⟩ = some (.endpoint (.port n)) := if_pos ⟨hn, hs⟩

theorem retargetForm_shelf {l : Layout} {n : Nat} (hm : o.mismatched = true) (hd : o.dest = some (.shelf n)) :
    retargetForm l o ⟨1, n⟩ = some (.endpoint (.shelf n)) := if_pos ⟨hm, hd⟩

theorem retargetForm_bay {l : Layout} {n : Nat} (hn : n < l.bayCount) (hk : o.kind = .store)
    (hs : o.state = .queued ∨ o.state = .held) (hd : o.dest = none) :
    retargetForm l o ⟨2, n⟩ = some (.bay n) := if_pos ⟨hn, hk, hs, hd⟩

/-- A retarget that names the destination the order has changes nothing. -/
theorem retargetTo_same {x : RetargetTo} (hm : o.mismatched = false) (hd : sameDest o x = true) :
    retargetTo h o x s = accept s .none := by
  unfold retargetTo
  split
  · rw [hm, if_neg Bool.false_ne_true, if_pos hd]
  · rw [if_pos hd]

theorem retargetTo_waiting {x : RetargetTo} (hl : o.loc = none) (hd : sameDest o x = false) :
    retargetTo h o x s = accept (retargetWaiting h o x s) .none := by
  simp [retargetTo, hl, hd]

theorem retargetTo_bay {b : Nat} (hd : sameDest o (.bay b) = false) :
    retargetTo h o (.bay b) s = accept (retargetWaiting h o (.bay b) s) .none := by
  unfold retargetTo
  split
  · contradiction
  · rw [hd, if_neg Bool.false_ne_true]

theorem retargetTo_carried {slot : Nat} {i : LayerId} {e : Endpoint} (hl : o.loc = some (slot, i))
    (hm : o.mismatched = false) (hd : o.dest ≠ some e) :
    retargetTo h o (.endpoint e) s = accept (retargetCarried slot h o e s) .none := by
  simp [retargetTo, hl, hm, sameDest, hd]

theorem retargetWaiting_rewritten (ho : tblGet s.ort.orders h = some o) (e : Endpoint) :
    OrderRewritten h { o with dest := some e } id s (releaseInbound h o.dest s)
      (retargetWaiting h o (.endpoint e) s) := by
  have hu := releaseInbound_only h o.dest s
  have ho' : tblGet (releaseInbound h o.dest s).ort.orders h = some o := by
    rw [hu.eq]
    exact ho
  have e1 : retargetWaiting h o (.endpoint e) s =
      setExamIf (decide (o.state = .queued)) (putOrder h { o with dest := some e } (releaseInbound h o.dest s)) :=
    congrArg (setExamIf _) (updOrder_of_get ho')
  rw [e1]
  exact (putOrder_rewritten .id hu _).setExamIf _

theorem retargetWaiting_exam {x : RetargetTo} (hq : o.state = .queued) :
    (retargetWaiting h o x s).asa.examPending = true := by
  unfold retargetWaiting
  rw [setExamIf_examPending]
  simp [hq]

theorem retargetCarried_rewritten {slot : Nat} {e : Endpoint} (ho : tblGet s.ort.orders h = some o) :
    OrderRewritten h { o with prior := o.dest, dest := some e, etaDone := some (etaRetargeted s slot o (some e)) }
      (issueTo slot (.retarget h (stopOf s.lyt e))) s (releaseInbound h o.prior s) (retargetCarried slot h o e s) := by
  have hu := releaseInbound_only h o.prior s
  have hsend := issueTo_sendsOnly slot (.retarget h (stopOf s.lyt e))
  have hstop : sendRetarget slot h (some e) (releaseInbound h o.prior s) =
      issueTo slot (.retarget h (stopOf s.lyt e)) (releaseInbound h o.prior s) := by
    have hl : (releaseInbound h o.prior s).lyt = s.lyt := by rw [hu.eq]
    rw [sendRetarget, hl]
    rfl
  have ho' : tblGet (issueTo slot (.retarget h (stopOf s.lyt e)) (releaseInbound h o.prior s)).ort.orders h = some o := by
    rw [hsend.ort, hu.eq]
    exact ho
  rw [retargetCarried, hstop, updOrder_of_get ho']
  exact putOrder_rewritten hsend hu _

theorem issueTo_eq_issue {slot : Nat} {v : Vehicle} (c : CommandBody) (hv : tblGet s.vht.vehicles slot = some v) :
    issueTo slot c s = issue v.fleetId c s := by
  simp only [issueTo, fleetIdAt, hv, Option.map_some]

/-- Before the pick eta done goes by eta pick, after it by where the vehicle last reported itself (R37). -/
theorem etaRetargeted_eq {slot : Nat} {v : Vehicle} (hv : tblGet s.vht.vehicles slot = some v) (e : Endpoint)
    (hs : o.state = .assigned ∨ o.state = .toSource ∨ o.state = .picking ∨ o.state = .carrying) :
    etaRetargeted s slot o (some e) =
      min 4294967295
        (if o.state = .assigned ∨ o.state = .toSource then
          o.etaPick.getD 0 + handoffOf (stopOf? s.lyt o.source) +
            travelBetween s.lyt (stopOf? s.lyt o.source) (stopOf s.lyt e) + handoffOf (stopOf s.lyt e)
        else s.now + travelFrom s.lyt v.position (stopOf s.lyt e) + handoffOf (stopOf s.lyt e)) := by
  have ht (n : Nat) : satTime n = min 4294967295 n := rfl
  obtain hs | hs | hs | hs := hs <;>
    simp only [etaRetargeted, etaFromPick, etaFromVehicle, hs, hv, ht, stopOf?, reduceCtorEq, or_true, or_false, if_true,
      if_false]

end Accepted

theorem exec_orderRetarget_formed {e d0 d1 : Byte} {x : RetargetTo} (a : asksOrder s 0x24 tag h o [e, d0, d1])
    (hk : o.kind ≠ .supplyEmpty) (ht : o.trigger = .once) (hr : retargetRefusal o = none)
    (hf : retargetForm s.lyt o ⟨u8 e, u16 d0 d1⟩ = some x) (ha : retargetTo h o x (popHost s) = ⟨t, st, p⟩) :
    exec .orderRetarget s = .next (placeReply ⟨0xA4, tag, st, p⟩ t) := by
  have formed := retargetOrder_formed (h := h) (s := popHost s) (f := ⟨u8 e, u16 d0 d1⟩) hk ht hr hf
  exact exec_orderRetarget_of_asks a (formed.trans ha)

/-- Settles O26, by the form of the destination and where the order is. -/
theorem retargetChangesTheDestination : Obligations.RetargetChangesTheDestination := by
  intro s tag h o e d0 d1 a hk ht
  have ho := asksOrder_record a
  have formed {x : RetargetTo} {t : State} {st : Status} {p : ReplyPayload}
      (hs : o.state = .queued ∨ o.state = .held ∨ o.state = .assigned ∨ o.state = .toSource ∨ o.state = .picking ∨
        o.state = .carrying) (hf : retargetForm s.lyt o ⟨u8 e, u16 d0 d1⟩ = some x)
      (ha : retargetTo h o x (popHost s) = ⟨t, st, p⟩) :=
    exec_orderRetarget_formed a hk ht (retargetRefusal_none (by tauto)) hf ha
  refine ⟨fun q hq he hn hsrc => ⟨fun hs hd => ?same, fun hs hl hd => ?waiting, fun slot i v hl hv hs hd => ?carried⟩,
    fun b hb he hn hstore hs hd => ⟨fun htb => ?sameBay, fun htb => ?bay⟩⟩
  case same =>
    have hf := retargetForm_port (o := o) (l := s.lyt) hn hsrc
    rw [hq, ← he] at hf
    refine formed hs hf (retargetTo_same (mismatched_of_ne ?_) (by rw [← hq]; simp [sameDest, hd]))
    obtain hs | hs | hs | hs | hs | hs := hs <;> simp [hs]
  case waiting =>
    have hf := retargetForm_port (o := o) (l := s.lyt) hn hsrc
    rw [hq, ← he] at hf
    have w := (retargetWaiting_rewritten (s := popHost s) ho (.port q)).placeReply ⟨0xA4, tag, .ok, .none⟩ (fun _ => rfl)
    refine ⟨_, formed (hs.imp_right .inl) hf (retargetTo_waiting hl (by rw [← hq]; simp [sameDest, hd])), ?_⟩
    rw [← hq]
    refine ⟨w.framed, w.lines, w.record, w.others, fun k => ?_, retargetWaiting_exam, w.kept⟩
    rw [w.shelves]
    exact releaseInbound_at h o.dest (popHost s) k
  case carried =>
    have hf := retargetForm_port (o := o) (l := s.lyt) hn hsrc
    rw [hq, ← he] at hf
    have hm : o.mismatched = false := mismatched_of_ne (by obtain hs | hs | hs | hs := hs <;> simp [hs])
    have w := (retargetCarried_rewritten (s := popHost s) (slot := slot) (e := .port q) ho).placeReply
      ⟨0xA4, tag, .ok, .none⟩ (issueTo_placeReply _ _ _)
    refine ⟨_, formed (.inr (.inr hs)) hf (retargetTo_carried hl hm (by rw [← hq]; exact hd)), ?_⟩
    rw [← hq]
    refine ⟨w.framed, ?_, ?_, w.others, fun k => ?_, w.kept⟩
    · exact w.lines.trans (congrArg State.liu (issueTo_eq_issue (s := replied 0x24 tag .ok .none s) _ hv))
    · rw [w.record, etaRetargeted_eq (s := popHost s) hv _ hs]
      rfl
    · rw [w.shelves]
      exact releaseInbound_at h o.prior (popHost s) k
  case sameBay =>
    have hf := retargetForm_bay (o := o) (l := s.lyt) hn hstore hs hd
    rw [hb, ← he] at hf
    refine formed (hs.imp_right .inl) hf (retargetTo_same (mismatched_of_ne ?_) (by rw [← hb]; simp [sameDest, htb]))
    obtain hs | hs := hs <;> simp [hs]
  case bay =>
    have hf := retargetForm_bay (o := o) (l := s.lyt) hn hstore hs hd
    rw [hb, ← he] at hf
    have e1 := formed (hs.imp_right .inl) hf (retargetTo_bay (by rw [← hb]; simp [sameDest, htb]))
    rw [← hb] at e1
    rw [e1]
    refine congrArg Host.Outcome.next ?_
    have e2 : retargetWaiting h o (.bay b) (popHost s) =
        setExamIf (decide (o.state = .queued)) (putOrder h { o with targetBay := some b } (popHost s)) :=
      congrArg (setExamIf _) (updOrder_of_get ho)
    rw [e2, setExamIf_placeReply]
    rfl

end Sys2Proof.Machine
end

section
/-! Orders that leave SUSPENDED: the retarget of a MISMATCH suspension, and ORDER_RESOURCE (R61, R62, R162, R164). -/
namespace Sys2Proof.Machine

open Sys2Proof

variable {s t u : State} {tag h : Nat} {o : Order} {st : Status} {p : ReplyPayload}

/-! ## Shelves that change alone -/

section Shelves

variable {f : Nat → Shelf → Shelf}

theorem OnlyShelves.become (hu : OnlyShelves s u) (he : ∀ k, shelfAt u.shm k = f k (shelfAt s.shm k)) :
    ShelvesBecome f s u := ⟨hu.eq, he, hu.exam⟩

theorem ShelvesBecome.framed (hu : ShelvesBecome f s u) : Framed s u := by
  rw [hu.only]
  constructor <;> rfl

theorem ShelvesBecome.now (hu : ShelvesBecome f s u) : u.now = s.now := by rw [hu.only]
theorem ShelvesBecome.lyt (hu : ShelvesBecome f s u) : u.lyt = s.lyt := by rw [hu.only]
theorem ShelvesBecome.liu (hu : ShelvesBecome f s u) : u.liu = s.liu := by rw [hu.only]
theorem ShelvesBecome.ort (hu : ShelvesBecome f s u) : u.ort = s.ort := by rw [hu.only]
theorem ShelvesBecome.vht (hu : ShelvesBecome f s u) : u.vht = s.vht := by rw [hu.only]
theorem ShelvesBecome.bac (hu : ShelvesBecome f s u) : u.bac = s.bac := by rw [hu.only]
theorem ShelvesBecome.fcr (hu : ShelvesBecome f s u) : u.fcr = s.fcr := by rw [hu.only]
theorem ShelvesBecome.gwrdy (hu : ShelvesBecome f s u) : u.gwrdy = s.gwrdy := by rw [hu.only]

/-- The source shelf that order `h` still claims and the prior destination's become FREE, whichever goes first. -/
theorem vacateSource_releaseInbound_become (h : Nat) (o : Order) (s : State) :
    ShelvesBecome (vacatedShelf h o) s (vacateSource h o.source (releaseInbound h o.prior s)) := by
  refine ((releaseInbound_only h o.prior s).trans (vacateSource_only h o.source _)).become fun k => ?_
  rw [vacateSource_at, releaseInbound_at, vacatedShelf]
  by_cases hi : (shelfAt s.shm k).state = .inbound ∧ (shelfAt s.shm k).claim = some h ∧ o.prior = some (.shelf k)
  · rw [if_pos hi, if_neg (by simp [freeShelf]), if_pos ⟨hi.2.1, .inr ⟨hi.1, hi.2.2⟩⟩]
    rfl
  · rw [if_neg hi]
    refine ite_congr (propext ?_) (fun _ => rfl) (fun _ => rfl)
    tauto

theorem releaseInbound_vacateSource_become (h : Nat) (o : Order) (s : State) :
    ShelvesBecome (vacatedShelf h o) s (releaseInbound h o.prior (vacateSource h o.source s)) := by
  refine ((vacateSource_only h o.source s).trans (releaseInbound_only h o.prior _)).become fun k => ?_
  rw [releaseInbound_at, vacateSource_at, vacatedShelf]
  by_cases hv : (shelfAt s.shm k).state = .outbound ∧ (shelfAt s.shm k).claim = some h ∧ o.source = some (.shelf k)
  · rw [if_pos hv, if_neg (by simp [freeShelf]), if_pos ⟨hv.2.1, .inl ⟨hv.1, hv.2.2⟩⟩]
    rfl
  · rw [if_neg hv]
    refine ite_congr (propext ?_) (fun _ => rfl) (fun _ => rfl)
    tauto

/-- What is sent and what a shelf becomes do not meet. -/
theorem setShelf_sends {g : State → State} (hg : SendsOnly g) (k : Nat) (sh : Shelf) (s : State) :
    setShelf k sh (g s) = g (setShelf k sh s) := by
  have sent : (g (setShelf k sh s)).liu.fleetOut = (g s).liu.fleetOut := by
    have only := (setShelf_only k sh s).eq
    exact hg.sent _ _ (by rw [only]) (by rw [only]) (by rw [only])
  rw [hg.only (setShelf k sh s), sent, hg.only s, setShelf_eq, setShelf_eq]

theorem vacateSource_sends {g : State → State} (hg : SendsOnly g) (h : Nat) (e : Option Endpoint) (s : State) :
    vacateSource h e (g s) = g (vacateSource h e s) := by
  have shm : (g s).shm = s.shm := by rw [hg.only]
  unfold vacateSource
  split
  · rw [shm, setShelf_sends hg, ← apply_ite g]
  · rfl

end Shelves

/-! ## Resumption (R162) -/

section Resumption

theorem etaFromVehicle_eq {slot : Nat} {v : Vehicle} (hv : tblGet s.vht.vehicles slot = some v) (d : Option Endpoint) :
    etaFromVehicle s slot d =
      min 4294967295 (s.now + travelFrom s.lyt v.position (stopOf? s.lyt d) + handoffOf (stopOf? s.lyt d)) := by
  simp only [etaFromVehicle, hv]
  rfl

/-- A suspended order's record as it resumes, `d` its destination and `v` its vehicle (R37, R162). -/
def resumedOrder (s : State) (v : Vehicle) (q : Order) : Order :=
  { q with
    state := .carrying, suspendReason := none, orphan := none
    etaDone :=
      some (min 4294967295
        (s.now + travelFrom s.lyt v.position (stopOf? s.lyt q.dest) + handoffOf (stopOf? s.lyt q.dest))) }

/-- An order that resumes, its record first changed by `f`: what its source shelf becomes, and then its step to CARRYING
with the examination-pending flag. -/
theorem resumeOrder_stepped {slot : Nat} {v : Vehicle} {f : Order → Order} (ho : tblGet s.ort.orders h = some o)
    (hs : o.state = .suspended) (hv : tblGet s.vht.vehicles slot = some v) (ht : (f o).hostTag = o.hostTag)
    (hl : (f o).loc = o.loc) :
    ∃ y, resumeOrder slot h f s = setExam y ∧
      OrderStepped h o (resumedOrder s v (f o)) .none (vacateSource h o.source s) y := by
  have ho' : tblGet (vacateSource h o.source s).ort.orders h = some o := by rwa [(vacateSource_only h o.source s).eq]
  have e := moveOrder_kept
    (f := fun o => { f o with
      suspendReason := none, orphan := none, etaDone := some (etaFromVehicle s slot (f o).dest) })
    (why := .none) ho' (by simp [hs]) ht hl .carrying
  rw [enterState_of_ne (by decide)] at e
  simp only [etaFromVehicle_eq hv] at e
  refine ⟨_, ?_, e⟩
  simp only [resumeOrder, ho, etaFromVehicle_eq hv]

end Resumption

/-! ## ORDER_RETARGET of a MISMATCH suspension (R61, R62, R162) -/

section Mismatch

variable {slot : Nat} {i : LayerId} {v : Vehicle}

theorem tagInUse_iff {x : OrderTable} {c : CarrierTag} :
    tagInUse x (some h) c = true ↔
      ∃ p ∈ x.orders, p.1 ≠ h ∧ p.2.state.live = true ∧ p.2.carrierTag = some c := by
  simp only [tagInUse, List.any_eq_true, Bool.and_eq_true, decide_eq_true_eq, ne_eq, Option.some_inj]
  exact exists_congr fun p => and_congr_right fun _ => by tauto

theorem loadAt_of_get (hv : tblGet s.vht.vehicles slot = some v) : loadAt s.vht slot = v.load := by
  simp only [loadAt, hv]

variable (hv : tblGet s.vht.vehicles slot = some v)

include hv

/-- A read tag that is "unread", or a load that carries no tag in place of an absent one, is adopted by no order. -/
theorem adoptedTag_unread (hr : o.readTag = some .unread ∨ (o.readTag = none ∧ ∀ u, v.load ≠ .tagged u)) :
    adoptedTag s.ort h o (loadAt s.vht slot) = none := by
  rw [loadAt_of_get hv, adoptedTag]
  obtain hr | ⟨hr, hl⟩ := hr
  · rw [hr]
    rfl
  · rw [hr]
    cases hload : v.load with
    | tagged x => exact absurd hload (hl x)
    | empty => rfl
    | unknown => rfl

theorem adoptedTag_read {c : CarrierTag} (hr : o.readTag = some (.tag c) ∨ (o.readTag = none ∧ v.load = .tagged c)) :
    adoptedTag s.ort h o (loadAt s.vht slot) = if tagInUse s.ort (some h) c then none else some c := by
  rw [loadAt_of_get hv, adoptedTag]
  obtain hr | ⟨hr, hl⟩ := hr
  · rw [hr]
    rfl
  · rw [hr, hl]
    rfl

omit hv

variable {e : Endpoint} (hl : o.loc = some (slot, i)) (hm : o.mismatched = true)

include hl hm

theorem retargetTo_duplicate (ha : adoptedTag s.ort h o (loadAt s.vht slot) = none) :
    retargetTo h o (.endpoint e) s = refuse s .duplicate := by
  simp only [retargetTo, hl, hm, if_true, ha]

theorem retargetTo_adopted {c : CarrierTag} (ha : adoptedTag s.ort h o (loadAt s.vht slot) = some c) :
    retargetTo h o (.endpoint e) s = accept (retargetMismatch slot h o c e s) .none := by
  simp only [retargetTo, hl, hm, if_true, ha]

omit hl hm

/-- The record of a mismatched order retargeted to `e` with the tag it adopts, before it resumes. -/
def mismatchRetargeted (c : CarrierTag) (e : Endpoint) (o : Order) : Order :=
  { o with
    carrierTag := some c, readTag := some (.tag c), prior := if o.dest = some e then none else o.dest, dest := some e }

include hv

/-- A mismatched order that is retargeted: the shelves it frees, the RETARGET, and its step to CARRYING. -/
theorem retargetMismatch_stepped (ho : tblGet s.ort.orders h = some o) (hs : o.state = .suspended) (c : CarrierTag)
    (e : Endpoint) :
    ∃ x y, ShelvesBecome (vacatedShelf h o) s x ∧
      OrderStepped h o (resumedOrder s v (mismatchRetargeted c e o)) .none
        (issueTo slot (.retarget h (stopOf s.lyt e)) x) y ∧
      retargetMismatch slot h o c e s = setExam y := by
  have hr := releaseInbound_only h o.prior s
  have hsend := issueTo_sendsOnly slot (.retarget h (stopOf s.lyt e))
  have hstop : sendRetarget slot h (some e) (releaseInbound h o.prior s) =
      issueTo slot (.retarget h (stopOf s.lyt e)) (releaseInbound h o.prior s) := by
    have hlyt : (releaseInbound h o.prior s).lyt = s.lyt := by rw [hr.eq]
    rw [sendRetarget, hlyt]
    rfl
  have hnow : (issueTo slot (.retarget h (stopOf s.lyt e)) (releaseInbound h o.prior s)).now = s.now := by
    rw [hsend.now, hr.eq]
  have hlyt : (issueTo slot (.retarget h (stopOf s.lyt e)) (releaseInbound h o.prior s)).lyt = s.lyt := by
    rw [hsend.only, hr.eq]
  obtain ⟨y, ey, hy⟩ := resumeOrder_stepped (slot := slot) (v := v) (f := mismatchRetargeted c e) (o := o) (h := h)
    (s := issueTo slot (.retarget h (stopOf s.lyt e)) (releaseInbound h o.prior s))
    (by rw [hsend.ort, hr.eq]; exact ho) hs (by rw [hsend.vht, hr.eq]; exact hv) rfl rfl
  refine ⟨_, y, vacateSource_releaseInbound_become h o s, ?_, ?_⟩
  · rw [vacateSource_sends hsend] at hy
    unfold resumedOrder at hy ⊢
    rwa [hnow, hlyt] at hy
  · rw [retargetMismatch, hstop]
    exact ey

end Mismatch

/-- Settles O27, by the tag the order adopts. -/
theorem mismatchRetargetResumes : Obligations.MismatchRetargetResumes := by
  intro s tag h o e d0 d1 slot i v d a hk ht hs hr hl hv hd
  have ho := asksOrder_record a
  have hm := mismatched_iff.2 ⟨hs, hr⟩
  have hf : retargetForm s.lyt o ⟨u8 e, u16 d0 d1⟩ = some (.endpoint d) := by
    obtain ⟨he, hn, hsrc, rfl⟩ | ⟨he, hdest, rfl⟩ := hd <;> rw [he]
    · exact retargetForm_port hn hsrc
    · exact retargetForm_shelf hm hdest
  have formed {t : State} {st : Status} {p : ReplyPayload} (ha : retargetTo h o (.endpoint d) (popHost s) = ⟨t, st, p⟩) :=
    exec_orderRetarget_formed a hk ht (retargetRefusal_none (by tauto)) hf ha
  refine ⟨fun hread => ?unread, fun c hread => ⟨fun hdup => ?duplicate, fun hfree => ?resumes⟩⟩
  case unread => exact formed (retargetTo_duplicate hl hm (adoptedTag_unread (s := popHost s) hv hread))
  case duplicate =>
    refine formed (retargetTo_duplicate hl hm ?_)
    rw [adoptedTag_read (s := popHost s) hv hread]
    exact if_pos (tagInUse_iff.2 hdup)
  case resumes =>
    have adopted : adoptedTag (popHost s).ort h o (loadAt (popHost s).vht slot) = some c := by
      rw [adoptedTag_read (s := popHost s) hv hread]
      refine if_neg fun hin => ?_
      obtain ⟨q, hq, hne, hlive, htag⟩ := tagInUse_iff.1 hin
      exact hfree q hq hne hlive htag
    obtain ⟨x, y, hx, hy, ey⟩ := retargetMismatch_stepped (s := popHost s) hv ho hs c d
    rw [popHost_lyt] at hy
    have e1 := formed (retargetTo_adopted hl hm adopted)
    rw [ey] at e1
    have hsend := issueTo_sendsOnly slot (.retarget h (stopOf s.lyt d))
    refine ⟨_, e1, ?_, ?_, fun k hk => ?_, rfl, ?_, fun k => ?_, ?_, ?_, ?_, ?_⟩
    · exact ((hx.framed.trans (hsend.framed x)).trans (hy.framed.trans (by constructor <;> rfl))).placeReply _
    · exact hy.record
    · have e2 := hy.others k hk
      rw [hsend.ort, hx.ort] at e2
      exact e2
    · have hvo : vehicleOf (issueTo slot (.retarget h (stopOf s.lyt d)) x) o = some v.fleetId := by
        simp only [vehicleOf, hl, hsend.vht, hx.vht, popHost_vht, hv, Option.map_some]
      have e2 := placeReply_liu_congr ⟨0xA4, tag, .ok, .none⟩ hy.lines
      rw [queueNotice_placeReply, hvo, hsend.now, hx.now, hs, issueTo_placeReply] at e2
      refine e2.trans (queueNotice_liu_congr _ ?_)
      rw [← issueTo_eq_issue (s := replied 0x24 tag .ok .none s) _ hv]
      exact hsend.same _ _ (placeReply_liu_congr _ hx.liu) hx.gwrdy hx.vht
    · have e2 : y.shm = x.shm := hy.kept.2.2.2.1.trans (by rw [hsend.only])
      exact (congrArg (shelfAt · k) e2).trans (hx.each k)
    · exact hy.kept.2.1.trans ((hsend.vht x).trans hx.vht)
    · exact hy.kept.2.2.1.trans ((hsend.bac x).trans hx.bac)
    · refine hy.kept.2.2.2.2.trans ?_
      rw [hsend.only]
      exact hx.fcr
    · have e2 := hy.kept.1
      rw [hsend.ort, hx.ort] at e2
      exact e2

/-! ## ORDER_RESOURCE (R164) -/

section Resource

theorem exec_orderResource_of_asks {p0 p1 : Byte} (a : asksOrder s 0x25 tag h o [p0, p1])
    (ha : sourceAt h (u16 p0 p1) o (popHost s) = ⟨t, st, p⟩) :
    exec .orderResource s = .next (placeReply ⟨0xA5, tag, st, p⟩ t) :=
  congrArg Host.Outcome.next
    (takeRequest_named (form := decodeOrderResource) (ref := OrderNumReq.order)
      (act := fun r => sourceAt r.order.handle r.value) a
      fun b t0 t1 t2 t3 hb => ⟨⟨⟨u8 b, u32 t0 t1 t2 t3⟩, u16 p0 p1⟩, rfl, by rw [hb], by rw [hb]; exact ha⟩)

variable {n : Nat}

theorem sourceAt_noPort (hn : s.lyt.portCount ≤ n) : sourceAt h n o s = refuse s .badField := if_pos hn

variable (hn : n < s.lyt.portCount)

include hn

theorem sourceAt_late (hs : o.state = .carrying ∨ o.state = .placing ∨ o.state.live = false) :
    sourceAt h n o s = refuse s .tooLate := by
  have hn' : ¬ s.lyt.portCount ≤ n := by omega
  obtain hs | hs | hs := hs
  case inr.inr => obtain hs | hs | hs := live_eq_false_iff.1 hs <;> simp only [sourceAt, hn', if_false, hs]
  all_goals simp only [sourceAt, hn', if_false, hs]

theorem sourceAt_unsuspended (h1 : o.state ≠ .carrying) (h2 : o.state ≠ .placing) (h3 : o.state ≠ .suspended)
    (h4 : o.state.live = true) : sourceAt h n o s = refuse s .wrongState := by
  have hn' : ¬ s.lyt.portCount ≤ n := by omega
  rw [sourceAt, if_neg hn']
  cases hs : o.state <;> simp_all [OrderState.live]

theorem sourceAt_dest (hs : o.state = .suspended) (hd : o.dest = some (.port n)) :
    sourceAt h n o s = refuse s .badField := by
  have hn' : ¬ s.lyt.portCount ≤ n := by omega
  simp only [sourceAt, hn', if_false, hs, hd, if_true]

theorem sourceAt_accepts (hs : o.state = .suspended) (hd : o.dest ≠ some (.port n)) :
    sourceAt h n o s = accept (resourceOrder h n o s) .none := by
  have hn' : ¬ s.lyt.portCount ≤ n := by omega
  simp only [sourceAt, hn', if_false, hs, hd]

omit hn

theorem resourced_kind (k : OrderKind) : k.resourced = if k = .retrieve ∨ k = .supplyEmpty then .move else k := by
  cases k <;> rfl

theorem OnlyVehicles.trans {s t u : State} (h : OnlyVehicles s t) (k : OnlyVehicles t u) : OnlyVehicles s u := by
  refine ⟨?_, fun a => k.exam (h.exam a)⟩
  rw [k.eq, h.eq]

/-- An order taken from its vehicle to wait at a port: the vehicle it leaves unloaded, the shelves it frees, and its step
to QUEUED. -/
theorem resourceOrder_stepped {slot : Nat} {i : LayerId} {v : Vehicle} (ho : tblGet s.ort.orders h = some o)
    (hs : o.state = .suspended) (hl : o.loc = some (slot, i)) (hv : tblGet s.vht.vehicles slot = some v) (n : Nat) :
    ∃ w x, OnlyVehicles s w ∧
      (∀ k, tblGet w.vht.vehicles k =
        if k = slot then some { leftVehicle s.now s.vht.tTake i v with load := .empty } else tblGet s.vht.vehicles k) ∧
      ShelvesBecome (vacatedShelf h o) w x ∧
      OrderStepped h o (enterState s.now .queued (resourced n o)) .none x (resourceOrder h n o s) := by
  have left := leaveVehicle_left o.loc s
  have only := leaveVehicle_only o.loc s
  have hw : OnlyVehicles s (unloadVehicle o.loc (leaveVehicle o.loc s)) := by
    simp only [hl, unloadVehicle] at only ⊢
    exact only.trans (updVehicle_only _ _ _)
  have each : ∀ k, tblGet (unloadVehicle o.loc (leaveVehicle o.loc s)).vht.vehicles k =
      if k = slot then some { leftVehicle s.now s.vht.tTake i v with load := .empty } else tblGet s.vht.vehicles k := by
    intro k
    have e := left k
    rw [hl] at e ⊢
    simp only [unloadVehicle, updVehicle_get]
    by_cases hk : k = slot
    · subst hk
      rw [if_pos rfl, if_pos rfl, e, hv]
      simp only [Option.map_some, if_true]
    · rw [if_neg hk, if_neg hk, e]
      simp only [if_neg hk, Option.map_id']
  have become := releaseInbound_vacateSource_become h o (unloadVehicle o.loc (leaveVehicle o.loc s))
  refine ⟨_, _, hw, each, become, ?_⟩
  have step := moveOrder_stepped (h := h) (o := o)
    (s := releaseInbound h o.prior (vacateSource h o.source (unloadVehicle o.loc (leaveVehicle o.loc s))))
    (by rw [become.ort, hw.eq]; exact ho) (resourced n) .queued .none (carrierId s o.loc)
  rw [leaveState_of_ne (by simp [hs]), become.now, show (unloadVehicle o.loc (leaveVehicle o.loc s)).now = s.now by rw [hw.eq]]
    at step
  refine step rfl ?_
  have hslot := each slot
  simp only [hl] at hslot become
  simp only [enterState, resourced, if_true, carrierId, fleetIdAt, hl, vehicleOf, hv, become.vht, hslot, Option.map_some,
    (leftVehicle_kept _ _ _ _).1]

end Resource

/-- Settles O28, case by case. -/
theorem resourceByCase : Obligations.ResourceByCase := by
  intro s tag h o p0 p1 a
  refine ⟨fun hn => exec_orderResource_of_asks a (sourceAt_noPort (s := popHost s) hn), fun hn => ⟨fun hs => ?late,
    fun h1 h2 h3 h4 => ?unsuspended, fun hs hd => ?dest, fun slot i v hs hd hl hv _ => ?accepted⟩⟩
  case late => exact exec_orderResource_of_asks a (sourceAt_late (s := popHost s) hn hs)
  case unsuspended => exact exec_orderResource_of_asks a (sourceAt_unsuspended (s := popHost s) hn h1 h2 h3 h4)
  case dest => exact exec_orderResource_of_asks a (sourceAt_dest (s := popHost s) hn hs hd)
  case accepted =>
    obtain ⟨w, x, hw, each, hx, step⟩ :=
      resourceOrder_stepped (s := popHost s) (asksOrder_record a) hs hl hv (u16 p0 p1)
    obtain ⟨hbatch, hvht, hbac, hshm, hfcr⟩ := step.kept
    have hslot := each slot
    rw [if_pos rfl] at hslot
    refine ⟨_, exec_orderResource_of_asks a (sourceAt_accepts (s := popHost s) hn hs hd), ?_, ?_, fun k hk => ?_, ?_,
      fun k hk => ?_, fun k => ?_, ?_, ?_, ?_, ?_, ?_⟩
    · have left : Framed (popHost s) w := by
        rw [hw.eq]
        constructor <;> rfl
      exact (left.trans (hx.framed.trans step.framed)).placeReply _
    · refine step.record.trans (congrArg some ?_)
      simp only [enterState, resourced, resourced_kind, if_true]
      rfl
    · have e := step.others k hk
      rw [hx.ort, hw.eq] at e
      exact e
    · rw [placeReply_vht, hvht, hx.vht]
      exact hslot
    · rw [placeReply_vht, hvht, hx.vht, each k, if_neg hk]
      rfl
    · rw [placeReply_shm, hshm, hx.each, hw.eq]
      rfl
    · have hvo : vehicleOf x o = some v.fleetId := by
        simp only [vehicleOf, hl, hx.vht, hslot, Option.map_some, (leftVehicle_kept _ _ _ _).1]
      have e := placeReply_liu_congr ⟨0xA5, tag, .ok, .none⟩ step.lines
      rw [queueNotice_placeReply, hvo, hs, hx.now, hw.eq] at e
      refine e.trans (queueNotice_liu_congr _ (placeReply_liu_congr (s := x) (t := popHost s) _ ?_))
      rw [hx.liu, hw.eq]
    · have e := step.exam
      simpa [enterState] using e
    · exact hbac.trans (hx.bac.trans (by rw [hw.eq]; rfl))
    · exact hfcr.trans (hx.fcr.trans (by rw [hw.eq]; rfl))
    · rw [hx.ort, hw.eq] at hbatch
      exact hbatch

end Sys2Proof.Machine
end

section
/-! Vehicles: what the shared operations on one record make of the state, and the requests that name a fleet id (R50,
R92, R101 to R109, R112). -/
namespace Sys2Proof.Machine

open Sys2Proof

variable {s t u : State} {slot h tag : Nat} {v w : Vehicle} {i : LayerId} {o : Order} {st : Status} {p : ReplyPayload}

/-! ## One record written -/

section Records

@[simp] theorem withVehicle_get_self (slot : Nat) (v : Vehicle) (s : State) :
    tblGet (withVehicle slot v s).vht.vehicles slot = some v := tblGet_set_self _ _ _

theorem withVehicle_others (slot : Nat) (v : Vehicle) (s : State) : otherVehiclesKept slot s (withVehicle slot v s) :=
  fun _ hk => tblGet_set_other _ _ hk

@[simp] theorem withVehicle_withVehicle (slot : Nat) (v w : Vehicle) (s : State) :
    withVehicle slot w (withVehicle slot v s) = withVehicle slot w s := by
  simp only [withVehicle, tblSet_set]

theorem withVehicle_framed (slot : Nat) (v : Vehicle) (s : State) : Framed s (withVehicle slot v s) := by
  constructor <;> rfl

theorem reported_eq (slot : Nat) (v : Vehicle) (s : State) : reported slot v s = withVehicle slot v (popFleet s) := rfl

theorem updVehicle_of_get {f : Vehicle → Vehicle} (hv : tblGet s.vht.vehicles slot = some v) :
    updVehicle slot f s = withVehicle slot (f v) s := by
  simp only [updVehicle, hv, withVehicle]

theorem vehicleNotice_of_get {ev : VehicleEvent} (hv : tblGet s.vht.vehicles slot = some v) :
    vehicleNotice slot ev s =
      queueNotice (.vehicleState v.fleetId slot ev v.link v.hostStall v.faultStall v.lastFault) s := by
  simp only [vehicleNotice, hv]

theorem raiseVehicle_of_get {c : IncidentClass} {handle : Option Nat} {place : Option Endpoint} {code : Option Nat}
    (hv : tblGet s.vht.vehicles slot = some v) :
    raiseVehicle c slot handle place code s =
      raiseIncident
        { cls := c, time := s.now, fleetId := some v.fleetId, handle := handle, place := place
          position := some (v.position.zone, v.position.coord), code := code } s := by
  simp only [raiseVehicle, hv]

end Records

/-! ## The layers of a vehicle, and its STAGED order (R50, R91) -/

section Layers

theorem activeLayer_of_layer (hl : v.layer i = .active h) (ho : ∀ g, v.layer i.other ≠ .active g) :
    v.activeLayer = some (h, i) := by
  cases i <;> simp_all [Vehicle.activeLayer, Vehicle.layer, LayerId.other]

theorem stagedLayer_of_layer (hl : v.layer i = .staged h) (ho : ∀ g, v.layer i.other ≠ .staged g) :
    v.stagedLayer = some (h, i) := by
  cases i <;> simp_all [Vehicle.stagedLayer, Vehicle.layer, LayerId.other]

theorem activeHandle_of_layer (hl : v.layer i = .active h) (ho : ∀ g, v.layer i.other ≠ .active g) :
    v.activeHandle = some h := by
  rw [Vehicle.activeHandle, activeLayer_of_layer hl ho]
  rfl

theorem activeOrder_of_layer {x : OrderTable} (hl : v.layer i = .active h) (ho : ∀ g, v.layer i.other ≠ .active g)
    (hg : tblGet x.orders h = some o) : activeOrder x v = some (h, o) := by
  simp only [activeOrder, activeLayer_of_layer hl ho, hg, Option.map_some]

theorem activeOrder_eq_none {x : OrderTable} (ha : ∀ i h, v.layer i ≠ .active h) : activeOrder x v = none := by
  simp only [activeOrder, activeLayer_eq_none_iff.2 ha]

theorem bothEmpty_iff : v.bothEmpty = true ↔ v.layer0 = .empty ∧ v.layer1 = .empty := by
  simp [Vehicle.bothEmpty]

variable (hv : tblGet s.vht.vehicles slot = some v)

include hv

theorem recallStaged_of_none (hn : ∀ i h, v.layer i ≠ .staged h) : recallStaged slot s = s := by
  simp only [recallStaged, hv, stagedLayer_eq_none_iff.2 hn]

/-- The RECALL of a staged order, and its return to QUEUED (R50). -/
theorem recallStaged_of_staged (hl : v.layer i = .staged h) (hn : ∀ g, v.layer i.other ≠ .staged g)
    (ho : tblGet s.ort.orders h = some o) (hs : o.state = .assigned) :
    OrderReturned h o .queued (issue v.fleetId (.recall h i) s) (recallStaged slot s) := by
  simp only [recallStaged, hv, stagedLayer_of_layer hl hn, issueTo_eq_issue _ hv]
  exact returnOrder_returned (by rw [issue_ort]; exact ho) (by simp [hs]) .queued

theorem recallStaged_returned : StagedReturned slot v true s (recallStaged slot s) :=
  ⟨recallStaged_of_none hv, fun _ _ _ hl hn ho hs _ => recallStaged_of_staged hv hl hn ho hs⟩

theorem loseStaged_returned : StagedReturned slot v false s (loseStaged slot s) := by
  refine ⟨fun hn => ?_, fun i h o hl hn ho hs _ => ?_⟩
  · simp only [loseStaged, hv, stagedLayer_eq_none_iff.2 hn]
  · simp only [loseStaged, hv, stagedLayer_of_layer hl hn]
    exact returnOrder_returned ho (by simp [hs]) .queued

end Layers

/-! ## Repositions and stalls (R104, R112) -/

section Stalls

/-- A reposition that ends, in a record just written. -/
theorem endReposition_withVehicle (slot : Nat) (w : Vehicle) (s : State) :
    endReposition slot (withVehicle slot w s) =
      setExamIf (decide (w.target ≠ none ∧ w.layer0 = .empty ∧ w.layer1 = .empty))
        (withVehicle slot (repositionEnded s.now w) s) := by
  have hw := withVehicle_get_self slot w s
  unfold endReposition repositionEnded
  simp only [hw]
  by_cases ht : w.target = none
  · simp [ht]
  · by_cases he : w.layer0 = .empty ∧ w.layer1 = .empty
    · rw [if_neg ht, if_neg ht, if_pos he, if_pos (bothEmpty_iff.2 he), updVehicle_of_get hw, withVehicle_withVehicle,
        decide_eq_true ⟨ht, he⟩]
      rfl
    · rw [if_neg ht, if_neg ht, if_neg he, if_neg fun x => he (bothEmpty_iff.1 x), updVehicle_of_get hw,
        withVehicle_withVehicle, decide_eq_false fun x => he x.2]
      rfl

theorem lastFaultAfter_eq (v : Vehicle) (c : FaultClass) (k : FaultCode) : lastFaultAfter v c k = lastFaultThen v c k := by
  cases hf : v.lastFault with
  | none => simp [lastFaultAfter, lastFaultThen, faultClassOf, hf]
  | some x =>
    obtain ⟨d, k'⟩ := x
    cases d <;> simp [lastFaultAfter, lastFaultThen, faultClassOf, hf]

theorem repositionEnded_kept (now : Nat) (v : Vehicle) :
    (repositionEnded now v).fleetId = v.fleetId ∧ (repositionEnded now v).link = v.link ∧
      (repositionEnded now v).hostStall = v.hostStall ∧ (repositionEnded now v).faultStall = v.faultStall ∧
      (repositionEnded now v).lastFault = v.lastFault ∧ (repositionEnded now v).position = v.position ∧
      (repositionEnded now v).layer = v.layer := by
  unfold repositionEnded
  split
  · exact ⟨rfl, rfl, rfl, rfl, rfl, rfl, rfl⟩
  · split <;> exact ⟨rfl, rfl, rfl, rfl, rfl, rfl, funext fun j => by cases j <;> rfl⟩

/-- The fault stall set, with STALLED where it was clear (R104). -/
theorem setFaultStall_eq (hv : tblGet s.vht.vehicles slot = some v) (c : FaultClass) (k : FaultCode) :
    setFaultStall slot c k s = stallSet slot c k v s := by
  have hend := endReposition_withVehicle slot
    { v with faultStall := true, lastFault := lastFaultThen v c k, recovered := false } s
  have e : setFaultStall slot c k s =
      (if v.faultStall then id else vehicleNotice slot .stalled)
        (endReposition slot (withVehicle slot
          { v with faultStall := true, lastFault := lastFaultThen v c k, recovered := false } s)) := by
    rw [← lastFaultAfter_eq]
    simp only [setFaultStall, hv, updVehicle_of_get hv]
  rw [e, hend, stallSet]
  split
  · rfl
  · obtain ⟨h1, h2, h3, h4, h5, _, _⟩ := repositionEnded_kept s.now
      { v with faultStall := true, lastFault := lastFaultThen v c k, recovered := false }
    rw [vehicleNotice_of_get (by rw [setExamIf_vht]; exact withVehicle_get_self _ _ _), h1, h2, h3, h4, h5]
    rfl

/-- The fault stall cleared, with RELEASED (R104). -/
theorem clearFaultStall_eq (hv : tblGet s.vht.vehicles slot = some v) :
    clearFaultStall slot s =
      setExam
        (queueNotice (.vehicleState v.fleetId slot .released v.link v.hostStall false v.lastFault)
          (withVehicle slot { v with faultStall := false, noTakes := 0 } s)) := by
  rw [clearFaultStall, updVehicle_of_get hv, vehicleNotice_of_get (withVehicle_get_self _ _ _)]

end Stalls

/-! ## Requests that name a vehicle -/

section Requests

variable {α : Type} {kind : Nat} {extra : List Byte} {form : List Byte → Option α}

theorem asksVehicle_record (a : asksVehicle s kind tag slot v extra) :
    tblGet (popHost s).vht.vehicles slot = some v := by
  obtain ⟨_, _, _, _, _, _, hv⟩ := a
  exact hv

/-- The answer of a rule on the vehicle a request names. -/
theorem takeRequest_vehicle {num : α → Nat} {act : α → Nat → Vehicle → State → Answered}
    (a : asksVehicle s kind tag slot v extra)
    (hf : ∀ f0 f1, ∃ r, form (f0 :: f1 :: extra) = some r ∧ num r = u16 f0 f1 ∧ act r slot v (popHost s) = ⟨t, st, p⟩) :
    takeRequest kind form (whenRunning (fun r => onVehicle (num r) (act r))) s =
      placeReply ⟨kind + 0x80, tag, st, p⟩ t := by
  obtain ⟨f0, f1, ha, h0, h1, hslot, hv⟩ := a
  obtain ⟨r, hr, hn, e⟩ := hf f0 f1
  refine takeRequest_running (act := fun r => onVehicle (num r) (act r)) ha hr ?_
  rw [hn, onVehicle_named (s := popHost s) h0 h1 hslot hv]
  exact e

theorem exec_vehicleStall_of_asks (a : asksVehicle s 0x30 tag slot v [])
    (ha : stallVehicle slot v (popHost s) = ⟨t, st, p⟩) :
    exec .vehicleStall s = .next (placeReply ⟨0xB0, tag, st, p⟩ t) :=
  congrArg Host.Outcome.next
    (takeRequest_vehicle (form := decodeU16) (num := id) (act := fun _ => stallVehicle) a fun _ _ => ⟨_, rfl, rfl, ha⟩)

theorem exec_vehicleUnstall_of_asks (a : asksVehicle s 0x31 tag slot v [])
    (ha : unstallVehicle slot v (popHost s) = ⟨t, st, p⟩) :
    exec .vehicleUnstall s = .next (placeReply ⟨0xB1, tag, st, p⟩ t) :=
  congrArg Host.Outcome.next
    (takeRequest_vehicle (form := decodeU16) (num := id) (act := fun _ => unstallVehicle) a fun _ _ => ⟨_, rfl, rfl, ha⟩)

theorem exec_vehicleClearfault_of_asks (a : asksVehicle s 0x32 tag slot v [])
    (ha : clearFault slot v (popHost s) = ⟨t, st, p⟩) :
    exec .vehicleClearfault s = .next (placeReply ⟨0xB2, tag, st, p⟩ t) :=
  congrArg Host.Outcome.next
    (takeRequest_vehicle (form := decodeU16) (num := id) (act := fun _ => clearFault) a fun _ _ => ⟨_, rfl, rfl, ha⟩)

end Requests

/-! ## Stalls by the host (R103, R106) -/

section HostStalls

theorem stallVehicle_stalled (hh : v.hostStall = true) : stallVehicle slot v s = accept s .none := by
  simp [stallVehicle, hh]

theorem stallVehicle_clear (hh : v.hostStall = false) (hv : tblGet s.vht.vehicles slot = some v) :
    stallVehicle slot v s =
      accept
        (recallStaged slot
          (queueNotice (.vehicleState v.fleetId slot .stalled v.link true v.faultStall v.lastFault)
            (withVehicle slot { v with hostStall := true } s))) .none := by
  rw [stallVehicle, hh, if_neg Bool.false_ne_true, updVehicle_of_get hv,
    vehicleNotice_of_get (withVehicle_get_self _ _ _)]

theorem unstallVehicle_clear (hh : v.hostStall = false) : unstallVehicle slot v s = accept s .none := by
  simp [unstallVehicle, hh]

theorem unstallVehicle_stalled (hh : v.hostStall = true) (hv : tblGet s.vht.vehicles slot = some v) :
    unstallVehicle slot v s =
      accept
        (setExam
          (queueNotice (.vehicleState v.fleetId slot .released v.link false v.faultStall v.lastFault)
            (withVehicle slot { v with hostStall := false } s))) .none := by
  rw [unstallVehicle, if_pos hh, updVehicle_of_get hv, vehicleNotice_of_get (withVehicle_get_self _ _ _)]

theorem unaccounted_iff : v.unaccounted = true ↔ v.load ≠ .empty ∧ ∀ i h, v.layer i ≠ .active h := by
  rw [← activeLayer_eq_none_iff]
  simp [Vehicle.unaccounted]

theorem clearFault_clear (hf : v.faultStall = false) : clearFault slot v s = accept s .none := by
  simp [clearFault, hf]

theorem clearFault_unaccounted (hf : v.faultStall = true) (hl : v.load ≠ .empty) (ha : ∀ i h, v.layer i ≠ .active h) :
    clearFault slot v s = refuse s .wrongState := by
  simp [clearFault, hf, unaccounted_iff.2 ⟨hl, ha⟩]

theorem clearFault_stalled (hf : v.faultStall = true) (ha : v.load = .empty ∨ ∃ i h, v.layer i = .active h) :
    clearFault slot v s = accept (clearFaultStall slot s) .none := by
  have hu : v.unaccounted = false := by
    refine Bool.eq_false_iff.2 fun x => ?_
    obtain ⟨hl, hn⟩ := unaccounted_iff.1 x
    obtain ha | ⟨i, h, ha⟩ := ha
    · exact hl ha
    · exact hn i h ha
  simp [clearFault, hf, hu]

/-- Settles O31, request by request. -/
theorem stallsAreSetAndCleared : Obligations.StallsAreSetAndCleared := by
  refine ⟨fun s tag slot v a => ⟨fun hh => ?alreadyStalled, fun hh hn => ?stalls, fun i h o hh hl hn ho hs _ => ?recalls⟩,
    fun s tag slot v a => ⟨fun hh => ?alreadyReleased, fun hh => ?releases⟩,
    fun s tag slot v a => ⟨fun hf => ?noFault, fun hf hl hn => ?unaccounted, fun hf hl => ?clears⟩⟩
  case alreadyStalled => exact exec_vehicleStall_of_asks a (stallVehicle_stalled hh)
  case stalls =>
    have e := exec_vehicleStall_of_asks a (stallVehicle_clear (s := popHost s) hh (asksVehicle_record a))
    have hget : tblGet (queueNotice (.vehicleState v.fleetId slot .stalled v.link true v.faultStall v.lastFault)
        (withVehicle slot { v with hostStall := true } (popHost s))).vht.vehicles slot =
          some { v with hostStall := true } := by
      rw [(queueNotice_told _ _).vht]
      exact withVehicle_get_self _ _ _
    rw [recallStaged_of_none hget (fun i h x => hn i h (by cases i <;> exact x)), queueNotice_placeReply] at e
    exact e
  case recalls =>
    have hget : tblGet (queueNotice (.vehicleState v.fleetId slot .stalled v.link true v.faultStall v.lastFault)
        (withVehicle slot { v with hostStall := true } (popHost s))).vht.vehicles slot =
          some { v with hostStall := true } := by
      rw [(queueNotice_told _ _).vht]
      exact withVehicle_get_self _ _ _
    have back := (recallStaged_of_staged (o := o) hget (i := i) (h := h) (by cases i <;> exact hl)
      (fun g x => hn g (by cases i <;> exact x)) (by rw [(queueNotice_told _ _).ort]; exact ho) hs).placeReply
        ⟨0xB0, tag, .ok, .none⟩
    rw [issue_placeReply, queueNotice_placeReply] at back
    exact ⟨_, exec_vehicleStall_of_asks a (stallVehicle_clear (s := popHost s) hh (asksVehicle_record a)), back⟩
  case alreadyReleased => exact exec_vehicleUnstall_of_asks a (unstallVehicle_clear hh)
  case releases =>
    have e := exec_vehicleUnstall_of_asks a (unstallVehicle_stalled (s := popHost s) hh (asksVehicle_record a))
    rw [show ∀ x, placeReply ⟨0xB1, tag, .ok, .none⟩ (setExam x) = setExam (placeReply ⟨0xB1, tag, .ok, .none⟩ x) from
      fun _ => rfl, queueNotice_placeReply] at e
    exact e
  case noFault => exact exec_vehicleClearfault_of_asks a (clearFault_clear hf)
  case unaccounted => exact exec_vehicleClearfault_of_asks a (clearFault_unaccounted hf hl hn)
  case clears =>
    have e := exec_vehicleClearfault_of_asks a (clearFault_stalled (s := popHost s) hf hl)
    rw [clearFaultStall_eq (s := popHost s) (asksVehicle_record a),
      show ∀ x, placeReply ⟨0xB2, tag, .ok, .none⟩ (setExam x) = setExam (placeReply ⟨0xB2, tag, .ok, .none⟩ x) from
      fun _ => rfl, queueNotice_placeReply] at e
    exact e

end HostStalls

end Sys2Proof.Machine
end

section
/-! The places of one vehicle in the bays: finding them, giving them up, and the requests and reports that do (R101, R118,
R120, R122, R123). -/
namespace Sys2Proof.Machine

open Sys2Proof

variable {s t u : State} {b c slot tag : Nat} {y z : BayState} {v : Vehicle} {st : Status} {p : ReplyPayload}

/-! ## Where a vehicle has a place (R115) -/

section Places

theorem entryOf_isSome : (y.entryOf slot).isSome = true ↔ ∃ a ∈ y.admitted, a.slot = slot := by
  simp [BayState.entryOf]

theorem waitingOf_isSome : (y.waitingOf slot).isSome = true ↔ ∃ w ∈ y.queue, w.slot = slot := by
  simp [BayState.waitingOf]

theorem mem_admittedBays {a : Admission} :
    b ∈ admittedBays a slot ↔ ∃ y, (b, y) ∈ a.bays ∧ ∃ e ∈ y.admitted, e.slot = slot := by
  simp [admittedBays, entryOf_isSome]

theorem mem_waitingBays {a : Admission} :
    b ∈ waitingBays a slot ↔ ∃ y, (b, y) ∈ a.bays ∧ ∃ w ∈ y.queue, w.slot = slot := by
  simp [waitingBays, waitingOf_isSome]

theorem admittedBays_of_none (h : notAdmitted s slot) : admittedBays s.bac slot = [] := by
  refine List.eq_nil_iff_forall_not_mem.2 fun b hb => ?_
  obtain ⟨y, hy, a, ha, e⟩ := mem_admittedBays.1 hb
  exact h _ hy a ha e

theorem waitingBays_of_none (h : notWaiting s slot) : waitingBays s.bac slot = [] := by
  refine List.eq_nil_iff_forall_not_mem.2 fun b hb => ?_
  obtain ⟨y, hy, w, hw, e⟩ := mem_waitingBays.1 hb
  exact h _ hy w hw e

/-- The one record of a table that passes a test. -/
theorem filter_eq_single {β : Type} {x : Tbl β} (hx : tblWf x = true) {q : β → Bool} {r : β} (hr : tblGet x b = some r)
    (hq : q r = true) (hn : ∀ e ∈ x, e.1 ≠ b → q e.2 = false) : x.filter (fun e => q e.2) = [(b, r)] := by
  induction x with
  | nil => simp at hr
  | cons e x ih =>
    obtain ⟨j, w⟩ := e
    by_cases hj : j = b
    · subst hj
      obtain rfl : w = r := by simpa [tblGet] using hr
      have hrest : x.filter (fun e => q e.2) = [] := by
        refine List.filter_eq_nil_iff.2 fun e he => ?_
        have hlt := tblWf_head_lt hx e he
        simp [hn e (List.mem_cons_of_mem _ he) (by omega)]
      simp [hq, hrest]
    · have hrest := ih (tblWf_tail hx) (by simpa [tblGet, hj] using hr) fun e he => hn e (List.mem_cons_of_mem _ he)
      simp [hn (j, w) List.mem_cons_self hj, hrest]

theorem admittedBays_of_one (hw : tblWf s.bac.bays = true) (hy : tblGet s.bac.bays b = some y)
    (ha : ∃ a ∈ y.admitted, a.slot = slot)
    (hn : ∀ e ∈ s.bac.bays, e.1 ≠ b → ∀ a ∈ e.2.admitted, a.slot ≠ slot) : admittedBays s.bac slot = [b] := by
  rw [admittedBays, filter_eq_single (q := fun y => (y.entryOf slot).isSome) hw hy (entryOf_isSome.2 ha)]
  · rfl
  · intro e he hne
    refine Bool.eq_false_iff.2 fun x => ?_
    obtain ⟨a, hm, e'⟩ := entryOf_isSome.1 x
    exact hn e he hne a hm e'

theorem waitingBays_of_one (hw : tblWf s.bac.bays = true) (hy : tblGet s.bac.bays b = some y)
    (ha : ∃ w ∈ y.queue, w.slot = slot)
    (hn : ∀ e ∈ s.bac.bays, e.1 ≠ b → ∀ w ∈ e.2.queue, w.slot ≠ slot) : waitingBays s.bac slot = [b] := by
  rw [waitingBays, filter_eq_single (q := fun y => (y.waitingOf slot).isSome) hw hy (waitingOf_isSome.2 ha)]
  · rfl
  · intro e he hne
    refine Bool.eq_false_iff.2 fun x => ?_
    obtain ⟨a, hm, e'⟩ := waitingOf_isSome.1 x
    exact hn e he hne a hm e'

theorem entryIn_of_get (hy : tblGet s.bac.bays b = some y) : entryIn s.bac b slot = y.entryOf slot := by
  simp only [entryIn, hy]

theorem entryIn_of_mem (hy : tblGet s.bac.bays b = some y) (ha : ∃ a ∈ y.admitted, a.slot = slot) :
    ∃ a, entryIn s.bac b slot = some a := by
  rw [entryIn_of_get hy]
  exact Option.isSome_iff_exists.1 (entryOf_isSome.2 ha)

theorem entryOf_eq_none_iff : y.entryOf slot = none ↔ ∀ a ∈ y.admitted, a.slot ≠ slot := by
  simp [BayState.entryOf]

theorem waitingOf_eq_none_iff : y.waitingOf slot = none ↔ ∀ w ∈ y.queue, w.slot ≠ slot := by
  simp [BayState.waitingOf]

theorem entryIn_eq_none_iff :
    entryIn s.bac b slot = none ↔ ∀ y, tblGet s.bac.bays b = some y → ∀ a ∈ y.admitted, a.slot ≠ slot := by
  unfold entryIn
  split
  · next y hy =>
    rw [entryOf_eq_none_iff]
    exact ⟨fun h z hz => Option.some.inj (hy.symm.trans hz) ▸ h, fun h => h y hy⟩
  · next hy => exact ⟨fun _ z hz => absurd (hy.symm.trans hz) (by simp), fun _ => rfl⟩

theorem entryOf_mem {a : Admitted} (h : y.entryOf slot = some a) : a ∈ y.admitted ∧ a.slot = slot :=
  ⟨List.mem_of_find?_eq_some h, by simpa using List.find?_some h⟩

theorem waitingOf_mem {w : Waiting} (h : y.waitingOf slot = some w) : w ∈ y.queue ∧ w.slot = slot :=
  ⟨List.mem_of_find?_eq_some h, by simpa using List.find?_some h⟩

end Places

/-! ## Steps on bays alone, which grant from queues and take entries away -/

/-- A bay's places between `y` and `z`: an entry that joined came from the queue, GRANTED. -/
structure PlacesFrom (y z : BayState) : Prop where
  admitted : ∀ a ∈ z.admitted, a ∈ y.admitted ∨ ∃ w ∈ y.queue, w.slot = a.slot ∧ a.inside = false
  queue : ∀ w ∈ z.queue, w ∈ y.queue

theorem PlacesFrom.refl (y : BayState) : PlacesFrom y y := ⟨fun _ h => .inl h, fun _ h => h⟩

theorem PlacesFrom.trans {x : BayState} (h : PlacesFrom x y) (k : PlacesFrom y z) : PlacesFrom x z where
  admitted a ha := by
    obtain ha | ⟨w, hw, e⟩ := k.admitted a ha
    · exact h.admitted a ha
    · exact .inr ⟨w, h.queue w hw, e⟩
  queue w hw := h.queue w (k.queue w hw)

/-- A step that gives up places and grants from queues, and does nothing else. -/
structure BaysLeft (s t : State) : Prop where
  only : t =
    { s with
      liu := { s.liu with fleetOut := t.liu.fleetOut }
      bac := { s.bac with bays := t.bac.bays }
      asa := { s.asa with examPending := t.asa.examPending } }
  places : ∀ c z, tblGet t.bac.bays c = some z → ∃ y, tblGet s.bac.bays c = some y ∧ PlacesFrom y z

namespace BaysLeft

theorem refl (s : State) : BaysLeft s s := ⟨rfl, fun _ z hz => ⟨z, hz, .refl z⟩⟩

theorem trans (h : BaysLeft s t) (k : BaysLeft t u) : BaysLeft s u where
  only := by rw [k.only, h.only]
  places c z hz := by
    obtain ⟨y, hy, py⟩ := k.places c z hz
    obtain ⟨x, hx, px⟩ := h.places c y hy
    exact ⟨x, hx, px.trans py⟩

theorem vht (h : BaysLeft s t) : t.vht = s.vht := by rw [h.only]
theorem ort (h : BaysLeft s t) : t.ort = s.ort := by rw [h.only]
theorem shm (h : BaysLeft s t) : t.shm = s.shm := by rw [h.only]
theorem fcr (h : BaysLeft s t) : t.fcr = s.fcr := by rw [h.only]
theorem lyt (h : BaysLeft s t) : t.lyt = s.lyt := by rw [h.only]
theorem now (h : BaysLeft s t) : t.now = s.now := by rw [h.only]
theorem gwrdy (h : BaysLeft s t) : t.gwrdy = s.gwrdy := by rw [h.only]
theorem notices (h : BaysLeft s t) : t.liu.notices = s.liu.notices := by rw [h.only]
theorem gapMark (h : BaysLeft s t) : t.liu.gapMark = s.liu.gapMark := by rw [h.only]

theorem framed (h : BaysLeft s t) : Framed s t := by
  rw [h.only]
  constructor <;> rfl

end BaysLeft

section Steps

theorem withBay_left (hy : tblGet s.bac.bays b = some y) (h : PlacesFrom y z) : BaysLeft s (withBay b z s) where
  only := rfl
  places c x hx := by
    by_cases hc : c = b
    · subst hc
      rw [withBay_get_self] at hx
      exact ⟨y, hy, Option.some.inj hx ▸ h⟩
    · rw [withBay_others z s c hc] at hx
      exact ⟨x, hx, .refl x⟩

theorem updBay_of_free {f : BayState → BayState} (hy : tblGet s.bac.bays b = none) : updBay b f s = s := by
  simp only [updBay, hy]

theorem grantQueue_of_free (hy : tblGet s.bac.bays b = none) : grantQueue b s = s := by
  simp only [grantQueue, hy]

theorem updBay_left {f : BayState → BayState} (h : ∀ y x, PlacesFrom y { f y with yield := x }) :
    BaysLeft s (updBay b f s) := by
  cases hy : tblGet s.bac.bays b with
  | none =>
    rw [updBay_of_free hy]
    exact .refl s
  | some y =>
    rw [updBay_of_get hy]
    exact withBay_left hy (h y _)

theorem setExam_left (s : State) : BaysLeft s (setExam s) := ⟨rfl, fun _ z hz => ⟨z, hz, .refl z⟩⟩

theorem SendsOnly.left {f : State → State} (h : SendsOnly f) (s : State) : BaysLeft s (f s) := by
  refine ⟨?_, ?_⟩
  · rw [h.only s]
  · rw [h.bac]
    exact fun _ z hz => ⟨z, hz, .refl z⟩

theorem leaveBay_left (b slot : Nat) (s : State) : BaysLeft s (leaveBay b slot s) := by
  unfold leaveBay
  split
  · refine BaysLeft.trans (updBay_left fun y x => ?_) (setExam_left _)
    exact ⟨fun a ha => .inl (List.mem_of_mem_filter ha), fun _ h => h⟩
  · exact .refl s

theorem leaveQueue_left (b slot : Nat) (s : State) : BaysLeft s (leaveQueue b slot s) :=
  updBay_left fun y x => ⟨fun _ h => .inl h, fun w hw => List.mem_of_mem_filter hw⟩

theorem grantQueue_left (b : Nat) (s : State) : BaysLeft s (grantQueue b s) := by
  cases hy : tblGet s.bac.bays b with
  | none =>
    rw [grantQueue_of_free hy]
    exact .refl s
  | some y =>
    have g := grantQueue_granted hy
    obtain ⟨z, hz, _, _, _, _, h5, h6⟩ := g.bay
    have from_y : PlacesFrom y z := by
      refine ⟨fun a ha => ?_, fun w hw => List.mem_of_mem_drop (h6 ▸ hw)⟩
      rw [h5] at ha
      obtain ha | ha := List.mem_append.1 ha
      · exact .inl ha
      · obtain ⟨w, hw, rfl⟩ := List.mem_map.1 ha
        exact .inr ⟨w, List.mem_of_mem_take hw, rfl, rfl⟩
    refine ⟨by rw [g.only], fun c x hx => ?_⟩
    by_cases hc : c = b
    · subst hc
      rw [hz] at hx
      exact ⟨y, hy, Option.some.inj hx ▸ from_y⟩
    · rw [g.bays c hc] at hx
      exact ⟨x, hx, .refl x⟩

theorem grantQueue_others (b : Nat) (s : State) : otherBaysKept b s (grantQueue b s) := by
  cases hy : tblGet s.bac.bays b with
  | none =>
    rw [grantQueue_of_free hy]
    exact fun _ _ => rfl
  | some y => exact (grantQueue_granted hy).bays

theorem leaveBay_others (b slot : Nat) (s : State) : otherBaysKept b s (leaveBay b slot s) := by
  intro c hc
  unfold leaveBay
  split
  · rw [setExam_bac, updBay_get, if_neg hc]
  · rfl

/-- A bay that a vehicle has left holds no entry of it. -/
theorem leaveBay_gone (b slot : Nat) (s : State) :
    ∀ z, tblGet (leaveBay b slot s).bac.bays b = some z → ∀ a ∈ z.admitted, a.slot ≠ slot := by
  intro z hz a ha
  unfold leaveBay at hz
  split at hz
  · rw [setExam_bac, updBay_get, if_pos rfl] at hz
    obtain ⟨y, _, rfl⟩ := Option.map_eq_some_iff.1 hz
    simpa using (List.mem_filter.1 ha).2
  · next hnone => exact entryIn_eq_none_iff.1 hnone z hz a ha

theorem leaveBaysGranting_left (bs : List Nat) (slot : Nat) (s : State) : BaysLeft s (leaveBaysGranting bs slot s) := by
  induction bs generalizing s with
  | nil => exact .refl s
  | cons b bs ih => exact ((leaveBay_left b slot s).trans (grantQueue_left b _)).trans (ih _)

theorem leaveBaysGranting_others {bs : List Nat} (hc : c ∉ bs) :
    tblGet (leaveBaysGranting bs slot s).bac.bays c = tblGet s.bac.bays c := by
  induction bs generalizing s with
  | nil => rfl
  | cons b bs ih =>
    obtain ⟨hb, hbs⟩ := not_or.1 (mt List.mem_cons.2 hc)
    rw [leaveBaysGranting, ih hbs, grantQueue_others b _ c hb, leaveBay_others b slot s c hb]

/-- Bays that a vehicle leaves and that do not have it in their queues hold of it what they held in the others. -/
theorem leaveBaysGranting_entries {bs : List Nat} {P : Admitted → Prop}
    (hq : ∀ c ∈ bs, ∀ y, tblGet s.bac.bays c = some y → ∀ w ∈ y.queue, w.slot ≠ slot)
    (hP : ∀ c ∉ bs, ∀ y, tblGet s.bac.bays c = some y → ∀ a ∈ y.admitted, a.slot = slot → P a) :
    ∀ c z, tblGet (leaveBaysGranting bs slot s).bac.bays c = some z → ∀ a ∈ z.admitted, a.slot = slot → P a := by
  induction bs generalizing s with
  | nil => exact fun c z hz => hP c List.not_mem_nil z hz
  | cons b bs ih =>
    have left := (leaveBay_left b slot s).trans (grantQueue_left b _)
    refine ih (fun c hc y hy w hw => ?_) (fun c hc y hy a ha hs => ?_)
    · obtain ⟨x, hx, px⟩ := left.places c y hy
      exact hq c (List.mem_cons_of_mem b hc) x hx w (px.queue w hw)
    · by_cases hb : c = b
      · subst hb
        obtain ⟨x, hx, px⟩ := (grantQueue_left c _).places c y hy
        obtain ha | ⟨w, hw, e, _⟩ := px.admitted a ha
        · exact absurd hs (leaveBay_gone c slot s x hx a ha)
        · obtain ⟨x', hx', px'⟩ := (leaveBay_left c slot s).places c x hx
          exact absurd (e.trans hs) (hq c List.mem_cons_self x' hx' w (px'.queue w hw))
      · rw [grantQueue_others b _ c hb, leaveBay_others b slot s c hb] at hy
        exact hP c (mt List.mem_cons.1 (not_or.2 ⟨hb, hc⟩)) y hy a ha hs

theorem leaveQueues_left (bs : List Nat) (slot : Nat) (s : State) : BaysLeft s (leaveQueues bs slot s) := by
  induction bs generalizing s with
  | nil => exact .refl s
  | cons b bs ih => exact (leaveQueue_left b slot s).trans (ih _)

/-- The bays whose queues a vehicle leaves, which hold all else as they did. -/
theorem leaveQueues_get {bs : List Nat} (hy : tblGet s.bac.bays c = some y) :
    ∃ z, tblGet (leaveQueues bs slot s).bac.bays c = some z ∧ z.admitted = y.admitted ∧ z.capacity = y.capacity ∧
      z.soft = y.soft ∧ z.quota = y.quota ∧ z.isOpen = y.isOpen ∧
      z.queue = if c ∈ bs then y.queue.filter (fun w => w.slot != slot) else y.queue := by
  induction bs generalizing s y with
  | nil => exact ⟨y, hy, rfl, rfl, rfl, rfl, rfl, by simp⟩
  | cons b bs ih =>
    by_cases hb : c = b
    · subst hb
      obtain ⟨z, hz, h1, h2, h3, h4, h5, h6⟩ := ih (s := leaveQueue c slot s)
        (by rw [leaveQueue, updBay_of_get hy]; exact withBay_get_self _ _)
      refine ⟨z, hz, h1, h2, h3, h4, h5, ?_⟩
      rw [h6, if_pos List.mem_cons_self]
      split
      · rw [List.filter_filter]
        simp
      · rfl
    · obtain ⟨z, hz, h1, h2, h3, h4, h5, h6⟩ := ih (s := leaveQueue b slot s) (y := y)
        (by rw [leaveQueue, updBay_get, if_neg hb]; exact hy)
      refine ⟨z, hz, h1, h2, h3, h4, h5, ?_⟩
      rw [h6]
      simp [hb]

end Steps

/-! ## EXIT and the lapse of a grant (R122, R123) -/

section GivenUp

theorem exec_exit_of_waits {x : Byte} (h : reportWaits s 0x5D slot v [x]) :
    exec .exit s = .next (exitBay slot (u8 x) (taken s slot v)) :=
  congrArg Host.Outcome.next (takeReport_of_waits (form := decodeU8) (act := exitBay) h rfl)

theorem taken_get (s : State) (slot : Nat) (v : Vehicle) :
    tblGet (taken s slot v).vht.vehicles slot = some (heardVehicle s v) := tblGet_set_self _ _ _

/-- Settles O48: the vehicle's entry is found, and its place given up. -/
theorem placesAreGivenUp : Obligations.PlacesAreGivenUp := by
  refine ⟨fun s slot v x h => ⟨fun y hy ha => ?exit, fun hn => ?phantom⟩,
    fun s b slot v y a l hv hy hf hi hl hdue hstart => ?lapse⟩
  case exit =>
    obtain ⟨a, ha⟩ := entryIn_of_mem (s := taken s slot v) hy ha
    have e : exitBay slot (u8 x) (taken s slot v) = grantQueue (u8 x) (leaveBay (u8 x) slot (taken s slot v)) := by
      simp only [exitBay, ha]
    exact ⟨_, (exec_exit_of_waits h).trans (congrArg _ e), placeGivenUp_of_granted .id hy ha⟩
  case phantom =>
    have hnone : entryIn (taken s slot v).bac (u8 x) slot = none := entryIn_eq_none_iff.2 hn
    have e : exitBay slot (u8 x) (taken s slot v) =
        raiseIncident (vehicleIncident s .phantomExit v none (some (u8 x))) (taken s slot v) := by
      simp only [exitBay, hnone, raiseVehicle_of_get (taken_get s slot v)]
      rfl
    exact (exec_exit_of_waits h).trans (congrArg _ e)
  case lapse =>
    have ha : entryIn s.bac b slot = some a := (entryIn_of_get hy).trans hf
    have due : lapseDue s b slot = true := by
      simp [lapseDue, ha, hi, hl, timerDue, Timer.due, hdue, hstart]
    have e : exec (.lapseTimerExpiry b slot) s = .next (lapseGrant b slot s) := if_pos due
    have g := placeGivenUp_of_granted (issueTo_sendsOnly slot (.entryVoid b .lapsed)) hy ha
    refine ⟨_, e, { g with lines := g.lines.trans ?_ }⟩
    rw [issueTo_eq_issue _ hv]

end GivenUp

/-! ## Settings of vehicles and their retirement (R101, R105, R109) -/

section Settings

theorem exec_vehicleAutorelease_of_asks {x : Byte} (a : asksVehicle s 0x33 tag slot v [x]) {value : Bool}
    (hx : flagOf (u8 x) = some value) (ha : setAutoRelease value slot v (popHost s) = ⟨t, st, p⟩) :
    exec .vehicleAutorelease s = .next (placeReply ⟨0xB3, tag, st, p⟩ t) := by
  obtain ⟨f0, f1, hr, h0, h1, hslot, hv⟩ := a
  refine congrArg Host.Outcome.next (takeRequest_running (form := decodeVehicleNum) (act := autoRelease) hr rfl ?_)
  simp only [autoRelease, hx]
  rw [onVehicle_named (s := popHost s) h0 h1 hslot hv]
  exact ha

theorem exec_vehicleAutorelease_badValue {f0 f1 x : Byte}
    (h : askedRunning s 0x33 tag [f0, f1, x]) (hx : 2 ≤ u8 x) :
    exec .vehicleAutorelease s = .next (replied 0x33 tag .badField .none s) := by
  have e : autoRelease ⟨u16 f0 f1, u8 x⟩ (popHost s) = refuse (popHost s) .badField := by
    simp only [autoRelease, flagOf_eq_none_iff.2 hx]
  exact congrArg Host.Outcome.next (takeRequest_running (form := decodeVehicleNum) (act := autoRelease) h rfl e)

theorem exec_vehicleGroups_of_asks {x : Byte} (a : asksVehicle s 0x34 tag slot v [x])
    (ha : setGroups (BitVec.ofNat 8 (u8 x)) slot v (popHost s) = ⟨t, st, p⟩) :
    exec .vehicleGroups s = .next (placeReply ⟨0xB4, tag, st, p⟩ t) :=
  congrArg Host.Outcome.next
    (takeRequest_vehicle (form := decodeVehicleNum) (num := VehicleNumReq.fleetId)
      (act := fun r => setGroups (BitVec.ofNat 8 r.value)) a fun f0 f1 => ⟨⟨u16 f0 f1, u8 x⟩, rfl, rfl, ha⟩)

theorem exec_vehicleRetire_of_asks (a : asksVehicle s 0x36 tag slot v [])
    (ha : retireVehicle slot v (popHost s) = ⟨t, st, p⟩) :
    exec .vehicleRetire s = .next (placeReply ⟨0xB6, tag, st, p⟩ t) :=
  congrArg Host.Outcome.next
    (takeRequest_vehicle (form := decodeU16) (num := id) (act := fun _ => retireVehicle) a fun _ _ => ⟨_, rfl, rfl, ha⟩)

theorem retireVehicle_online (h : v.link = .online) : retireVehicle slot v s = refuse s .wrongState := by
  simp [retireVehicle, Vehicle.online, h]

theorem retireVehicle_working (h : v.link ≠ .online) (hb : v.layer0 ≠ .empty ∨ v.layer1 ≠ .empty) :
    retireVehicle slot v s = refuse s .tooLate := by
  have hb : v.bothEmpty = false := Bool.eq_false_iff.2 fun x => by
    obtain ⟨h0, h1⟩ := bothEmpty_iff.1 x
    exact hb.elim (fun n => n h0) fun n => n h1
  simp [retireVehicle, Vehicle.online, h, hb]

theorem retireVehicle_accepts (h : v.link ≠ .online) (h0 : v.layer0 = .empty) (h1 : v.layer1 = .empty) :
    retireVehicle slot v s = accept (freeSlot slot s) .none := by
  simp [retireVehicle, Vehicle.online, h, bothEmpty_iff.2 ⟨h0, h1⟩]

theorem grantsSent_placeReply (b : Nat) (ws : List Waiting) (r : Reply) (s : State) :
    placeReply r (grantsSent b ws s) = grantsSent b ws (placeReply r s) := by
  induction ws generalizing s with
  | nil => rfl
  | cons w ws ih => rw [grantsSent, ih, issueTo_placeReply]; rfl

/-- A place given up under a reply, with nothing sent first (R175). -/
theorem PlaceGivenUp.placeReply (g : PlaceGivenUp b y id s t) (r : Reply) :
    PlaceGivenUp b y id (placeReply r s) (placeReply r t) where
  framed := g.framed.placeReply r
  bay := g.bay
  bays := g.bays
  lines := (placeReply_liu_congr r g.lines).trans (congrArg State.liu (grantsSent_placeReply b _ r s))
  exam := g.exam
  kept := g.kept

/-- The state as the record of a retired vehicle has gone. -/
def withoutVehicle (slot : Nat) (s : State) : State :=
  { s with vht := { s.vht with vehicles := tblErase s.vht.vehicles slot } }

theorem freeSlot_eq (slot : Nat) (s : State) :
    freeSlot slot s = leaveBaysGranting (admittedBays s.bac slot) slot (withoutVehicle slot s) := rfl

theorem freeSlot_left (slot : Nat) (s : State) : BaysLeft (withoutVehicle slot s) (freeSlot slot s) :=
  leaveBaysGranting_left _ _ _

section Refusals

variable {f0 f1 : Byte} {extra : List Byte}

theorem decodeU16_id {r : Nat} (h : decodeU16 (f0 :: f1 :: extra) = some r) : r = u16 f0 f1 := by
  unfold decodeU16 at h
  split at h <;> cases h
  next e =>
    cases e
    rfl

theorem decodeVehicleNum_id {r : VehicleNumReq} (h : decodeVehicleNum (f0 :: f1 :: extra) = some r) :
    ∃ x, extra = [x] ∧ r = ⟨u16 f0 f1, u8 x⟩ := by
  unfold decodeVehicleNum at h
  split at h <;> cases h
  next e =>
    cases e
    exact ⟨_, rfl, rfl⟩

/-- A request whose fleet id is refused, whatever its own rule is. -/
theorem takeRequest_noVehicle {α : Type} {kind : Nat} {payload : List Byte} {form : List Byte → Option α} {num : α → Nat}
    {act : α → Nat → Vehicle → State → Answered} {r : α} {f : Nat} (a : askedRunning s kind tag payload)
    (hf : form payload = some r) (hn : num r = f)
    (no : ∀ act, onVehicle f act (popHost s) = refuse (popHost s) st) :
    takeRequest kind form (whenRunning (fun r => onVehicle (num r) (act r))) s = replied kind tag st .none s :=
  takeRequest_running (act := fun r => onVehicle (num r) (act r)) (t := popHost s) (st := st) (p := .none) a hf
    (by rw [hn]; exact no _)

theorem takeRequest_autoRelease_noVehicle {x : Byte} (a : askedRunning s 0x33 tag [f0, f1, x])
    (no : ∀ act, onVehicle (u16 f0 f1) act (popHost s) = refuse (popHost s) st) (hx : u8 x ≤ 1 ∨ st = .badField) :
    takeRequest 0x33 decodeVehicleNum (whenRunning autoRelease) s = replied 0x33 tag st .none s := by
  refine takeRequest_running (form := decodeVehicleNum) (r := ⟨u16 f0 f1, u8 x⟩) (act := autoRelease) (t := popHost s)
    (st := st) (p := .none) a rfl ?_
  unfold autoRelease
  split
  · exact no _
  · next hnone =>
    have h2 : 2 ≤ u8 x := flagOf_eq_none_iff.1 hnone
    obtain hx | rfl := hx
    · omega
    · rfl

/-- The requests that name a fleet id refuse one that is none, or that the map does not hold. -/
theorem exec_noVehicle {kind : Nat} {i : Instr} (a : askedRunning s kind tag (f0 :: f1 :: extra))
    (hi : hostRow kind = some i) (hf : requestFits kind (f0 :: f1 :: extra) = true) (h1 : 0x30 ≤ kind) (h2 : kind ≤ 0x36)
    (h3 : kind ≠ 0x35) (no : ∀ act, onVehicle (u16 f0 f1) act (popHost s) = refuse (popHost s) st)
    (hx : ∀ x, kind = 0x33 → extra = [x] → u8 x ≤ 1 ∨ st = .badField) :
    exec i s = .next (replied kind tag st .none s) := by
  interval_cases kind <;> obtain rfl := Option.some.inj hi <;> obtain ⟨r, hr⟩ := Option.isSome_iff_exists.1 hf
  · exact congrArg Host.Outcome.next
      (takeRequest_noVehicle (num := id) (act := fun _ => stallVehicle) a hr (decodeU16_id hr) no)
  · exact congrArg Host.Outcome.next
      (takeRequest_noVehicle (num := id) (act := fun _ => unstallVehicle) a hr (decodeU16_id hr) no)
  · exact congrArg Host.Outcome.next
      (takeRequest_noVehicle (num := id) (act := fun _ => clearFault) a hr (decodeU16_id hr) no)
  · obtain ⟨x, rfl, -⟩ := decodeVehicleNum_id hr
    exact congrArg Host.Outcome.next (takeRequest_autoRelease_noVehicle a no (hx x rfl rfl))
  · obtain ⟨x, rfl, hr'⟩ := decodeVehicleNum_id hr
    exact congrArg Host.Outcome.next
      (takeRequest_noVehicle (num := VehicleNumReq.fleetId) (act := fun r => setGroups (BitVec.ofNat 8 r.value)) a hr
        (by rw [hr']) no)
  · contradiction
  · exact congrArg Host.Outcome.next
      (takeRequest_noVehicle (num := id) (act := fun _ => retireVehicle) a hr (decodeU16_id hr) no)

end Refusals

/-- Settles O32, request by request, and then the refusals of a fleet id. -/
theorem vehicleSettingsAndRetire : Obligations.VehicleSettingsAndRetire := by
  refine ⟨fun s tag slot v x a => ⟨fun hx hf => ?stalled, fun hx => ?set, fun hx => ?badValue⟩, fun s tag slot v m a => ?groups,
    fun s tag slot v a => ⟨fun hl => ?online, fun hl hb => ?working, fun hl h0 h1 hw hq => ?retires⟩,
    fun s kind tag payload extra f0 f1 i a hi hf h1 h2 h3 hp => ?refusals⟩
  case stalled =>
    have e : setAutoRelease true slot v (popHost s) = refuse (popHost s) .wrongState := by simp [setAutoRelease, hf]
    exact exec_vehicleAutorelease_of_asks a (flagOf_iff.2 (.inr ⟨hx, rfl⟩)) e
  case set =>
    have hv := asksVehicle_record a
    have hflag : flagOf (u8 x) = some (decide (u8 x = 1)) := flagOf_of_le (by omega)
    have e : setAutoRelease (decide (u8 x = 1)) slot v (popHost s) =
        accept (withVehicle slot { v with autoRelease := decide (u8 x = 1) } (popHost s)) .none := by
      rw [setAutoRelease, updVehicle_of_get hv]
      refine if_neg fun h => ?_
      obtain hx | ⟨_, hf⟩ := hx
      · simp [hx] at h
      · simp [hf] at h
    exact exec_vehicleAutorelease_of_asks a hflag e
  case badValue =>
    obtain ⟨f0, f1, hr, _⟩ := a
    exact exec_vehicleAutorelease_badValue hr hx
  case groups =>
    have hv := asksVehicle_record a
    have hm : BitVec.ofNat 8 (u8 m) = m := by simp [u8]
    have e := exec_vehicleGroups_of_asks a (x := m) rfl
    rw [e, hm, updVehicle_of_get hv, setExamIf_placeReply]
    rfl
  case online => exact exec_vehicleRetire_of_asks a (retireVehicle_online hl)
  case working => exact exec_vehicleRetire_of_asks a (retireVehicle_working hl hb)
  case retires =>
    have left := freeSlot_left slot (popHost s)
    have steady := leaveBaysGranting_steady (admittedBays s.bac slot) slot (withoutVehicle slot (popHost s))
    have wf : tblWf (freeSlot slot (popHost s)).bac.bays = true := steady.bayWf hw
    have get {b : Nat} {y : BayState} (hy : tblGet s.bac.bays b = some y) : (b, y) ∈ s.bac.bays := tblGet_mem hy
    refine ⟨_, exec_vehicleRetire_of_asks a (retireVehicle_accepts (s := popHost s) hl h0 h1), ?_, ?_, fun k hk => ?_,
      fun e he d hd hs => ?_, fun b y hy hn => ?_, fun hn => ?_, fun b y hy hd hn => ?_, left.ort, left.shm, left.fcr,
      left.notices⟩
    · have gone : Framed (popHost s) (withoutVehicle slot (popHost s)) := by constructor <;> rfl
      exact (gone.trans left.framed).placeReply _
    · rw [placeReply_vht, left.vht]
      exact tblGet_erase_self _ _
    · rw [placeReply_vht, left.vht]
      exact tblGet_erase_other _ hk
    · refine leaveBaysGranting_entries (s := withoutVehicle slot (popHost s)) (bs := admittedBays s.bac slot)
        (P := fun _ => False) (fun c _ y hy => hq _ (get hy)) (fun c hc y hy d hd hs => ?_) e.1 e.2
        (tblGet_of_mem wf he) d hd hs
      exact hc (mem_admittedBays.2 ⟨y, get hy, d, hd, hs⟩)
    · refine (leaveBaysGranting_others (s := withoutVehicle slot (popHost s)) fun hb => ?_).trans hy
      obtain ⟨z, hz, d, hd, hs⟩ := mem_admittedBays.1 hb
      obtain rfl : y = z := Option.some.inj (hy.symm.trans (tblGet_of_mem hw hz))
      exact hn d hd hs
    · have e : freeSlot slot (popHost s) = withoutVehicle slot (popHost s) := by
        rw [freeSlot_eq, admittedBays_of_none (s := popHost s) hn]
        rfl
      rw [e]
      exact ⟨rfl, rfl⟩
    · have e : freeSlot slot (popHost s) = grantQueue b (leaveBay b slot (withoutVehicle slot (popHost s))) := by
        rw [freeSlot_eq, admittedBays_of_one (s := popHost s) hw hy hd hn]
        rfl
      obtain ⟨d, hd⟩ := entryIn_of_mem (s := withoutVehicle slot (popHost s)) hy hd
      have g := (placeGivenUp_of_granted (s := withoutVehicle slot (popHost s)) .id hy hd).placeReply ⟨0xB6, tag, .ok, .none⟩
      rw [placeReply_vht, left.vht, e]
      exact g
  case refusals =>
    subst hp
    refine ⟨fun hbad => exec_noVehicle a hi hf h1 h2 h3 (fun act => if_neg fun h => ?_) fun _ _ _ => .inr rfl,
      fun h4 h5 hn hx => exec_noVehicle a hi hf h1 h2 h3 (fun act => onVehicle_unknown h4 h5 hn) fun x hk he =>
        .inl (hx x hk he)⟩
    have := fleetIdValid_iff.1 h
    omega

end Settings
end Sys2Proof.Machine
end

section
/-! Reports on orders: TAKEN, the picks, and the answers to an ABORT (R53 to R55, R57, R108, R127, R159, R160). -/
namespace Sys2Proof.Machine

open Sys2Proof

variable {s t u : State} {slot h tag b : Nat} {v w : Vehicle} {i : LayerId} {o q : Order}

/-! ## Reports on the ACTIVE order (R108) -/

section Active

variable {kind : Nat} {payload : List Byte} {act : Vehicle → Order → State → State}

/-- A report on the order that its vehicle holds ACTIVE acts on the order's record. -/
theorem onActive_of_reports (a : reportsActive s kind slot v payload h o) :
    onActive slot h act (taken s slot v) = act (heardVehicle s v) o (taken s slot v) := by
  obtain ⟨_, ho, i, hl, hn, _⟩ := a
  have hactive : (heardVehicle s v).activeHandle = some h :=
    activeHandle_of_layer (v := heardVehicle s v) (i := i) (by cases i <;> exact hl) (fun g x => hn g (by cases i <;> exact x))
  have ho' : tblGet (taken s slot v).ort.orders h = some o := ho
  simp only [onActive, taken_get, ho', if_pos hactive]

theorem discard_eq {layer : Option Nat} (hv : tblGet s.vht.vehicles slot = some v) :
    discard slot h layer s = issue v.fleetId (.discard h layer) s := issueTo_eq_issue _ hv

/-- A report on an order that its vehicle does not hold ACTIVE is stale. -/
theorem onActive_of_stale (h0 : v.layer0 ≠ .active h) (h1 : v.layer1 ≠ .active h) :
    onActive slot h act (taken s slot v) = issue v.fleetId (.discard h none) (taken s slot v) := by
  have hactive : (heardVehicle s v).activeHandle ≠ some h := by
    intro e
    obtain ⟨⟨g, i⟩, hg, rfl⟩ := Option.map_eq_some_iff.1 e
    cases i
    · exact h0 (layer_of_activeLayer hg)
    · exact h1 (layer_of_activeLayer hg)
  have e := discard_eq (h := h) (layer := none) (taken_get s slot v)
  unfold onActive
  rw [taken_get]
  split
  · next w q hw _ =>
    obtain rfl := Option.some.inj hw
    rw [if_neg hactive]
    exact e
  · exact e

theorem reportsActive_record (a : reportsActive s kind slot v payload h o) :
    tblGet (taken s slot v).ort.orders h = some o := a.2.1

theorem exec_pickBegin_of_waits {x : Byte} (a : reportWaits s 0x54 slot v [x]) :
    exec .pickBegin s = .next (reportPickBegin slot (u8 x) (taken s slot v)) :=
  congrArg Host.Outcome.next (takeReport_of_waits (form := decodeU8) (act := reportPickBegin) a rfl)

theorem exec_pickEnd_of_waits {r : PickEndRep} (a : reportWaits s 0x55 slot v payload) (hr : decodePickEnd payload = some r) :
    exec .pickEnd s = .next (reportPickEnd slot r (taken s slot v)) :=
  congrArg Host.Outcome.next (takeReport_of_waits (act := reportPickEnd) a hr)

theorem exec_placeBegin_of_waits {x y n0 n1 : Byte} (a : reportWaits s 0x56 slot v [x, y, n0, n1]) :
    exec .placeBegin s = .next (reportPlaceBegin slot ⟨u8 x, endpointField y n0 n1⟩ (taken s slot v)) :=
  congrArg Host.Outcome.next (takeReport_of_waits (form := decodePlace) (act := reportPlaceBegin) a rfl)

theorem exec_placeEnd_of_waits {x y n0 n1 : Byte} (a : reportWaits s 0x57 slot v [x, y, n0, n1]) :
    exec .placeEnd s = .next (reportPlaceEnd slot ⟨u8 x, endpointField y n0 n1⟩ (taken s slot v)) :=
  congrArg Host.Outcome.next (takeReport_of_waits (form := decodePlace) (act := reportPlaceEnd) a rfl)

theorem exec_aborted_of_waits {x : Byte} (a : reportWaits s 0x58 slot v [x]) :
    exec .aborted s = .next (reportAborted slot (u8 x) (taken s slot v)) :=
  congrArg Host.Outcome.next (takeReport_of_waits (form := decodeU8) (act := reportAborted) a rfl)

theorem exec_abortLate_of_waits {x : Byte} (a : reportWaits s 0x59 slot v [x]) :
    exec .abortLate s = .next (reportAbortLate slot (u8 x) (taken s slot v)) :=
  congrArg Host.Outcome.next (takeReport_of_waits (form := decodeU8) (act := reportAbortLate) a rfl)

end Active

/-! ## Carrier-involved handling (R159) -/

section Involved

theorem lastFaultClass_of_get (hv : tblGet s.vht.vehicles slot = some v) : lastFaultClass s slot = faultClassOf v := by
  cases hl : v.lastFault <;> simp only [lastFaultClass, hv, faultClassOf, hl]

/-- An order suspended from a state other than QUEUED. -/
theorem suspendOrder_stepped (ho : tblGet s.ort.orders h = some o) (hq : o.state ≠ .queued) (why : SuspendReason) :
    OrderStepped h o (suspendedOrder s why o) (.suspend why) s (suspendOrder h why s) := by
  have e := moveOrder_kept (s := s)
    (f := fun o => { o with suspendReason := some why, orphan := some (startTimer s.now s.fcr.tOrphan) })
    (why := .suspend why) ho hq rfl rfl .suspended
  rw [enterState_of_ne (by decide)] at e
  exact e

variable (ho : tblGet s.ort.orders h = some o) (hv : tblGet s.vht.vehicles slot = some v) (why : SuspendReason)

include ho hv

theorem carrierInvolved_of_suspended (hc : faultClassOf v = .recoverable) (hs : o.state = .suspended) :
    carrierInvolved slot h why s = s := by
  simp only [carrierInvolved, lastFaultClass_of_get hv, hc, ho, hs, if_true]

theorem carrierInvolved_recoverable (hc : faultClassOf v = .recoverable) (hs : o.state ≠ .suspended) :
    carrierInvolved slot h why s = suspendOrder h why s := by
  simp only [carrierInvolved, lastFaultClass_of_get hv, hc, ho, if_neg hs]

/-- The carrier of an order under a FATAL fault is lost: the order ends FAILED, and the load is LOADED, its tag
unknown. -/
theorem carrierInvolved_fatal (hc : faultClassOf v = .fatal) :
    ∃ u w, OrderEnded h o .failed .carrierLost s u ∧ tblGet u.vht.vehicles slot = some w ∧
      carrierInvolved slot h why s = withVehicle slot { w with load := .unknown } u := by
  have ended := endOrder_ended (s := s) (st := .failed) ho (by decide) .carrierLost
  obtain ⟨w, hw⟩ : ∃ w, tblGet (endOrder h .failed .carrierLost s).vht.vehicles slot = some w :=
    ⟨_, (ended.vehicles slot).trans (by rw [hv]; rfl)⟩
  refine ⟨_, w, ended, hw, ?_⟩
  simp only [carrierInvolved, lastFaultClass_of_get hv, hc]
  exact updVehicle_of_get hw

theorem carrierInvolved_involved (hq : o.state ≠ .queued) :
    CarrierInvolved slot h o why (faultClassOf v) s (carrierInvolved slot h why s) := by
  unfold CarrierInvolved
  cases hc : faultClassOf v with
  | recoverable =>
    show if o.state = .suspended then _ else _
    split
    · next hs => exact carrierInvolved_of_suspended ho hv why hc hs
    · next hs =>
      rw [carrierInvolved_recoverable ho hv why hc hs]
      exact suspendOrder_stepped ho hq why
  | fatal => exact carrierInvolved_fatal ho hv why hc

end Involved

/-! ## PICK_BEGIN, ABORTED and ABORT_LATE (R54, R57, R160) -/

section Begins

theorem awaitsUnderFault_iff :
    awaitsUnderFault v o = true ↔
      v.faultStall = true ∧ (o.state = .cancelling ∨ (o.state = .toSource ∧ o.abortPending = true)) := by
  simp [awaitsUnderFault]

theorem beginPick_stepped (ho : tblGet s.ort.orders h = some o) (hs : o.state = .toSource ∨ o.state = .cancelling) :
    OrderStepped h o { o with state := .picking, abortPending := false }
      (if o.state = .cancelling then .cancelLate else .none) s (beginPick h o s) := by
  have hq : o.state ≠ .queued := by obtain hs | hs := hs <;> simp [hs]
  have e := moveOrder_kept (s := s) (f := fun o => { o with abortPending := false })
    (why := if o.state = .cancelling then .cancelLate else .none) ho hq rfl rfl .picking
  rw [enterState_of_ne (by decide)] at e
  exact e

/-- An order goes to PICKING, with carrier-involved handling where it awaited its answer under a fault. -/
theorem pickBegun_begins (ho : tblGet s.ort.orders h = some o) (hv : tblGet s.vht.vehicles slot = some w)
    (hf : w.faultStall = v.faultStall) (hc : w.lastFault = v.lastFault)
    (hs : o.state = .toSource ∨ o.state = .cancelling) : PickBegins slot h v o s (pickBegun slot h w o s) := by
  have step := beginPick_stepped ho hs
  refine ⟨_, step, ?_⟩
  have hiff : awaitsUnderFault w o = true ↔
      v.faultStall = true ∧ (o.state = .cancelling ∨ o.abortPending = true) := by
    rw [awaitsUnderFault_iff, hf]
    obtain hs | hs := hs <;> simp [hs]
  have hclass : faultClassOf w = faultClassOf v := by rw [faultClassOf, faultClassOf, hc]
  by_cases hw : awaitsUnderFault w o = true
  · rw [if_pos (hiff.1 hw), ← hclass, pickBegun, if_pos hw]
    exact carrierInvolved_involved step.record (by rw [step.kept.2.1]; exact hv) .fault (by simp)
  · rw [if_neg (mt hiff.2 hw), pickBegun, if_neg hw]

/-- Settles O43, by the order's state. -/
theorem abortsAreAnswered : Obligations.AbortsAreAnswered := by
  refine ⟨fun s slot v hb h o hh a => ⟨fun hs => ?cancelled, fun hs hp => ?requeued, fun h1 h2 => ?ignored⟩,
    fun s slot v hb h o hh a => ⟨fun hs => ?late, fun h1 h2 => ?lateIgnored⟩⟩
  all_goals
    subst hh
    have active {act : Vehicle → Order → State → State} := onActive_of_reports (act := act) a
    have ho := reportsActive_record a
  case cancelled =>
    refine ⟨_, exec_aborted_of_waits a.1, ?_⟩
    rw [reportAborted, active, if_pos hs]
    exact endOrder_ended ho (by decide) _
  case requeued =>
    refine ⟨_, exec_aborted_of_waits a.1, ?_⟩
    rw [reportAborted, active, if_neg (by simp [hs]), if_pos ⟨hs, hp⟩]
    exact returnOrder_returned ho (by simp [hs]) _
  case ignored =>
    rw [exec_aborted_of_waits a.1, reportAborted, active, if_neg h1, if_neg h2]
  case late =>
    refine ⟨_, exec_abortLate_of_waits a.1, ?_⟩
    rw [reportAbortLate, active, if_pos hs]
    exact pickBegun_begins ho (taken_get s slot v) rfl rfl (hs.symm.imp_left And.left)
  case lateIgnored =>
    rw [exec_abortLate_of_waits a.1, reportAbortLate, active, if_neg fun x => x.elim h1 h2]

end Begins

/-! ## PICK_END (R55, R160) -/

section Ends

variable {read : Option CarrierTag}

theorem freeSource_become (e : Option Endpoint) (s : State) :
    ShelvesBecome (fun k sh => if e = some (.shelf k) then freeShelf else sh) s (freeSource e s) := by
  unfold freeSource
  split
  · next k =>
    refine (setShelf_only k freeShelf s).become fun j => ?_
    rw [setShelf_at]
    refine ite_congr (propext ⟨fun x => by rw [x], fun x => ?_⟩) (fun _ => rfl) (fun _ => rfl)
    cases x
    rfl
  · next hne =>
    refine (OnlyShelves.refl s).become fun j => ?_
    rw [if_neg fun x => hne j x]

/-- What a change of one order's record touches. -/
theorem putOrder_framed (h : Nat) (o : Order) (s : State) : Framed s (putOrder h o s) := by constructor <;> rfl

/-- Steps 1 to 4 of R55, one after the other. -/
theorem picked_stored (ho : tblGet s.ort.orders h = some q) (hv : tblGet s.vht.vehicles slot = some v)
    (hs : q.source = o.source) : PickStored slot h read q s (picked slot h read o s) := by
  have e1 : updOrder h (fun o => { o with readTag := some (readOfReport read) }) s =
      putOrder h { q with readTag := some (readOfReport read) } s := updOrder_of_get ho
  generalize hu : putOrder h { q with readTag := some (readOfReport read) } s = u at e1
  have shelves := freeSource_become o.source u
  have hv' : tblGet (freeSource o.source u).vht.vehicles slot = some v := by rw [shelves.vht, ← hu]; exact hv
  have hlyt : (freeSource o.source u).lyt = s.lyt := by rw [shelves.lyt, ← hu]; rfl
  have hnow : (freeSource o.source u).now = s.now := by rw [shelves.now, ← hu]; rfl
  have e2 : picked slot h read o s =
      putOrder h
        { q with
          readTag := some (readOfReport read)
          etaDone :=
            some (min 4294967295
              (s.now + travelBetween s.lyt (stopOf? s.lyt q.source) (stopOf? s.lyt q.dest) +
                handoffOf (stopOf? s.lyt q.dest))) }
        (withVehicle slot { v with load := loadOfReport read } (freeSource o.source u)) := by
    have ho' : tblGet (withVehicle slot { v with load := loadOfReport read } (freeSource o.source u)).ort.orders h =
        some { q with readTag := some (readOfReport read) } := by
      show tblGet (freeSource o.source u).ort.orders h = _
      rw [shelves.ort, ← hu]
      exact putOrder_get_self _ _
    rw [picked, e1, updVehicle_of_get hv', updOrder_of_get ho']
    simp only [etaAtPick, withVehicle, hlyt, hnow]
    rfl
  rw [e2]
  refine ⟨?_, ?_, fun k hk => ?_, ?_, fun k hk => ?_, fun k => ?_, ?_, fun hx => ?_⟩
  · have fu : Framed s u := hu ▸ putOrder_framed _ _ _
    exact ((fu.trans shelves.framed).trans (withVehicle_framed _ _ _)).trans (putOrder_framed _ _ _)
  · rw [putOrder_get_self]
    cases read <;> rfl
  · rw [putOrder_others _ _ _ k hk]
    show tblGet (freeSource o.source u).ort.orders k = _
    rw [shelves.ort, ← hu]
    exact putOrder_others _ _ _ k hk
  · rw [hv]
    refine (withVehicle_get_self _ _ _).trans ?_
    cases read <;> rfl
  · refine (withVehicle_others _ _ _ k hk).trans ?_
    rw [shelves.vht, ← hu]
    rfl
  · refine (shelves.each k).trans ?_
    rw [hs, ← hu]
    rfl
  · refine ⟨shelves.liu.trans ?_, ?_, shelves.bac.trans ?_, shelves.fcr.trans ?_⟩
    · rw [← hu]; rfl
    · show (freeSource o.source u).ort.batches = _
      rw [shelves.ort, ← hu]
      rfl
    · rw [← hu]; rfl
    · rw [← hu]; rfl
  · exact shelves.exam (by rw [← hu]; exact hx)

theorem tagMismatch_iff : tagMismatch o read = true ↔ o.carrierTag ≠ none ∧ o.carrierTag ≠ read := by
  simp [tagMismatch, Option.isSome_iff_ne_none]

theorem tagMismatch_eq_false_iff : tagMismatch o read = false ↔ o.carrierTag = none ∨ o.carrierTag = read := by
  rw [← Bool.not_eq_true, tagMismatch_iff]
  tauto

section AfterPick

variable (hq : tblGet t.ort.orders h = some q) (hs : q.state = .picking)

include hq hs

theorem afterPick_carrying (hm : tagMismatch o read = false) :
    (afterPick slot h read o t).asa.examPending = true ∧
      ∃ y, OrderStepped h q { q with state := .carrying } .none t y ∧ afterPick slot h read o t = setExam y := by
  have e := moveOrder_kept (s := t) (f := id) (why := .none) hq (by simp [hs]) rfl rfl .carrying
  rw [enterState_of_ne (by decide)] at e
  rw [afterPick, hm, if_neg Bool.false_ne_true]
  exact ⟨rfl, _, e, rfl⟩

variable (hw : tblGet t.vht.vehicles slot = some w) (hf : w.fleetId = v.fleetId) (hp : w.position = v.position)
  (hl : w.lastFault = v.lastFault) (hn : t.now = s.now) (ht : t.fcr.tOrphan = s.fcr.tOrphan)

include hw

theorem afterPickUnderFault_involved (hl : w.lastFault = v.lastFault)
    (hm : ¬(tagMismatch o read = true ∧ faultClassOf v = .recoverable)) :
    CarrierInvolved slot h q .fault (faultClassOf v) t (afterPickUnderFault slot h read o t) := by
  have hclass : faultClassOf w = faultClassOf v := by rw [faultClassOf, faultClassOf, hl]
  rw [afterPickUnderFault, lastFaultClass_of_get hw, hclass, if_neg hm, ← hclass]
  exact carrierInvolved_involved hq hw .fault (by simp [hs])

include hf hp

/-- CARRIER_MISMATCH after a step that leaves the vehicles alone, with the fleet id and the position of `v`. -/
theorem raiseMismatch_eq {y : State} (hv : y.vht = t.vht) (hn : y.now = s.now) :
    raiseMismatch slot h o y = raiseIncident (mismatchIncident s v h o) y := by
  rw [raiseMismatch, raiseVehicle_of_get (by rw [hv]; exact hw), hf, hp, hn]
  rfl

include hn

theorem afterPickUnderFault_mismatched (hm : tagMismatch o read = true) (hl : w.lastFault = v.lastFault)
    (hc : faultClassOf v = .recoverable) :
    ∃ y, CarrierInvolved slot h q .mismatch .recoverable t y ∧
      afterPickUnderFault slot h read o t = raiseIncident (mismatchIncident s v h o) y := by
  have hclass : faultClassOf w = .recoverable := by rw [← hc, faultClassOf, faultClassOf, hl]
  have step := suspendOrder_stepped (s := t) hq (by simp [hs]) .mismatch
  have e : afterPickUnderFault slot h read o t = raiseMismatch slot h o (suspendOrder h .mismatch t) := by
    rw [afterPickUnderFault, lastFaultClass_of_get hw, if_pos ⟨hm, hclass⟩,
      carrierInvolved_recoverable hq hw .mismatch hclass (by simp [hs])]
  refine ⟨_, ?_, e.trans (raiseMismatch_eq hq hs hw hf hp step.kept.2.1 (step.framed.now.trans hn))⟩
  rw [CarrierInvolved, if_neg (by simp [hs])]
  exact step

theorem afterPick_mismatched (ht : t.fcr.tOrphan = s.fcr.tOrphan) (hm : tagMismatch o read = true) :
    ∃ y, OrderStepped h q (suspendedOrder s .mismatch q) (.suspend .mismatch) t y ∧
      afterPick slot h read o t = raiseIncident (mismatchIncident s v h o) y := by
  have step := suspendOrder_stepped (s := t) hq (by simp [hs]) .mismatch
  have e : afterPick slot h read o t = raiseMismatch slot h o (suspendOrder h .mismatch t) := if_pos hm
  refine ⟨_, ?_, e.trans (raiseMismatch_eq hq hs hw hf hp step.kept.2.1 (step.framed.now.trans hn))⟩
  have hsus : suspendedOrder s .mismatch q = suspendedOrder t .mismatch q := by
    rw [suspendedOrder, suspendedOrder, timerFrom, timerFrom, hn, ht]
  rw [hsus]
  exact step

end AfterPick

theorem exec_pickEnd_of_reports {payload : List Byte} {read : Option CarrierTag}
    (a : reportsActive s 0x55 slot v payload h o) (hr : decodePickEnd payload = some ⟨h, read⟩) :
    exec .pickEnd s =
      .next (if o.state = .picking ∨ o.state = .toSource ∨ o.state = .cancelling then
        pickEnded slot h read (heardVehicle s v) o (taken s slot v) else taken s slot v) := by
  rw [exec_pickEnd_of_waits a.1 hr, reportPickEnd, onActive_of_reports a]

/-- The order's record as its pick is at its end. -/
def pickingOrder (o : Order) : Order :=
  { o with state := .picking, abortPending := if o.state = .picking then o.abortPending else false }

theorem pickingOrder_of_picking (hs : o.state = .picking) : pickingOrder o = o := by
  cases o
  simp_all [pickingOrder]

/-- A pick that ends is begun first, where no PICK_BEGIN was taken for it. -/
theorem pickEnded_begun (ho : tblGet s.ort.orders h = some o) (hv : tblGet s.vht.vehicles slot = some v)
    (hs : o.state = .picking ∨ o.state = .toSource ∨ o.state = .cancelling) :
    ∃ u, (o.state = .picking → u = s) ∧
      (o.state ≠ .picking →
        OrderStepped h o (pickingOrder o) (if o.state = .cancelling then .cancelLate else .none) s u) ∧
      Framed s u ∧ tblGet u.ort.orders h = some (pickingOrder o) ∧ tblGet u.vht.vehicles slot = some v ∧
      pickEnded slot h read v o s =
        if awaitsUnderFault v o = true then afterPickUnderFault slot h read o (picked slot h read o u)
        else afterPick slot h read o (picked slot h read o u) := by
  by_cases hp : o.state = .picking
  · have hw : ¬ awaitsUnderFault v o = true := by simp [awaitsUnderFault_iff, hp]
    refine ⟨s, fun _ => rfl, fun hn => absurd hp hn, .refl s, ?_, hv, ?_⟩
    · rw [pickingOrder_of_picking hp]
      exact ho
    · rw [pickEnded, if_pos hp, if_neg hw]
  · have step := beginPick_stepped (s := s) ho (hs.resolve_left hp)
    have hrec : pickingOrder o = { o with state := .picking, abortPending := false } := by simp [pickingOrder, hp]
    rw [← hrec] at step
    refine ⟨beginPick h o s, fun x => absurd x hp, fun _ => step, step.framed, step.record, ?_, ?_⟩
    · rw [step.kept.2.1]
      exact hv
    · rw [pickEnded, if_neg hp]

/-- Settles O41: the pick begins, is stored, and goes on by the tag that was read. -/
theorem picksBeginAndEnd : Obligations.PicksBeginAndEnd := by
  refine ⟨fun s slot v hb h o hh a => ⟨fun hs => ?begins, fun h1 h2 => ?ignored⟩,
    fun s slot v hb payload h o read hd a => ⟨fun hs => ?ends, fun h1 h2 h3 => ?endIgnored⟩⟩
  case begins =>
    subst hh
    refine ⟨_, exec_pickBegin_of_waits a.1, ?_⟩
    rw [reportPickBegin, onActive_of_reports a, if_pos hs]
    exact pickBegun_begins (reportsActive_record a) (taken_get s slot v) rfl rfl hs
  case ignored =>
    subst hh
    rw [exec_pickBegin_of_waits a.1, reportPickBegin, onActive_of_reports a, if_neg fun x => x.elim h1 h2]
  case endIgnored =>
    rw [exec_pickEnd_of_reports a hd, if_neg fun x => x.elim h1 fun x => x.elim h2 h3]
  case ends =>
    have e := exec_pickEnd_of_reports a hd
    rw [if_pos hs] at e
    obtain ⟨u, hu1, hu2, fu, hp, hv, eu⟩ :=
      pickEnded_begun (read := read) (reportsActive_record a) (taken_get s slot v) hs
    have stored := picked_stored (read := read) (o := o) (q := pickingOrder o) hp hv rfl
    have fx : Framed (taken s slot v) (picked slot h read o u) := fu.trans stored.framed
    have hw : tblGet (picked slot h read o u).vht.vehicles slot =
        some { heardVehicle s v with load := loadOfReport read } := by
      refine stored.vehicle.trans ?_
      rw [hv]
      cases read <;> rfl
    obtain ⟨q, hq, hqs⟩ : ∃ q, tblGet (picked slot h read o u).ort.orders h = some q ∧ q.state = .picking :=
      ⟨_, stored.record, rfl⟩
    refine ⟨_, u, _, _, q, e.trans (congrArg _ eu), rfl, hu1, hu2, stored, hq, fun hn => ?_, fun hf hc => ?_⟩
    · have calm : ¬ awaitsUnderFault (heardVehicle s v) o = true := mt awaitsUnderFault_iff.1 hn
      rw [if_neg calm]
      exact ⟨fun hm => afterPick_carrying hq hqs (tagMismatch_eq_false_iff.2 hm),
        fun h1 h2 => afterPick_mismatched hq hqs hw rfl rfl fx.now fx.tOrphan (tagMismatch_iff.2 ⟨h1, h2⟩)⟩
    · have faulty : awaitsUnderFault (heardVehicle s v) o = true := awaitsUnderFault_iff.2 ⟨hf, hc⟩
      rw [if_pos faulty]
      refine ⟨fun h1 h2 h3 => afterPickUnderFault_mismatched hq hqs hw rfl rfl fx.now (tagMismatch_iff.2 ⟨h1, h2⟩) rfl h3,
        fun hm => afterPickUnderFault_involved hq hqs hw rfl fun x => ?_⟩
      obtain ⟨hm1, hm2⟩ := tagMismatch_iff.1 x.1
      obtain hm | hm | hm := hm
      · exact hm1 hm
      · exact hm2 hm
      · exact absurd (x.2.symm.trans hm) (by decide)

end Ends

/-! ## An entry that has starved goes from its queue (R127) -/

section Starved

variable {y : BayState}

/-- The vehicle's entry has gone from bay `b`'s queue between `s` and `t`, with ENTRY_VOID for its starvation: this and
nothing else, but for the yield timer. -/
structure StarvedVoided (b slot : Nat) (y : BayState) (f : Nat) (s t : State) : Prop where
  only : t =
    { s with
      liu := { s.liu with fleetOut := t.liu.fleetOut }
      bac := { s.bac with bays := t.bac.bays } }
  bay : ∃ z, tblGet t.bac.bays b = some z ∧ z.admitted = y.admitted ∧
    z.queue = y.queue.filter (fun w => w.slot != slot)
  bays : otherBaysKept b s t
  lines : t.liu = (issue f (.entryVoid b .starved) s).liu

theorem voidStarved_voided (hv : tblGet s.vht.vehicles slot = some v) (hy : tblGet s.bac.bays b = some y) :
    StarvedVoided b slot y v.fleetId s (voidStarved b slot s) := by
  obtain ⟨x, e⟩ : ∃ x, voidStarved b slot s =
      issue v.fleetId (.entryVoid b .starved)
        (withBay b { y with queue := y.queue.filter (fun w => w.slot != slot), yield := x } s) := by
    rw [voidStarved, leaveQueue, updBay_of_get hy]
    exact ⟨_, issueTo_eq_issue _ hv⟩
  have sends := issue_sendsOnly v.fleetId (.entryVoid b .starved)
  rw [e]
  refine ⟨?_, ⟨{ y with queue := y.queue.filter (fun w => w.slot != slot), yield := x }, ?_, rfl, rfl⟩, ?_,
    sends.same _ _ rfl rfl rfl⟩
  · rw [sends.only]
    rfl
  · rw [sends.bac]
    exact withBay_get_self _ _
  · rw [otherBaysKept, sends.bac]
    exact withBay_others _ s

theorem requeueAbort_of_pending (ho : tblGet s.ort.orders h = some o) (hp : o.abortPending = true) :
    requeueAbort slot h s = s := by
  simp only [requeueAbort, ho, hp, if_true]

/-- ABORT for a TO_SOURCE order, which then awaits its answer to be queued again. -/
theorem requeueAbort_of_none (ho : tblGet s.ort.orders h = some o) (hp : o.abortPending = false)
    (hv : tblGet s.vht.vehicles slot = some v) :
    requeueAbort slot h s = issue v.fleetId (.abort h) (putOrder h { o with abortPending := true } s) := by
  simp only [requeueAbort, ho, hp, Bool.false_eq_true, if_false, updOrder_of_get ho]
  exact issueTo_eq_issue _ hv

/-- A starved entry of a vehicle under a TO_SOURCE order has gone from bay `b`'s queue between `s` and `t`, with ENTRY_VOID,
and the order awaits the answer to an ABORT, sent unless one was awaited (R127): this and nothing else, but for timers. -/
structure StarvedAborted (b slot h f : Nat) (y : BayState) (o : Order) (s t : State) : Prop where
  framed : Framed s t
  record : tblGet t.ort.orders h = some { o with abortPending := true }
  others : otherOrdersKept h s t
  bay : ∃ z, tblGet t.bac.bays b = some z ∧ z.admitted = y.admitted ∧
    z.queue = y.queue.filter (fun w => w.slot != slot)
  bays : otherBaysKept b s t
  lines : t.liu =
    (if o.abortPending = true then issue f (.entryVoid b .starved) s
    else issue f (.abort h) (issue f (.entryVoid b .starved) s)).liu
  vht : t.vht = s.vht
  shm : t.shm = s.shm
  fcr : t.fcr = s.fcr

theorem starvedAborted_of_waiting (ho : tblGet s.ort.orders h = some o) (hv : tblGet s.vht.vehicles slot = some v)
    (hy : tblGet s.bac.bays b = some y) :
    StarvedAborted b slot h v.fleetId y o s (requeueAbort slot h (voidStarved b slot s)) := by
  have e := voidStarved_voided hv hy
  generalize voidStarved b slot s = x at e ⊢
  have ho' : tblGet x.ort.orders h = some o := by rw [e.only]; exact ho
  have hv' : tblGet x.vht.vehicles slot = some v := by rw [e.only]; exact hv
  have framed : Framed s x := by
    rw [e.only]
    constructor <;> rfl
  cases hp : o.abortPending with
  | true =>
    rw [requeueAbort_of_pending ho' hp]
    refine ⟨framed, ?_, fun k _ => by rw [e.only], e.bay, e.bays, ?_, by rw [e.only], by rw [e.only], by rw [e.only]⟩
    · rw [ho', ← hp]
    · rw [hp, if_pos rfl]
      exact e.lines
  | false =>
    rw [requeueAbort_of_none ho' hp hv']
    have sends := issue_sendsOnly v.fleetId (.abort h)
    have hb : (issue v.fleetId (.abort h) (putOrder h { o with abortPending := true } x)).bac = x.bac := sends.bac _
    refine ⟨(framed.trans (putOrder_framed _ _ _)).trans (sends.framed _), ?_, fun k hk => ?_, ?_, fun c hc => ?_, ?_, ?_,
      ?_, ?_⟩
    · rw [sends.ort]
      exact putOrder_get_self _ _
    · rw [sends.ort, putOrder_others _ _ _ k hk, e.only]
    · rw [hb]
      exact e.bay
    · rw [hb]
      exact e.bays c hc
    · rw [hp, if_neg Bool.false_ne_true]
      refine sends.same _ _ e.lines ?_ ?_
      · rw [(issue_told _ _ _).gwrdy]
        exact framed.gwrdy
      · rw [(issue_told _ _ _).vht]
        show x.vht = _
        rw [e.only]
    · rw [sends.vht]
      show x.vht = _
      rw [e.only]
    · rw [sends.only]
      show x.shm = _
      rw [e.only]
    · rw [sends.only]
      show x.fcr = _
      rw [e.only]

end Starved

/-! ## TAKEN (R53) -/

section Taken

variable {x l : Byte}

theorem exec_taken_of_waits (a : reportWaits s 0x53 slot v [x, l]) :
    exec .taken s = .next (reportTaken slot ⟨u8 x, u8 l⟩ (taken s slot v)) :=
  congrArg Host.Outcome.next (takeReport_of_waits (form := decodeTaken) (act := reportTaken) a rfl)

theorem layerIdOf_iff {n : Nat} : layerIdOf n = some i ↔ (n = 0 ∧ i = .l0) ∨ (n = 1 ∧ i = .l1) := by
  rcases n with _ | _ | n <;> cases i <;> simp [layerIdOf]

theorem takenFits_iff : takenFits v h i = true ↔ v.layer i = .staged h ∧ ∀ j g, v.layer j ≠ .active g := by
  rw [← activeLayer_eq_none_iff]
  simp [takenFits]

theorem reportTaken_fits (hv : tblGet s.vht.vehicles slot = some v) {n : Nat} (hi : layerIdOf n = some i)
    (hf : takenFits v h i = true) : reportTaken slot ⟨h, n⟩ s = takeOrder slot h i s := by
  simp only [reportTaken, hv, hi, hf, if_true]

/-- A TAKEN that does not fit the vehicle's layers, or names none, is stale. -/
theorem reportTaken_stale (hv : tblGet s.vht.vehicles slot = some v) {n : Nat}
    (hf : ∀ i, layerIdOf n = some i → takenFits v h i = false) :
    reportTaken slot ⟨h, n⟩ s = issue v.fleetId (.discard h (some n)) s := by
  have e := discard_eq (h := h) (layer := some n) hv
  unfold reportTaken
  split
  · next w i hw hi =>
    obtain rfl := Option.some.inj (hv.symm.trans hw)
    rw [hf i hi, if_neg Bool.false_ne_true]
    exact e
  · exact e

/-- The move of an order that its vehicle has taken (R53). -/
theorem takeOrder_eq (hv : tblGet s.vht.vehicles slot = some v) :
    takeOrder slot h i s =
      starvedAtTaken (starvedBays s.bac slot) slot h
        (moveOrder h id .toSource .none none (withVehicle slot (takenVehicle h i v) s)) := by
  rw [takeOrder, updVehicle_of_get hv]

theorem taken_stepped (ho : tblGet s.ort.orders h = some o) (hs : o.state = .assigned) :
    OrderStepped h o { o with state := .toSource } .none s (moveOrder h id .toSource .none none s) := by
  have e := moveOrder_kept (s := s) (f := id) (why := .none) ho (by simp [hs]) rfl rfl .toSource
  rw [enterState_of_ne (by decide)] at e
  exact e

theorem starvedBays_of_none (h : ∀ e ∈ s.bac.bays, ∀ w ∈ e.2.queue, w.slot = slot → w.starved = false) :
    starvedBays s.bac slot = [] := by
  refine List.filter_eq_nil_iff.2 fun b _ hw => ?_
  unfold waitingIn at hw
  split at hw
  · next w hin =>
    split at hin
    · next y hy =>
      obtain ⟨hm, hsl⟩ := waitingOf_mem hin
      rw [h _ (tblGet_mem hy) w hm hsl] at hw
      contradiction
    · contradiction
  · contradiction

theorem starvedBays_of_one {y : BayState} (hw : tblWf s.bac.bays = true) (hy : tblGet s.bac.bays b = some y)
    (hm : ∃ w ∈ y.queue, w.slot = slot) (hs : ∀ w ∈ y.queue, w.slot = slot → w.starved = true)
    (hn : ∀ e ∈ s.bac.bays, e.1 ≠ b → ∀ w ∈ e.2.queue, w.slot ≠ slot) : starvedBays s.bac slot = [b] := by
  obtain ⟨w, hw'⟩ := Option.isSome_iff_exists.1 (waitingOf_isSome.2 hm)
  have hin : waitingIn s.bac b slot = some w := by simp only [waitingIn, hy, hw']
  obtain ⟨hq, hsl⟩ := waitingOf_mem hw'
  simp [starvedBays, waitingBays_of_one hw hy hm hn, List.filter_singleton, hin, hs w hq hsl]

theorem decodeU8_handle {payload : List Byte} {r : Nat} (h : decodeU8 (x :: payload) = some r) : payload = [] := by
  unfold decodeU8 at h
  split at h <;> cases h
  next e =>
    cases e
    rfl

theorem decodePickEnd_handle {payload : List Byte} {r : PickEndRep} (h : decodePickEnd (x :: payload) = some r) :
    u8 x = r.handle := by
  unfold decodePickEnd at h
  split at h
  · next e =>
    cases e
    split at h
    · split at h
      · cases h
        rfl
      · cases h
    · cases h
  · cases h

theorem decodePlace_form {payload : List Byte} {r : PlaceRep} (h : decodePlace (x :: payload) = some r) :
    ∃ t n0 n1, payload = [t, n0, n1] := by
  unfold decodePlace at h
  split at h <;> cases h
  next e =>
    cases e
    exact ⟨_, _, _, rfl⟩

/-- Settles O40: a TAKEN that fits moves the order, and takes a starved entry from its queue; other reports are stale. -/
theorem takenOrStale : Obligations.TakenOrStale := by
  refine ⟨fun s slot v hb l i h o u a hh hl hi hn ho hs hp hloc hu => ?fits, fun s slot v h l a hno => ?stale,
    fun s kind slot v h payload i a h1 h2 hf n0 n1 => ?others⟩
  case fits =>
    subst hh
    have fits : takenFits (heardVehicle s v) (u8 hb) i = true := by
      refine takenFits_iff.2 ⟨by cases i <;> exact hi, fun j g x => ?_⟩
      obtain rfl | rfl := LayerId.eq_or_other i j
      · cases j <;> exact absurd (hi.symm.trans x) (by simp)
      · exact hn g (by cases i <;> exact x)
    have e := exec_taken_of_waits a
    rw [reportTaken_fits (taken_get s slot v) (layerIdOf_iff.2 hl) fits, takeOrder_eq (taken_get s slot v)] at e
    have eu : withVehicle slot (takenVehicle (u8 hb) i (heardVehicle s v)) (taken s slot v) = u := by
      rw [hu, taken, reported_eq, reported_eq, withVehicle_withVehicle]
      rfl
    rw [eu] at e
    have hou : tblGet u.ort.orders (u8 hb) = some o := by rw [hu]; exact ho
    have step := taken_stepped hou hs
    refine ⟨fun hq => ⟨_, e, ?_⟩, fun b y hq hw hy hm hst => ?_⟩
    · rw [starvedBays_of_none (s := taken s slot v) hq]
      exact step
    · rw [starvedBays_of_one (s := taken s slot v) hw hy hm hst hq] at e
      obtain ⟨hbatch, hvht, hbac, hshm, hfcr⟩ := step.kept
      have hw : tblGet u.vht.vehicles slot = some (takenVehicle (u8 hb) i (heardVehicle s v)) := by
        rw [← eu]
        exact withVehicle_get_self _ _ _
      have hid : (takenVehicle (u8 hb) i (heardVehicle s v)).fleetId = v.fleetId := by cases i <;> rfl
      have aborted := starvedAborted_of_waiting step.record (by rw [hvht]; exact hw)
        (y := y) (b := b) (by rw [hbac, hu]; exact hy)
      obtain ⟨z, hz, h1, h2⟩ := aborted.bay
      refine ⟨_, z, e, step.framed.trans aborted.framed, aborted.record, fun k hk => ?_, hz, h1, h2, fun c hc => ?_, ?_,
        aborted.vht.trans hvht, ?_, ?_⟩
      · refine (aborted.others k hk).trans ((step.others k hk).trans ?_)
        rw [hu]
        rfl
      · refine (aborted.bays c hc).trans ?_
        rw [hbac, hu]
        rfl
      · have lines := aborted.lines
        rw [if_neg (by simp [hp]), hid] at lines
        refine lines.trans ?_
        have hvo : vehicleOf u o = some v.fleetId := by simp only [vehicleOf, hloc, hw, Option.map_some, hid]
        have hnow : u.now = s.now := by rw [hu]; rfl
        have sends := (issue_sendsOnly v.fleetId (.abort (u8 hb))).comp (issue_sendsOnly v.fleetId (.entryVoid b .starved))
        refine sends.same _ _ ?_ ?_ ?_
        · rw [step.lines, hvo, hnow, hs]
        · rw [step.framed.gwrdy, (queueNotice_told _ _).gwrdy]
        · rw [hvht, (queueNotice_told _ _).vht]
      · refine aborted.shm.trans (hshm.trans ?_)
        rw [hu]
        rfl
      · refine aborted.fcr.trans (hfcr.trans ?_)
        rw [hu]
        rfl
  case stale =>
    refine (exec_taken_of_waits a).trans (congrArg _ (reportTaken_stale (taken_get s slot v) fun i hi => ?_))
    refine Bool.eq_false_iff.2 fun x => ?_
    obtain ⟨hs, hna⟩ := takenFits_iff.1 x
    obtain ⟨j, g, hact⟩ := hno i (layerIdOf_iff.1 hi) (by cases i <;> exact hs)
    exact hna j g (by cases j <;> exact hact)
  case others =>
    have stale {act : Vehicle → Order → State → State} := onActive_of_stale (s := s) (slot := slot) (act := act) n0 n1
    interval_cases kind <;> obtain ⟨r, hr, rfl⟩ := Option.map_eq_some_iff.1 hf
    · obtain rfl := decodeU8_handle hr
      exact (exec_pickBegin_of_waits a).trans (congrArg _ stale)
    · rw [exec_pickEnd_of_waits a hr, reportPickEnd, ← decodePickEnd_handle hr]
      exact congrArg _ stale
    · obtain ⟨t, n0, n1, rfl⟩ := decodePlace_form hr
      exact (exec_placeBegin_of_waits a).trans (congrArg _ stale)
    · obtain ⟨t, n0, n1, rfl⟩ := decodePlace_form hr
      exact (exec_placeEnd_of_waits a).trans (congrArg _ stale)
    · obtain rfl := decodeU8_handle hr
      exact (exec_aborted_of_waits a).trans (congrArg _ stale)
    · obtain rfl := decodeU8_handle hr
      exact (exec_abortLate_of_waits a).trans (congrArg _ stale)

end Taken

end Sys2Proof.Machine
end

section
/-! Reports on placements, and FAULT and READY (R52, R56, R63, R104, R150, R158, R159, R161, R162). -/
namespace Sys2Proof.Machine

open Sys2Proof

variable {s t u x : State} {slot h tag : Nat} {v w : Vehicle} {i : LayerId} {o p : Order} {e : Endpoint}

/-! ## PLACE_BEGIN (R56) -/

section PlaceBegin

variable {f : EndpointField}

theorem placeAt_dest (hf : endpointOf f = some e) (hd : o.dest = some e) : placeAt o f = .dest := by
  simp only [placeAt, hf, hd, if_true]

theorem placeAt_prior (hf : endpointOf f = some e) (hd : o.dest ≠ some e) (hp : o.prior = some e) :
    placeAt o f = .prior := by
  simp only [placeAt, hf, if_neg hd, hp, if_true]

theorem placeAt_other (hf : endpointOf f = some e) (hd : o.dest ≠ some e) (hp : o.prior ≠ some e) :
    placeAt o f = .other := by
  simp only [placeAt, hf, if_neg hd, if_neg hp]

theorem placeAt_none (hf : endpointOf f = none) : placeAt o f = .other := by
  simp only [placeAt, hf]

theorem endpointOf_field {y n0 n1 : Byte}
    (h : (u8 y = 0 ∧ e = .port (u16 n0 n1)) ∨ (u8 y = 1 ∧ e = .shelf (u16 n0 n1))) :
    endpointOf (endpointField y n0 n1) = some e := by
  obtain ⟨hy, rfl⟩ | ⟨hy, rfl⟩ := h <;> simp [endpointOf, endpointField, hy]

theorem endpointOf_none {y n0 n1 : Byte} (h : 2 ≤ u8 y) : endpointOf (endpointField y n0 n1) = none := by
  obtain ⟨m, hm⟩ := eq_add_two h
  simp only [endpointOf, endpointField, hm]

/-- The shelf of an earlier destination becomes FREE where the order's claim stands on it (R141). -/
theorem releaseInbound_become (h : Nat) (d : Option Endpoint) (s : State) :
    ShelvesBecome (fun k sh => if sh.state = .inbound ∧ sh.claim = some h ∧ d = some (.shelf k) then freeShelf else sh) s
      (releaseInbound h d s) :=
  (releaseInbound_only h d s).become (releaseInbound_at h d s)

variable (ho : tblGet s.ort.orders h = some o) (hs : o.state = .carrying)

include ho hs

/-- Placing begins at the order's destination or at its prior one, which is taken up again. -/
theorem beginPlace_begins (hf : endpointOf f = some e) (hd : o.dest = some e ∨ o.prior = some e) :
    ∃ p, PlaceBegins h o e p s (beginPlace slot h o f s) ∧ p.state = .placing := by
  by_cases hde : o.dest = some e
  · have become := releaseInbound_become h o.prior s
    have step := moveOrder_kept (s := releaseInbound h o.prior s) (f := fun o => { o with prior := none }) (why := .none)
      (by rw [become.ort]; exact ho) (by simp [hs]) rfl rfl .placing
    rw [enterState_of_ne (by decide)] at step
    refine ⟨_, .inl ⟨hde, rfl, _, become, ?_⟩, rfl⟩
    rw [beginPlace, placeAt_dest hf hde]
    exact step
  · have hp := hd.resolve_left hde
    have step := moveOrder_kept (s := s)
      (f := fun o => { o with dest := o.prior, prior := none, retargetLate := true }) (why := .none) ho (by simp [hs]) rfl
      rfl .placing
    rw [enterState_of_ne (by decide)] at step
    refine ⟨_, .inr ⟨hde, hp, rfl, ?_⟩, rfl⟩
    rw [beginPlace, placeAt_prior hf hde hp]
    exact step

end PlaceBegin

theorem PlaceBegins.record (hb : PlaceBegins h o e p s t) : tblGet t.ort.orders h = some p := by
  obtain ⟨_, _, u, _, step⟩ | ⟨_, _, _, step⟩ := hb
  · exact step.record
  · exact step.record

theorem PlaceBegins.framed (hb : PlaceBegins h o e p s t) : Framed s t := by
  obtain ⟨_, _, u, become, step⟩ | ⟨_, _, _, step⟩ := hb
  · exact become.framed.trans step.framed
  · exact step.framed

theorem PlaceBegins.vht (hb : PlaceBegins h o e p s t) : t.vht = s.vht := by
  obtain ⟨_, _, u, become, step⟩ | ⟨_, _, _, step⟩ := hb
  · exact step.kept.2.1.trans become.vht
  · exact step.kept.2.1

/-! ## PLACE_END (R56, R63) -/

section PlaceEnd

theorem fillDest_become (o : Order) (s : State) :
    ShelvesBecome
      (fun k sh =>
        if o.dest = some (.shelf k) then
          { state := .held
            tag := match o.readTag with
              | some (.tag r) => some r
              | _ => none
            emptyFlag := decide (o.kind = .returnEmpty), claim := none }
        else sh) s (fillDest o s) := by
  have htag : placedTag o = match o.readTag with | some (.tag r) => some r | _ => none := by
    unfold placedTag
    cases o.readTag with
    | none => rfl
    | some r => cases r <;> rfl
  by_cases hd : ∃ k, o.dest = some (.shelf k)
  · obtain ⟨k, hk⟩ := hd
    have e : fillDest o s = setShelf k ⟨.held, placedTag o, decide (o.kind = .returnEmpty), none⟩ s := by
      simp only [fillDest, hk]
    rw [e]
    refine (setShelf_only k _ s).become fun j => ?_
    rw [setShelf_at, hk, htag]
    refine ite_congr (propext ⟨fun x => by rw [x], fun x => ?_⟩) (fun _ => rfl) (fun _ => rfl)
    cases x
    rfl
  · have e : fillDest o s = s := by
      unfold fillDest
      split
      · next k hk => exact absurd ⟨k, hk⟩ hd
      · rfl
    rw [e]
    exact (OnlyShelves.refl s).become fun j => (if_neg fun x => hd ⟨j, x⟩).symm

/-- A vehicle's fleet id stays as its order leaves it. -/
theorem vehicleOf_of_left {loc : Option (Nat × LayerId)} (h : layerLeft loc s t) (q : Order) :
    vehicleOf t q = vehicleOf s q := by
  unfold vehicleOf
  split
  · next k j hl =>
    rw [h k, Option.map_map]
    congr 1
    funext v
    simp only [Function.comp_apply]
    split
    · split
      · exact (leftVehicle_kept _ _ _ _).1
      · rfl
    · rfl
  · rfl

/-- A standing demand delivered: the move to SERVED, then DEMAND_SERVED. -/
theorem serveDemand_served (ho : tblGet s.ort.orders h = some o) (hq : o.state ≠ .queued) :
    Framed s (serveDemand h o s) ∧
      tblGet (serveDemand h o s).ort.orders h = some { o with state := .served, loc := none, prior := none } ∧
      otherOrdersKept h s (serveDemand h o s) ∧ layerLeft o.loc s (serveDemand h o s) ∧
      (serveDemand h o s).liu =
        (queueNotice (.demandServed h o.hostTag o.serveCount s.now o.readTag)
          (queueNotice (.orderState h o.hostTag o.state .served s.now .none (vehicleOf s o)) s)).liu ∧
      (serveDemand h o s).ort.batches = s.ort.batches ∧ (serveDemand h o s).shm = s.shm ∧
      (serveDemand h o s).bac = s.bac ∧ (serveDemand h o s).fcr = s.fcr := by
  have only := leaveVehicle_only o.loc s
  have left := leaveVehicle_left o.loc s
  have step := moveOrder_stepped (s := leaveVehicle o.loc s) (h := h) (o := o) (by rw [only.eq]; exact ho)
    (fun o => { o with loc := none, prior := none }) .served .none (carrierId s o.loc)
  rw [leaveState_of_ne hq, enterState_of_ne (by decide)] at step
  have step := step rfl ((carrierId_eq s o).trans (vehicleOf_of_left left o).symm)
  have e : serveDemand h o s = queueNotice (.demandServed h o.hostTag o.serveCount s.now o.readTag)
      (moveOrder h (fun o => { o with loc := none, prior := none }) .served .none (carrierId s o.loc)
        (leaveVehicle o.loc s)) := rfl
  have told := queueNotice_told (.demandServed h o.hostTag o.serveCount s.now o.readTag)
    (moveOrder h (fun o => { o with loc := none, prior := none }) .served .none (carrierId s o.loc)
      (leaveVehicle o.loc s))
  obtain ⟨hbatch, hvht, hbac, hshm, hfcr⟩ := step.kept
  have framed : Framed s (leaveVehicle o.loc s) := (leaveVehicle_steady o.loc s).framed
  rw [← e] at told
  refine ⟨?_, ?_, fun k hk => ?_, fun k => ?_, ?_, ?_, ?_, ?_, ?_⟩
  · rw [e]
    exact (framed.trans step.framed).trans (queueNotice_steady _ _).framed
  · rw [told.ort]
    exact step.record
  · rw [told.ort, step.others k hk, only.eq]
  · rw [told.vht, hvht]
    exact left k
  · rw [e]
    refine queueNotice_liu_congr _ (step.lines.trans ?_)
    rw [vehicleOf_of_left left o, framed.now]
    exact queueNotice_liu_congr _ (by rw [only.eq])
  · rw [told.ort, hbatch, only.eq]
  · rw [told.shm, hshm, only.eq]
  · rw [told.bac, hbac, only.eq]
  · rw [e, queueNotice_fcr, hfcr, only.eq]

theorem placed_eq (ho : tblGet s.ort.orders h = some o) :
    placed slot h s =
      surveyPlacement (afterPlace h o (updVehicle slot (fun v => { v with load := .empty }) (fillDest o s))) := by
  simp only [placed, ho]

/-- A placement is taken: the shelf, the load, and the end of the order or of the demand. -/
theorem placed_taken (ho : tblGet s.ort.orders h = some o) (hv : tblGet s.vht.vehicles slot = some v)
    (hq : o.state ≠ .queued) :
    ∃ t, placed slot h s = { t with iss := countPlacement s.iss } ∧ PlaceTaken slot h o s t := by
  have become := fillDest_become o s
  have hv' : tblGet (fillDest o s).vht.vehicles slot = some v := by rw [become.vht]; exact hv
  have ho' : tblGet (withVehicle slot { v with load := .empty } (fillDest o s)).ort.orders h = some o := by
    show tblGet (fillDest o s).ort.orders h = _
    rw [become.ort]
    exact ho
  have e := placed_eq (slot := slot) ho
  rw [updVehicle_of_get hv'] at e
  have framed : Framed s (withVehicle slot { v with load := .empty } (fillDest o s)) :=
    become.framed.trans (withVehicle_framed _ _ _)
  have taken (hf : Framed (withVehicle slot { v with load := .empty } (fillDest o s))
      (afterPlace h o (withVehicle slot { v with load := .empty } (fillDest o s)))) :
      placed slot h s = { afterPlace h o (withVehicle slot { v with load := .empty } (fillDest o s)) with
        iss := countPlacement s.iss } := by
    rw [e, surveyPlacement, (framed.trans hf).iss]
  by_cases hr : o.retargetLate = true
  · have ended := endOrder_ended (st := .done) ho' (by decide) .retargetLate
    have ea : afterPlace h o (withVehicle slot { v with load := .empty } (fillDest o s)) = _ := if_pos hr
    rw [ea] at taken
    refine ⟨_, taken ended.framed, _, v, become, hv', ?_⟩
    rw [if_pos hr]
    exact ended
  · by_cases hd : o.trigger = .standing ∧ o.asserted = true
    · have ea : afterPlace h o (withVehicle slot { v with load := .empty } (fillDest o s)) = _ :=
        (if_neg hr).trans (if_pos hd)
      obtain ⟨h1, h2, h3, h4, h5, h6, h7, h8, h9⟩ := serveDemand_served ho' hq
      rw [ea] at taken
      refine ⟨_, taken h1, _, v, become, hv', ?_⟩
      rw [if_neg hr, if_pos hd]
      refine ⟨(withVehicle_framed _ _ _).trans h1, h2, h3, h4, h5.trans ?_, h6, h7, h8, h9⟩
      have hvo : vehicleOf (withVehicle slot { v with load := .empty } (fillDest o s)) o = vehicleOf s o := by
        unfold vehicleOf
        split
        · next k j _ =>
          by_cases hk : k = slot
          · subst hk
            rw [withVehicle_get_self, hv]
            rfl
          · rw [withVehicle_others _ _ _ k hk, become.vht]
        · rfl
      rw [hvo]
      have hn : (withVehicle slot { v with load := .empty } (fillDest o s)).now = s.now := framed.now
      rw [hn]
      exact queueNotice_liu_congr _ (queueNotice_liu_congr _ rfl)
    · have ended := endOrder_ended (st := .done) ho' (by decide) .completed
      have ea : afterPlace h o (withVehicle slot { v with load := .empty } (fillDest o s)) = _ :=
        (if_neg hr).trans (if_neg hd)
      rw [ea] at taken
      refine ⟨_, taken ended.framed, _, v, become, hv', ?_⟩
      rw [if_neg hr, if_neg hd]
      exact ended

theorem endPlace_discards {f : EndpointField}
    (h1 : (o.state = .placing ∧ placeAt o f ≠ .dest) ∨ (o.state = .carrying ∧ placeAt o f = .other)) :
    endPlace slot h o f s = discard slot h none s := by
  obtain ⟨hs, hf⟩ | ⟨hs, hf⟩ := h1
  · cases hp : placeAt o f with
    | dest => exact absurd hp hf
    | prior => simp only [endPlace, hs, hp]
    | other => simp only [endPlace, hs, hp]
  · simp only [endPlace, hs, hf]

theorem endPlace_ignored {f : EndpointField} (h1 : o.state ≠ .placing) (h2 : o.state ≠ .carrying) :
    endPlace slot h o f s = s := by
  cases hs : o.state <;> cases hp : placeAt o f <;> simp_all [endPlace]

end PlaceEnd

/-- Settles O42, by the order's state and the destination named. -/
theorem placementsBeginAndEnd : Obligations.PlacementsBeginAndEnd := by
  refine ⟨fun s slot v hb t n0 n1 h o e hh a he => ⟨fun hs hd => ?begins, fun hs hd hp => ?elsewhere, fun hs => ?ignored⟩,
    fun s kind slot v hb t n0 n1 h o i hh hi a ht hs => ?unlisted,
    fun s slot v hb t n0 n1 h o e hh a he => ⟨fun hs hd => ?ends, fun hs hd => ?endsBegun, fun hs => ?endsElsewhere,
      fun h1 h2 => ?endIgnored⟩⟩
  all_goals
    subst hh
    have ho := reportsActive_record a
    have active {act : Vehicle → Order → State → State} := onActive_of_reports (act := act) a
    have stale := discard_eq (h := u8 hb) (layer := none) (taken_get s slot v)
  case begins =>
    obtain ⟨p, hp, _⟩ := beginPlace_begins (slot := slot) ho hs (endpointOf_field he) hd
    refine ⟨_, p, exec_placeBegin_of_waits a.1, ?_⟩
    rw [reportPlaceBegin, active, if_pos hs]
    exact hp
  case elsewhere =>
    rw [exec_placeBegin_of_waits a.1, reportPlaceBegin, active, if_pos hs, beginPlace,
      placeAt_other (endpointOf_field he) hd hp]
    exact congrArg _ stale
  case ignored => rw [exec_placeBegin_of_waits a.1, reportPlaceBegin, active, if_neg hs]
  case unlisted =>
    have other : placeAt o (endpointField t n0 n1) = .other := placeAt_none (endpointOf_none ht)
    obtain ⟨rfl, rfl⟩ | ⟨rfl, rfl⟩ := hi
    · have hs : o.state = .carrying := hs.resolve_right fun x => absurd x.2 (by decide)
      rw [exec_placeBegin_of_waits a.1, reportPlaceBegin, active, if_pos hs, beginPlace, other]
      exact congrArg _ stale
    · rw [exec_placeEnd_of_waits a.1, reportPlaceEnd, active]
      refine congrArg _ (Eq.trans (endPlace_discards ?_) stale)
      exact hs.symm.imp (fun x => ⟨x.1, by simp [other]⟩) fun x => ⟨x, other⟩
  case ends =>
    obtain ⟨x, ex, tx⟩ := placed_taken (slot := slot) ho (taken_get s slot v) (by simp [hs])
    refine ⟨x, ?_, tx⟩
    rw [exec_placeEnd_of_waits a.1, reportPlaceEnd, active]
    simp only [endPlace, hs, placeAt_dest (endpointOf_field he) hd]
    exact congrArg _ ex
  case endsBegun =>
    obtain ⟨p, hp, hps⟩ := beginPlace_begins (slot := slot) ho hs (endpointOf_field he) hd
    obtain ⟨x, ex, tx⟩ := placed_taken (slot := slot) hp.record (by rw [hp.vht]; exact taken_get s slot v)
      (by simp [hps])
    refine ⟨_, x, p, ?_, hp, tx⟩
    have hat : placeAt o (endpointField t n0 n1) = .dest ∨ placeAt o (endpointField t n0 n1) = .prior := by
      by_cases hde : o.dest = some e
      · exact .inl (placeAt_dest (endpointOf_field he) hde)
      · exact .inr (placeAt_prior (endpointOf_field he) hde (hd.resolve_left hde))
    rw [hp.framed.iss] at ex
    rw [exec_placeEnd_of_waits a.1, reportPlaceEnd, active]
    obtain hat | hat := hat <;> simp only [endPlace, hs, hat] <;> exact congrArg _ ex
  case endsElsewhere =>
    rw [exec_placeEnd_of_waits a.1, reportPlaceEnd, active]
    refine congrArg _ (Eq.trans (endPlace_discards ?_) stale)
    refine hs.imp (fun x => ⟨x.1, ?_⟩) fun x => ⟨x.1, placeAt_other (endpointOf_field he) x.2.1 x.2.2⟩
    by_cases hp : o.prior = some e
    · simp [placeAt_prior (endpointOf_field he) x.2 hp]
    · simp [placeAt_other (endpointOf_field he) x.2 hp]
  case endIgnored =>
    rw [exec_placeEnd_of_waits a.1, reportPlaceEnd, active, endPlace_ignored h1 h2]

end Sys2Proof.Machine
end

section
/-! FAULT and READY (R104, R158, R159, R161, R162). -/
namespace Sys2Proof.Machine

open Sys2Proof

variable {s t u x : State} {slot h g tag : Nat} {v w : Vehicle} {i : LayerId} {o p : Order}

/-! ## A vehicle whose STAGED order has returned (R50, R51) -/

section StagedReturns

variable {told : Bool}

theorem leftVehicle_faults (now tTake : Nat) (i : LayerId) (v : Vehicle) :
    (leftVehicle now tTake i v).lastFault = v.lastFault ∧ (leftVehicle now tTake i v).position = v.position ∧
      (leftVehicle now tTake i v).target = v.target := by
  unfold leftVehicle
  split <;> (try split) <;> (cases i <;> simp [Vehicle.withLayer])

/-- The return of a STAGED order concerns a vehicle's layers and its fleet id alone. -/
theorem StagedReturned.congr (r : StagedReturned slot w told s t) (hl : w.layer = v.layer) (hf : w.fleetId = v.fleetId) :
    StagedReturned slot v told s t := by
  unfold StagedReturned at r ⊢
  rwa [hl, hf] at r

/-- Where a vehicle's one layer may hold an order that waits, the rest of it is as it was once that order has returned. -/
theorem StagedReturned.kept (r : StagedReturned slot v told s t) (hv : tblGet s.vht.vehicles slot = some w) {j : LayerId}
    (hs : v.layer j = .empty ∨
      ∃ g q, v.layer j = .staged g ∧ tblGet s.ort.orders g = some q ∧ q.state = .assigned ∧ q.loc = some (slot, j))
    (hw : w.layer = v.layer) (hn : ∀ k, v.layer j.other ≠ .staged k) :
    ∃ y, tblGet t.vht.vehicles slot = some y ∧ y.layer j = .empty ∧ y.layer j.other = v.layer j.other ∧
      y.fleetId = w.fleetId ∧ y.lastFault = w.lastFault ∧ y.position = w.position ∧ y.link = w.link ∧
      y.target = w.target ∧ Framed s t ∧
      (∀ k, (∀ g, v.layer j = .staged g → k ≠ g) → tblGet t.ort.orders k = tblGet s.ort.orders k) := by
  obtain he | ⟨g, q, hl, hq, hqs, hloc⟩ := hs
  · obtain rfl : t = s := r.1 fun l k hk => by
      obtain rfl | rfl := LayerId.eq_or_other j l
      · rw [he] at hk
        cases hk
      · exact hn k hk
    exact ⟨w, hv, by rw [hw, he], by rw [hw], rfl, rfl, rfl, rfl, rfl, .refl t, fun _ _ => rfl⟩
  · have back := r.2 j g q hl hn hq hqs hloc
    have sends : SendsOnly fun s => if told = true then issue v.fleetId (.recall g j) s else s := by
      cases told
      · exact .id
      · exact issue_sendsOnly _ _
    have hvht : (if told = true then issue v.fleetId (.recall g j) s else s).vht = s.vht := sends.vht s
    have hort : (if told = true then issue v.fleetId (.recall g j) s else s).ort = s.ort := sends.ort s
    have fs : Framed s (if told = true then issue v.fleetId (.recall g j) s else s) := sends.framed s
    generalize (if told = true then issue v.fleetId (.recall g j) s else s) = s' at back hvht hort fs
    have hy := back.vehicles slot
    rw [hvht, hv, hloc, Option.map_some] at hy
    simp only [if_true] at hy
    obtain ⟨hid, _, hlink, _⟩ := leftVehicle_kept s'.now s.vht.tTake j w
    obtain ⟨hfault, hpos, htarget⟩ := leftVehicle_faults s'.now s.vht.tTake j w
    refine ⟨_, hy, leftVehicle_layer _ _ j w, ?_, hid, hfault, hpos, hlink, htarget, fs.trans back.framed, fun k hk => ?_⟩
    · rw [leftVehicle_layer_other, hw]
    · rw [back.others k (hk g hl), hort]

/-- The ACTIVE order of a vehicle stays on it as the STAGED one returns. -/
theorem StagedReturned.active (r : StagedReturned slot v told s t) (hv : tblGet s.vht.vehicles slot = some w)
    (hw : w.layer = v.layer) (ha : v.layer i = .active h) (hs : otherLayerWaits s slot v i h)
    (ho : tblGet s.ort.orders h = some o) :
    ∃ y, tblGet t.vht.vehicles slot = some y ∧ y.layer i = .active h ∧ y.layer i.other = .empty ∧
      tblGet t.ort.orders h = some o ∧ y.fleetId = w.fleetId ∧ y.lastFault = w.lastFault ∧ y.position = w.position ∧
      y.link = w.link ∧ y.target = w.target ∧ Framed s t := by
  have hs' : v.layer i.other = .empty ∨
      ∃ g q, v.layer i.other = .staged g ∧ tblGet s.ort.orders g = some q ∧ q.state = .assigned ∧
        q.loc = some (slot, i.other) :=
    hs.imp_right fun ⟨g, q, h1, _, h3, h4, h5⟩ => ⟨g, q, h1, h3, h4, h5⟩
  obtain ⟨y, hy, h1, h2, h3, h4, h5, h6, h7, h8, h9⟩ := r.kept hv hs' hw (by simp [ha])
  refine ⟨y, hy, ?_, h1, (h9 h fun g hg => ?_).trans ho, h3, h4, h5, h6, h7, h8⟩
  · rw [LayerId.other_other] at h2
    exact h2.trans ha
  · obtain he | ⟨k, q, hl, hne, _⟩ := hs
    · rw [he] at hg
      cases hg
    · rw [hl] at hg
      cases hg
      exact hne.symm

end StagedReturns

/-! ## The fault stall set (R104) -/

section Stalled

variable (slot : Nat) (c : FaultClass) (k : FaultCode) (v : Vehicle)

theorem stallSet_withVehicle (w : Vehicle) (s : State) : stallSet slot c k v (withVehicle slot w s) = stallSet slot c k v s := by
  unfold stallSet
  rw [withVehicle_withVehicle]
  rfl

/-- The record of a vehicle as its fault stall is set, and what the step leaves alone. -/
theorem stallSet_kept (s : State) :
    tblGet (stallSet slot c k v s).vht.vehicles slot = some (faultStalled s.now c k v) ∧
      otherVehiclesKept slot s (stallSet slot c k v s) ∧ (stallSet slot c k v s).ort = s.ort ∧
      (stallSet slot c k v s).bac = s.bac ∧ (stallSet slot c k v s).shm = s.shm ∧ (stallSet slot c k v s).fcr = s.fcr ∧
      Framed s (stallSet slot c k v s) := by
  have told : OnlyTold
      (setExamIf (decide (v.target ≠ none ∧ v.layer0 = .empty ∧ v.layer1 = .empty))
        (withVehicle slot (faultStalled s.now c k v) s)) (stallSet slot c k v s) := by
    unfold stallSet
    split
    · exact .refl _
    · exact queueNotice_told _ _
  have framed : Framed
      (setExamIf (decide (v.target ≠ none ∧ v.layer0 = .empty ∧ v.layer1 = .empty))
        (withVehicle slot (faultStalled s.now c k v) s)) (stallSet slot c k v s) := by
    unfold stallSet
    split
    · exact .refl _
    · exact (queueNotice_steady _ _).framed
  have fcr : (stallSet slot c k v s).fcr = s.fcr := by
    unfold stallSet
    split
    · exact setExamIf_fcr _ _
    · exact (queueNotice_fcr _ _).trans (setExamIf_fcr _ _)
  refine ⟨?_, fun j hj => ?_, ?_, ?_, ?_, fcr,
    ((withVehicle_framed slot _ s).trans (setExamIf_steady _ _).framed).trans framed⟩
  · rw [told.vht, setExamIf_vht]
    exact withVehicle_get_self _ _ _
  · rw [told.vht, setExamIf_vht]
    exact withVehicle_others _ _ _ j hj
  · rw [told.ort, setExamIf_ort]
    rfl
  · rw [told.bac, setExamIf_bac]
    rfl
  · rw [told.shm, setExamIf_shm]
    rfl

theorem faultStalled_kept (now : Nat) :
    (faultStalled now c k v).fleetId = v.fleetId ∧ (faultStalled now c k v).layer = v.layer ∧
      (faultStalled now c k v).position = v.position ∧ (faultStalled now c k v).lastFault = lastFaultThen v c k := by
  obtain ⟨h1, _, _, _, h5, h6, h7⟩ := repositionEnded_kept now
    { v with faultStall := true, lastFault := lastFaultThen v c k, recovered := false }
  exact ⟨h1, h7.trans (funext fun j => by cases j <;> rfl), h6, h5⟩

end Stalled

/-! ## FAULT (R158) -/

section Fault

theorem faultActive_of_none (hv : tblGet s.vht.vehicles slot = some v) (ha : ∀ i h, v.layer i ≠ .active h) :
    faultActive slot s = s := by
  simp only [faultActive, hv, activeOrder_eq_none ha]

section OfActive

variable (hv : tblGet s.vht.vehicles slot = some v) (ha : activeOrder s.ort v = some (h, o))

include hv ha

theorem faultActive_toSource (hs : o.state = .toSource) : faultActive slot s = requeueAbort slot h s := by
  simp only [faultActive, hv, ha, hs]

theorem faultActive_cancelling (hs : o.state = .cancelling) : faultActive slot s = s := by
  simp only [faultActive, hv, ha, hs]

theorem faultActive_carrier (hs : o.state = .picking ∨ o.state = .carrying ∨ o.state = .placing ∨ o.state = .suspended) :
    faultActive slot s = carrierInvolved slot h .fault s := by
  obtain hs | hs | hs | hs := hs <;> simp only [faultActive, hv, ha, hs]

end OfActive

/-- The state as a FAULT has been stored and told, before the vehicle's orders are looked at. -/
theorem reportFault_eq {r : FaultRep} (hv : tblGet s.vht.vehicles slot = some v) :
    reportFault slot r s =
      faultActive slot
        (recallStaged slot
          (raiseIncident
            (vehicleIncident s (faultIncident (severityOf r.severity)) v v.activeHandle (some r.code.toNat))
            (stallSet slot (severityOf r.severity) (.vehicle r.code) v s))) := by
  obtain ⟨hget, _, _, _, _, _, framed⟩ := stallSet_kept slot (severityOf r.severity) (.vehicle r.code) v s
  obtain ⟨h1, _, h3, _⟩ := faultStalled_kept (severityOf r.severity) (.vehicle r.code) v s.now
  have hact : activeHandleAt s slot = v.activeHandle := by simp only [activeHandleAt, hv]
  rw [reportFault, setFaultStall_eq hv, raiseVehicle_of_get hget, hact, h1, h3, framed.now]
  rfl

theorem exec_fault_of_waits {sv c : Byte} (a : reportWaits s 0x5A slot v [sv, c]) :
    exec .fault s = .next (reportFault slot ⟨u8 sv, c⟩ (taken s slot v)) :=
  congrArg Host.Outcome.next (takeReport_of_waits (form := decodeFault) (act := reportFault) a rfl)

theorem lastFaultThen_class (v : Vehicle) (c : FaultClass) (k : FaultCode) :
    ∃ d j, lastFaultThen v c k = some (d, j) := by
  unfold lastFaultThen
  split
  · next hc =>
    obtain ⟨_, hf, _⟩ := hc
    cases hl : v.lastFault with
    | none => simp [faultClassOf, hl] at hf
    | some x => exact ⟨x.1, x.2, rfl⟩
  · exact ⟨c, k, rfl⟩

/-- Settles O44: the stall and its incident, the recall, and then the ACTIVE order by its state. -/
theorem faultStallsTheVehicle : Obligations.FaultStallsTheVehicle := by
  intro s slot v sv c cls a hcls
  have hsev : severityOf (u8 sv) = cls := hcls.symm
  have hcode : faultIncident cls = if u8 sv = 0 then .vehicleFaultR else .vehicleFaultF := by
    rw [hcls]
    split <;> rfl
  have e := exec_fault_of_waits a
  rw [reportFault_eq (taken_get s slot v)] at e
  simp only [hsev] at e
  obtain ⟨hget, _, hort, _, _, _, framed⟩ := stallSet_kept slot cls (.vehicle c) (heardVehicle s v) (taken s slot v)
  obtain ⟨h1, h2, h3, h4⟩ := faultStalled_kept cls (.vehicle c) (heardVehicle s v) s.now
  have hlayer : (faultStalled s.now cls (.vehicle c) (heardVehicle s v)).layer = v.layer :=
    h2.trans (funext fun j => by cases j <;> rfl)
  have hu : raiseIncident (vehicleIncident (taken s slot v) (faultIncident cls) (heardVehicle s v)
        (heardVehicle s v).activeHandle (some c.toNat))
      (stallSet slot cls (.vehicle c) (heardVehicle s v) (taken s slot v)) =
      raiseIncident (vehicleIncident s (if u8 sv = 0 then .vehicleFaultR else .vehicleFaultF) v v.activeHandle (some (u8 c)))
        (stallSet slot cls (.vehicle c) (heardVehicle s v) (taken s slot v)) := by
    rw [hcode]
    rfl
  rw [hu] at e
  have told := raiseIncident_told
    (vehicleIncident s (if u8 sv = 0 then .vehicleFaultR else .vehicleFaultF) v v.activeHandle (some (u8 c)))
    (stallSet slot cls (.vehicle c) (heardVehicle s v) (taken s slot v))
  generalize raiseIncident
    (vehicleIncident s (if u8 sv = 0 then .vehicleFaultR else .vehicleFaultF) v v.activeHandle (some (u8 c)))
    (stallSet slot cls (.vehicle c) (heardVehicle s v) (taken s slot v)) = u at e told
  have huv : tblGet u.vht.vehicles slot = some (faultStalled s.now cls (.vehicle c) (heardVehicle s v)) := by
    rw [told.vht]
    exact hget
  have huo : u.ort = s.ort := told.ort.trans hort
  have returned : StagedReturned slot v true u (recallStaged slot u) := (recallStaged_returned huv).congr hlayer h1
  refine ⟨_, u, recallStaged slot u, e, rfl, returned, fun ha hs => ?idle, fun i h o hl he ho hs hloc => ?staged,
    fun i h o hl hw ho hloc => ?active⟩
  case idle =>
    rw [returned.1 hs]
    exact faultActive_of_none huv (by rw [hlayer]; exact ha)
  case staged =>
    obtain ⟨y, hy, h5, h6, _⟩ := returned.kept huv (j := i) (.inr ⟨h, o, hl, by rw [huo]; exact ho, hs, hloc⟩) hlayer
      (by simp [he])
    refine faultActive_of_none hy fun j g hj => ?_
    obtain rfl | rfl := LayerId.eq_or_other i j
    · rw [h5] at hj
      cases hj
    · rw [h6, he] at hj
      cases hj
  case active =>
    have hw' : otherLayerWaits u slot v i h := by
      rw [otherLayerWaits, huo]
      exact hw
    obtain ⟨y, hy, h5, h6, hyo, h7, h8, _⟩ := returned.active huv hlayer hl hw' (by rw [huo]; exact ho)
    have hact := activeOrder_of_layer (x := (recallStaged slot u).ort) h5 (by simp [h6]) hyo
    refine ⟨fun hs hp => ?_, fun hs => ?_, fun hs => ?_⟩
    · rw [faultActive_toSource hy hact hs, requeueAbort_of_none hyo hp hy, h7, h1]
      rfl
    · obtain ⟨hs, hp⟩ | hs := hs
      · rw [faultActive_toSource hy hact hs, requeueAbort_of_pending hyo hp]
      · exact faultActive_cancelling hy hact hs
    · obtain ⟨d, k, hd⟩ := lastFaultThen_class v cls (.vehicle c)
      have hc : faultClassOf y = d := by
        have hyd : y.lastFault = some (d, k) := h8.trans (h4.trans hd)
        simp only [faultClassOf, hyd]
      refine ⟨d, k, hd, ?_⟩
      rw [faultActive_carrier hy hact hs, ← hc]
      exact carrierInvolved_involved hyo hy .fault (by obtain hs | hs | hs | hs := hs <;> simp [hs])

end Fault

end Sys2Proof.Machine
end

section
/-! READY, and the resumption of a suspended order on a report (R161, R162). -/
namespace Sys2Proof.Machine

open Sys2Proof

variable {s t u x : State} {slot h tag : Nat} {v w : Vehicle} {i : LayerId} {o p : Order} {load : Load}

/-! ## A report set against a suspended order (R96, R162) -/

section Reports

theorem readOfLoad_eq (load : Load) : readOfLoad load = match load with | .tagged g => .tag g | _ => .unread := by
  cases load <;> rfl

/-- The record of an order that a consistent report resumes, before its step (R162; log 15). -/
def reportedOrder (load : Load) (o : Order) : Order :=
  { o with prior := none, readTag := some (o.readTag.getD (readOfLoad load)) }

/-- An order that a report resumes: the shelves it frees, and its step to CARRYING with the examination-pending flag. -/
theorem resumeOnReport_stepped (ho : tblGet s.ort.orders h = some o) (hs : o.state = .suspended)
    (hv : tblGet s.vht.vehicles slot = some v) :
    ∃ x y, ShelvesBecome (vacatedShelf h o) s x ∧
      OrderStepped h o (resumedOrder s v (reportedOrder load o)) .none x y ∧
      resumeOnReport slot h load s = setExam y := by
  have hr := releaseInbound_only h o.prior s
  obtain ⟨y, ey, hy⟩ := resumeOrder_stepped (slot := slot) (v := v) (f := reportedOrder load) (o := o) (h := h)
    (s := releaseInbound h o.prior s) (by rw [hr.eq]; exact ho) hs (by rw [hr.eq]; exact hv) rfl rfl
  have hrec : resumedOrder (releaseInbound h o.prior s) v (reportedOrder load o) =
      resumedOrder s v (reportedOrder load o) := by
    rw [hr.eq]
    rfl
  rw [hrec] at hy
  refine ⟨_, y, vacateSource_releaseInbound_become h o s, hy, ?_⟩
  simp only [resumeOnReport, ho]
  exact ey

theorem consistentLoad_iff (hl : load ≠ .empty) :
    consistentLoad o load = true ↔ o.carrierTag = none ∨ ∃ c, o.carrierTag = some c ∧ load = .tagged c := by
  cases load with
  | empty => contradiction
  | tagged g => cases hc : o.carrierTag <;> simp [consistentLoad, hc, eq_comm]
  | unknown => cases hc : o.carrierTag <;> simp [consistentLoad, hc]

/-- CARRIER_MISMATCH of a suspended order on the vehicle whose record is `w`. -/
theorem mismatch_eq (ho : tblGet s.ort.orders h = some o) (hw : tblGet s.vht.vehicles slot = some w) :
    mismatch slot h s =
      raiseIncident (mismatchIncident s w h o) (putOrder h { o with suspendReason := some .mismatch } s) := by
  have hw' : tblGet (putOrder h { o with suspendReason := some .mismatch } s).vht.vehicles slot = some w := hw
  simp only [mismatch, ho, updOrder_of_get ho]
  rw [raiseVehicle_of_get hw']
  rfl

end Reports

/-! ## READY by the load and the ACTIVE order (R161) -/

section Ready

theorem exec_ready_of_waits {payload : List Byte} (a : reportWaits s 0x5B slot v payload)
    (hl : decodeLoad payload = some load) : exec .ready s = .next (reportReady slot load (taken s slot v)) :=
  congrArg Host.Outcome.next (takeReport_of_waits (act := reportReady) a hl)

theorem keepsLoad_of_none {x : OrderTable} (ha : ∀ i h, v.layer i ≠ .active h) : keepsLoad x v = false := by
  simp only [keepsLoad, activeOrder_eq_none ha]

theorem strayReady_iff :
    strayReady v load = true ↔ (∀ i h, v.layer i ≠ .active h) ∧ v.load = .empty ∧ load ≠ .empty := by
  rw [← activeLayer_eq_none_iff]
  simp [strayReady, and_assoc]

theorem autoReleases_iff :
    autoReleases v = true ↔
      v.faultStall = true ∧ v.autoRelease = true ∧ v.lastFault.map (fun k => k.1) = some .recoverable := by
  unfold autoReleases
  cases hf : v.lastFault with
  | none => simp
  | some x =>
    obtain ⟨c, k⟩ := x
    cases c <;> simp [and_assoc]

/-- The record of a vehicle whose READY has been stored (R161, steps 1 and 2). -/
def readyVehicle (x : OrderTable) (load : Load) (v : Vehicle) : Vehicle :=
  { v with recovered := true, load := if keepsLoad x v = true then v.load else load }

/-- The state as a READY of the vehicle `v` in `slot` has been stored, with auto-release (R161, steps 1 to 3). -/
def readyStored (slot : Nat) (load : Load) (v : Vehicle) (s : State) : State :=
  if v.faultStall = true ∧ v.autoRelease = true ∧ v.lastFault.map (fun k => k.1) = some .recoverable then
    setExam
      (queueNotice (.vehicleState v.fleetId slot .released v.link v.hostStall false v.lastFault)
        (withVehicle slot { readyVehicle s.ort load v with faultStall := false, noTakes := 0 } s))
  else withVehicle slot (readyVehicle s.ort load v) s

theorem readyStored_vehicle (slot : Nat) (load : Load) (v : Vehicle) (s : State) :
    ∃ w, tblGet (readyStored slot load v s).vht.vehicles slot = some w ∧ w.layer = v.layer ∧ w.fleetId = v.fleetId ∧
      w.position = v.position ∧ (readyStored slot load v s).ort = s.ort ∧ (readyStored slot load v s).now = s.now ∧
      (readyStored slot load v s).lyt = s.lyt := by
  have hl (w : Vehicle) (h0 : w.layer0 = v.layer0) (h1 : w.layer1 = v.layer1) : w.layer = v.layer :=
    funext fun j => by cases j <;> assumption
  unfold readyStored
  split
  · have told := queueNotice_told (.vehicleState v.fleetId slot .released v.link v.hostStall false v.lastFault)
      (withVehicle slot { readyVehicle s.ort load v with faultStall := false, noTakes := 0 } s)
    refine ⟨{ readyVehicle s.ort load v with faultStall := false, noTakes := 0 }, ?_, hl _ rfl rfl, rfl, rfl, told.ort,
      told.now, told.lyt⟩
    rw [setExam_vht, told.vht]
    exact withVehicle_get_self _ _ _
  · exact ⟨_, withVehicle_get_self _ _ _, hl _ rfl rfl, rfl, rfl, rfl, rfl, rfl⟩

theorem readySteps_eq (hv : tblGet s.vht.vehicles slot = some v) (load : Load) :
    readySteps slot load s =
      readySuspended slot load
        (if autoReleases v = true then
          setExam
            (queueNotice (.vehicleState v.fleetId slot .released v.link v.hostStall false v.lastFault)
              (withVehicle slot { v with recovered := true, faultStall := false, noTakes := 0 } s))
        else withVehicle slot { v with recovered := true } s) := by
  simp only [readySteps, hv, updVehicle_of_get hv]
  split
  · rw [clearFaultStall_eq (withVehicle_get_self _ _ _), withVehicle_withVehicle]
  · rfl

/-- A READY that no stray load stops is stored, and then set against the ACTIVE order. -/
theorem reportReady_stored (hv : tblGet s.vht.vehicles slot = some v) (hs : strayReady v load = false) :
    reportReady slot load s = readySuspended slot load (readyStored slot load v s) := by
  have hiff : autoReleases v = true ↔ _ := autoReleases_iff
  unfold reportReady
  simp only [hv]
  by_cases hk : keepsLoad s.ort v = true
  · simp only [hk, if_true, readySteps_eq hv, hiff, readyStored, readyVehicle]
  · have hiff' : autoReleases { v with load := load } = true ↔ _ := hiff
    have e := readySteps_eq (s := withVehicle slot { v with load := load } s) (withVehicle_get_self slot _ s) load
    simp only [withVehicle_withVehicle] at e
    simp only [hk, hs, Bool.false_eq_true, if_false, updVehicle_of_get hv, e, hiff', readyStored, readyVehicle]

/-- A stray load: the fault stall, its incident, and the recall of the staged order. -/
theorem reportReady_stray (hv : tblGet s.vht.vehicles slot = some v) (hs : strayReady v load = true) :
    reportReady slot load s =
      recallStaged slot
        (raiseIncident (vehicleIncident s .strayLoad v none none)
          (stallSet slot .fatal .strayLoad { v with load := load } s)) := by
  have hk : keepsLoad s.ort v = false := keepsLoad_of_none (strayReady_iff.1 hs).1
  obtain ⟨hget, _, _, _, _, _, framed⟩ := stallSet_kept slot .fatal .strayLoad { v with load := load } s
  obtain ⟨h1, _, h3, _⟩ := faultStalled_kept .fatal .strayLoad { v with load := load } s.now
  simp only [reportReady, hv, hk, hs, Bool.false_eq_true, if_false, if_true, updVehicle_of_get hv, strayLoad]
  rw [setFaultStall_eq (withVehicle_get_self _ _ _), stallSet_withVehicle, raiseVehicle_of_get hget, h1, h3, framed.now]
  rfl

section Suspended

variable (hv : tblGet s.vht.vehicles slot = some v)

include hv

theorem readySuspended_of_none (ha : ∀ i h, v.layer i ≠ .active h) : readySuspended slot load s = s := by
  simp only [readySuspended, hv, activeOrder_eq_none ha]

variable (ha : activeOrder s.ort v = some (h, o))

include ha

theorem readySuspended_kept (hs : o.state ≠ .suspended ∨ load = .empty) : readySuspended slot load s = s := by
  simp only [readySuspended, hv, ha, if_pos hs]

theorem readySuspended_consistent (hs : o.state = .suspended) (hl : load ≠ .empty) (hc : consistentLoad o load = true) :
    readySuspended slot load s =
      issueTo slot (.retarget h (stopOf? s.lyt o.dest)) (resumeOnReport slot h load s) := by
  have hn : ¬(o.state ≠ .suspended ∨ load = .empty) := by simp [hs, hl]
  simp only [readySuspended, hv, ha, if_neg hn, hc, if_true]

theorem readySuspended_inconsistent (hs : o.state = .suspended) (hl : load ≠ .empty)
    (hc : consistentLoad o load = false) :
    readySuspended slot load s = if o.suspendReason = some .mismatch then s else mismatch slot h s := by
  have hn : ¬(o.state ≠ .suspended ∨ load = .empty) := by simp [hs, hl]
  simp only [readySuspended, hv, ha, if_neg hn, hc, Bool.false_eq_true, if_false]

end Suspended

/-- Settles O45: the stray load first, and then what was stored, by the ACTIVE order. -/
theorem readyRecoversTheVehicle : Obligations.ReadyRecoversTheVehicle := by
  intro s slot v payload load a hd
  have e := exec_ready_of_waits a hd
  have hv := taken_get s slot v
  refine ⟨fun ha hempty hl => ?stray, fun w u hw hu => ?stored⟩
  case stray =>
    have hs : strayReady (heardVehicle s v) load = true := strayReady_iff.2 ⟨fun i h x => ha i h (by cases i <;> exact x), hempty, hl⟩
    rw [reportReady_stray hv hs] at e
    refine ⟨_, _, e, rfl, ?_⟩
    obtain ⟨hget, _⟩ := stallSet_kept slot .fatal .strayLoad { heardVehicle s v with load := load } (taken s slot v)
    obtain ⟨h1, h2, _⟩ := faultStalled_kept .fatal .strayLoad { heardVehicle s v with load := load } s.now
    refine (recallStaged_returned ?_).congr (h2.trans (funext fun j => by cases j <;> rfl)) h1
    rw [(raiseIncident_told _ _).vht]
    exact hget
  case stored =>
    have hstored : readyStored slot load (heardVehicle s v) (taken s slot v) = u := by
      rw [hu, hw]
      unfold readyStored
      rw [taken, reported_eq, withVehicle_withVehicle, withVehicle_withVehicle]
      rfl
    obtain ⟨y, hy, hyl, hyf, hyp, hyo, hyn, hyt⟩ := readyStored_vehicle slot load (heardVehicle s v) (taken s slot v)
    rw [hstored] at hy hyo hyn hyt
    have hlayer : y.layer = v.layer := hyl.trans (funext fun j => by cases j <;> rfl)
    have stored (hs : strayReady (heardVehicle s v) load = false) : exec .ready s = .next (readySuspended slot load u) := by
      rw [reportReady_stored hv hs, hstored] at e
      exact e
    have notStray (h : ¬((∀ i h, v.layer i ≠ .active h) ∧ v.load = .empty ∧ load ≠ .empty)) :
        strayReady (heardVehicle s v) load = false := by
      refine Bool.eq_false_iff.2 fun x => h ?_
      obtain ⟨h1, h2, h3⟩ := strayReady_iff.1 x
      exact ⟨fun i g hg => h1 i g (by cases i <;> exact hg), h2, h3⟩
    refine ⟨fun ha hl => ?idle, fun i h o ha hn ho hloc => ?active⟩
    case idle =>
      rw [stored (notStray fun x => hl.elim (fun n => n x.2.1) x.2.2), readySuspended_of_none hy (by rw [hlayer]; exact ha)]
    case active =>
      have e := stored (notStray fun x => x.1 i h ha)
      have hact : activeOrder u.ort y = some (h, o) :=
        activeOrder_of_layer (i := i) (by rw [hlayer]; exact ha) (by rw [hlayer]; exact hn) (by rw [hyo]; exact ho)
      have hou : tblGet u.ort.orders h = some o := by rw [hyo]; exact ho
      refine ⟨fun hs => by rw [e, readySuspended_kept hy hact (.inl hs)],
        fun hs hl => by rw [e, readySuspended_kept hy hact (.inr hl)], fun c hs hc => ?resumes, fun c hs hc hl hne => ?mismatch⟩
      case resumes =>
        have hl : load ≠ .empty := by
          obtain ⟨_, hl⟩ | ⟨_, hl⟩ := hc
          · exact hl
          · simp [hl]
        have hcon : consistentLoad o load = true :=
          (consistentLoad_iff hl).2 (hc.imp And.left fun x => ⟨c, x⟩)
        obtain ⟨x, z, hx, hz, ez⟩ := resumeOnReport_stepped (load := load) hou hs hy
        refine ⟨x, z, hx, ?_, ?_⟩
        · unfold resumedOrder reportedOrder at hz
          rw [hyn, hyt, hyp, readOfLoad_eq] at hz
          exact hz
        · rw [e, readySuspended_consistent hy hact hs hl hcon, ez, hyt]
          refine congrArg _ ((issueTo_eq_issue (v := y) _ ?_).trans (by rw [hyf]; rfl))
          rw [setExam_vht, hz.kept.2.1, hx.vht]
          exact hy
      case mismatch =>
        have hcon : consistentLoad o load = false := by
          refine Bool.eq_false_iff.2 fun x => ?_
          obtain hx | ⟨g, hg, hx⟩ := (consistentLoad_iff hl).1 x
          · simp [hc] at hx
          · rw [hc] at hg
            cases hg
            exact hne hx
        rw [readySuspended_inconsistent hy hact hs hl hcon] at e
        refine ⟨fun hm => by rw [e, if_pos hm], fun hm => ?_⟩
        rw [e, if_neg hm, mismatch_eq hou hy]
        have hi : mismatchIncident u y h o = mismatchIncident s v h o := by
          rw [mismatchIncident, mismatchIncident, hyn, hyf, hyp]
          rfl
        rw [hi]

end Ready

end Sys2Proof.Machine
end

section
/-! A lost vehicle: BYE and the expiry of the silence timer (R99, R100, R112, R128, R165). -/
namespace Sys2Proof.Machine

open Sys2Proof

variable {s t u x : State} {slot h b c tag : Nat} {v w : Vehicle} {i : LayerId} {o p : Order} {y z : BayState}

/-! ## What the loss of its orders leaves of a vehicle (R165) -/

section Orders

/-- Vehicles have lost layers only, and the bays are as they were. -/
def LayersLeft (s t : State) : Prop := (∃ loc, layerLeft loc s t) ∧ t.bac = s.bac

theorem LayersLeft.of_eq (hv : t.vht = s.vht) (hb : t.bac = s.bac) : LayersLeft s t := by
  refine ⟨⟨none, fun k => ?_⟩, hb⟩
  rw [hv]
  simp

/-- The vehicle in a slot, its layers each as it was or EMPTY, and its link as it was. -/
theorem LayersLeft.vehicle (l : LayersLeft s t) (hv : tblGet s.vht.vehicles slot = some v) :
    ∃ w, tblGet t.vht.vehicles slot = some w ∧ w.link = v.link ∧ ∀ j, w.layer j = .empty ∨ w.layer j = v.layer j := by
  obtain ⟨⟨loc, hl⟩, _⟩ := l
  have e := hl slot
  rw [hv, Option.map_some] at e
  refine ⟨_, e, ?_⟩
  split
  · next k i =>
    split
    · exact ⟨(leftVehicle_kept _ _ i v).2.2.1, leftVehicle_layer_cases _ _ i v⟩
    · exact ⟨rfl, fun _ => .inr rfl⟩
  · exact ⟨rfl, fun _ => .inr rfl⟩

theorem moveOrder_vht_bac (h : Nat) (f : Order → Order) (st : OrderState) (why : OrderReason) (left : Option Nat)
    (s : State) : (moveOrder h f st why left s).vht = s.vht ∧ (moveOrder h f st why left s).bac = s.bac := by
  cases ho : tblGet s.ort.orders h with
  | none =>
    rw [show moveOrder h f st why left s = s by simp only [moveOrder, ho]]
    exact ⟨rfl, rfl⟩
  | some o =>
    rw [moveOrder_eq ho, setExamIf_vht, setExamIf_bac, (queueNotice_told _ _).vht, (queueNotice_told _ _).bac]
    exact ⟨rfl, rfl⟩

theorem returnOrder_left (h : Nat) (st : OrderState) (s : State) : LayersLeft s (returnOrder h st s) := by
  cases ho : tblGet s.ort.orders h with
  | none =>
    rw [show returnOrder h st s = s by simp only [returnOrder, ho]]
    exact .of_eq rfl rfl
  | some o =>
    obtain ⟨_, _, _, e4, e5, _, _⟩ :=
      leaveRelease_facts (leaveVehicle_only o.loc s) (releaseGrantClaims_only h o (leaveVehicle o.loc s))
    have e : returnOrder h st s =
        moveOrder h offVehicle st .none (carrierId s o.loc) (releaseGrantClaims h o (leaveVehicle o.loc s)) := by
      simp only [returnOrder, ho]
    obtain ⟨hv, hb⟩ := moveOrder_vht_bac h offVehicle st .none (carrierId s o.loc)
      (releaseGrantClaims h o (leaveVehicle o.loc s))
    rw [e]
    exact ⟨⟨o.loc, layerLeft_id (leaveVehicle_left o.loc s) (hv.trans e4)⟩, hb.trans e5⟩

theorem endOrder_left {st : OrderState} (hst : st ≠ .queued) (h : Nat) (why : EndReason) (s : State) :
    LayersLeft s (endOrder h st why s) := by
  cases ho : tblGet s.ort.orders h with
  | none =>
    rw [show endOrder h st why s = s by simp only [endOrder, ho]]
    exact .of_eq rfl rfl
  | some o =>
    have e := endOrder_ended (s := s) ho hst why
    exact ⟨⟨_, e.vehicles⟩, e.kept.1⟩

theorem updOrder_left (h : Nat) (f : Order → Order) (s : State) : LayersLeft s (updOrder h f s) := by
  unfold updOrder
  split
  · exact .of_eq rfl rfl
  · exact .of_eq rfl rfl

theorem loseStaged_left (slot : Nat) (s : State) : LayersLeft s (loseStaged slot s) := by
  unfold loseStaged
  split
  · split
    · exact returnOrder_left _ _ s
    · exact .of_eq rfl rfl
  · exact .of_eq rfl rfl

theorem loseActive_left (slot : Nat) (s : State) : LayersLeft s (loseActive slot s) := by
  unfold loseActive
  split
  · split
    · split
      case h_1 => exact returnOrder_left _ _ s
      case h_2 => exact endOrder_left (by decide) _ _ s
      case h_6 => exact updOrder_left _ _ s
      case h_3 | h_4 | h_5 =>
        exact .of_eq (moveOrder_vht_bac _ _ _ _ _ s).1 (moveOrder_vht_bac _ _ _ _ _ s).2
      all_goals exact .of_eq rfl rfl
    · exact .of_eq rfl rfl
  · exact .of_eq rfl rfl

theorem loseActive_of_none (hv : tblGet s.vht.vehicles slot = some v) (ha : ∀ i h, v.layer i ≠ .active h) :
    loseActive slot s = s := by
  simp only [loseActive, hv, activeOrder_eq_none ha]

section OfActive

variable (hv : tblGet s.vht.vehicles slot = some v) (ha : activeOrder s.ort v = some (h, o))

include hv ha

theorem loseActive_toSource (hs : o.state = .toSource) : loseActive slot s = returnOrder h .queued s := by
  simp only [loseActive, hv, ha, hs]

theorem loseActive_cancelling (hs : o.state = .cancelling) :
    loseActive slot s = endOrder h .cancelled .cancelledByHost s := by
  simp only [loseActive, hv, ha, hs]

theorem loseActive_carrier (hs : o.state = .picking ∨ o.state = .carrying ∨ o.state = .placing) :
    loseActive slot s = suspendOrder h .lost s := by
  obtain hs | hs | hs := hs <;> simp only [loseActive, hv, ha, hs]

theorem loseActive_suspended (hs : o.state = .suspended) :
    loseActive slot s = updOrder h (fun o => { o with suspendReason := some .lost }) s := by
  simp only [loseActive, hv, ha, hs]

end OfActive

end Orders

/-! ## What the loss leaves of its places (R128) -/

section Places

theorem notWaiting_of_get (hw : tblWf s.bac.bays = true)
    (h : ∀ c y, tblGet s.bac.bays c = some y → ∀ w ∈ y.queue, w.slot ≠ slot) : notWaiting s slot :=
  fun e he => h e.1 e.2 (tblGet_of_mem hw he)

/-- The queues that a vehicle leaves no longer hold it. -/
theorem leaveQueues_gone (slot : Nat) (s : State) :
    ∀ c z, tblGet (leaveQueues (waitingBays s.bac slot) slot s).bac.bays c = some z → ∀ w ∈ z.queue, w.slot ≠ slot := by
  intro c z hz w hw
  obtain ⟨y, hy, _⟩ := (leaveQueues_left (waitingBays s.bac slot) slot s).places c z hz
  obtain ⟨z', hz', _, _, _, _, _, hq⟩ := leaveQueues_get (bs := waitingBays s.bac slot) (slot := slot) hy
  obtain rfl := Option.some.inj (hz.symm.trans hz')
  rw [hq] at hw
  split at hw
  · simpa using (List.mem_filter.1 hw).2
  · next hc => exact fun e => hc (mem_waitingBays.2 ⟨y, tblGet_mem hy, w, hw, e⟩)

/-- A bay lists a vehicle at most once: what it finds is what it holds. -/
theorem entryOf_of_mem {a : Admitted} (hn : (y.admitted.map (fun a => a.slot)).Nodup) (ha : a ∈ y.admitted) :
    y.entryOf a.slot = some a := by
  obtain ⟨d, hd⟩ := Option.isSome_iff_exists.1 (entryOf_isSome.2 ⟨a, ha, rfl⟩)
  obtain ⟨hm, hs⟩ := entryOf_mem hd
  rw [hd, List.inj_on_of_nodup_map hn hm ha hs]

theorem mem_grantedBays {a : Admission} :
    b ∈ grantedBays a slot ↔ b ∈ admittedBays a slot ∧ ∃ e, entryIn a b slot = some e ∧ e.inside = false := by
  rw [grantedBays, List.mem_filter]
  refine and_congr_right fun _ => ?_
  cases entryIn a b slot <;> simp

/-- The vehicle's places are lost: its queue entries and its GRANTED entries go, its INSIDE entries stay. -/
theorem losePlaces_lost (hn : ∀ e ∈ s.bac.bays, (e.2.admitted.map (fun a => a.slot)).Nodup) :
    BaysLeft s (losePlaces slot s) ∧
      (∀ c z, tblGet (losePlaces slot s).bac.bays c = some z → ∀ w ∈ z.queue, w.slot ≠ slot) ∧
      (∀ c z, tblGet (losePlaces slot s).bac.bays c = some z → ∀ a ∈ z.admitted, a.slot = slot → a.inside = true) ∧
      ∀ b a, entryIn s.bac b slot = some a → a.inside = true → entryIn (losePlaces slot s).bac b slot = some a := by
  have queues := leaveQueues_left (waitingBays s.bac slot) slot s
  have gone := leaveQueues_gone slot s
  have granted := leaveBaysGranting_left (grantedBays s.bac slot) slot (leaveQueues (waitingBays s.bac slot) slot s)
  refine ⟨queues.trans granted, fun c z hz w hw => ?_, fun c z hz a ha hs => ?_, fun b a ha hi => ?_⟩
  · obtain ⟨y, hy, py⟩ := granted.places c z hz
    exact gone c y hy w (py.queue w hw)
  · refine leaveBaysGranting_entries (P := fun a => a.inside = true) (fun c _ y hy => gone c y hy)
      (fun c hc y hy a ha hs => ?_) c z hz a ha hs
    obtain ⟨x, hx, _⟩ := queues.places c y hy
    obtain ⟨y', hy', hadm, _⟩ := leaveQueues_get (bs := waitingBays s.bac slot) (slot := slot) hx
    obtain rfl := Option.some.inj (hy.symm.trans hy')
    rw [hadm] at ha
    by_contra hi
    refine hc (mem_grantedBays.2 ⟨mem_admittedBays.2 ⟨x, tblGet_mem hx, a, ha, hs⟩, a, ?_, by simpa using hi⟩)
    rw [entryIn_of_get hx, ← hs]
    exact entryOf_of_mem (hn _ (tblGet_mem hx)) ha
  · have hb : b ∉ grantedBays s.bac slot := fun x => by
      obtain ⟨_, e, he, hf⟩ := mem_grantedBays.1 x
      rw [ha] at he
      cases he
      simp [hf] at hi
    obtain ⟨x, hx⟩ : ∃ x, tblGet s.bac.bays b = some x := by
      unfold entryIn at ha
      split at ha
      · next x hx => exact ⟨x, hx⟩
      · cases ha
    obtain ⟨y, hy, hadm, _⟩ := leaveQueues_get (bs := waitingBays s.bac slot) (slot := slot) hx
    have hz := (leaveBaysGranting_others (slot := slot) (s := leaveQueues (waitingBays s.bac slot) slot s) hb).trans hy
    rw [entryIn_of_get hx, BayState.entryOf, ← hadm] at ha
    exact (entryIn_of_get (slot := slot) hz).trans ha

end Places

/-! ## Loss handling (R165) -/

section Loss

/-- The end of a vehicle's reposition, by its record. -/
theorem endReposition_ended (hv : tblGet s.vht.vehicles slot = some v) :
    OnlyVehicles s (endReposition slot s) ∧
      tblGet (endReposition slot s).vht.vehicles slot = some (repositionEnded s.now v) ∧
      otherVehiclesKept slot s (endReposition slot s) := by
  unfold endReposition repositionEnded
  simp only [hv, updVehicle_of_get hv]
  by_cases ht : v.target = none
  · simp only [ht, if_true]
    exact ⟨.refl s, hv, fun _ _ => rfl⟩
  · simp only [if_neg ht]
    by_cases he : v.layer0 = .empty ∧ v.layer1 = .empty
    · rw [if_pos (bothEmpty_iff.2 he), if_pos he]
      exact ⟨setExam_only ⟨rfl, id⟩, withVehicle_get_self _ _ _, withVehicle_others _ _ _⟩
    · rw [if_neg fun x => he (bothEmpty_iff.1 x), if_neg he]
      exact ⟨⟨rfl, id⟩, withVehicle_get_self _ _ _, withVehicle_others _ _ _⟩

theorem OnlyVehicles.framed (h : OnlyVehicles s t) : Framed s t := by
  rw [h.eq]
  constructor <;> rfl

theorem dropLink_eq {why : OfflineReason} (hv : tblGet s.vht.vehicles slot = some v) :
    dropLink slot why s =
      queueNotice (.vehicleState v.fleetId slot .lost (.offline why) v.hostStall v.faultStall v.lastFault)
        (withVehicle slot { v with link := .offline why, silence := none } s) := by
  rw [dropLink, updVehicle_of_get hv, vehicleNotice_of_get (withVehicle_get_self _ _ _)]

theorem exec_bye_of_waits {x : Byte} (a : reportWaits s 0x5F slot v [x]) :
    exec .bye s = .next (byeVehicle slot (taken s slot v)) :=
  congrArg Host.Outcome.next
    (takeReport_of_waits (form := decodeFiller) (act := fun slot _ s => byeVehicle slot s) (r := ()) a rfl)

/-- The state as a vehicle's link has gone: from here on both triggers act alike (R99, R100). -/
theorem exec_lost {why : OfflineReason} (hv : tblGet s.vht.vehicles slot = some v)
    (h : (why = .bye ∧ (∃ b, reportWaits s 0x5F slot v [b]) ∧
        u = queueNotice (.vehicleState v.fleetId slot .lost (.offline .bye) v.hostStall v.faultStall v.lastFault)
          (reported slot { v with link := .offline .bye, silence := none } s)) ∨
      (why = .silent ∧ (∃ t, v.silence = some t ∧ t.expiry ≤ s.now ∧ t.start < t.expiry) ∧
        u = raiseIncident (vehicleIncident s .vehicleSilent v v.activeHandle none)
          (queueNotice (.vehicleState v.fleetId slot .lost (.offline .silent) v.hostStall v.faultStall v.lastFault)
            (withVehicle slot { v with link := .offline .silent, silence := none } s)))) :
    (why = .bye → exec .bye s = .next (loseVehicle slot u)) ∧
      (why = .silent → exec (.silenceTimerExpiry slot) s = .next (loseVehicle slot u)) ∧
      tblGet u.vht.vehicles slot = some { v with link := .offline why, silence := none } ∧ u.ort = s.ort ∧
      u.bac = s.bac ∧ u.now = s.now ∧ u.fcr.tOrphan = s.fcr.tOrphan := by
  obtain ⟨rfl, ⟨x, a⟩, rfl⟩ | ⟨rfl, ⟨l, hl, hdue, hstart⟩, rfl⟩ := h
  · have told := queueNotice_told
      (.vehicleState v.fleetId slot .lost (.offline .bye) v.hostStall v.faultStall v.lastFault)
      (reported slot { v with link := .offline .bye, silence := none } s)
    refine ⟨fun _ => (exec_bye_of_waits a).trans (congrArg _ ?_), fun e => absurd e (by decide), ?_, told.ort, told.bac,
      told.now, by rw [queueNotice_fcr]; rfl⟩
    · rw [byeVehicle, dropLink_eq (taken_get s slot v), taken, reported_eq, reported_eq, withVehicle_withVehicle]
      rfl
    · rw [told.vht]
      exact withVehicle_get_self _ _ _
  · have hget : tblGet (queueNotice
        (.vehicleState v.fleetId slot .lost (.offline .silent) v.hostStall v.faultStall v.lastFault)
        (withVehicle slot { v with link := .offline .silent, silence := none } s)).vht.vehicles slot =
          some { v with link := .offline .silent, silence := none } := by
      rw [(queueNotice_told _ _).vht]
      exact withVehicle_get_self _ _ _
    have due : silenceDue s slot = true := by
      simp [silenceDue, hv, hl, timerDue, Timer.due, hdue, hstart]
    have hact : activeHandleAt s slot = v.activeHandle := by simp only [activeHandleAt, hv]
    have hnow := (queueNotice_told (.vehicleState v.fleetId slot .lost (.offline .silent) v.hostStall v.faultStall v.lastFault)
      (withVehicle slot { v with link := .offline .silent, silence := none } s)).now
    have told := OnlyTold.trans
      (queueNotice_told (.vehicleState v.fleetId slot .lost (.offline .silent) v.hostStall v.faultStall v.lastFault)
        (withVehicle slot { v with link := .offline .silent, silence := none } s))
      (raiseIncident_told (vehicleIncident s .vehicleSilent v v.activeHandle none) _)
    refine ⟨fun e => absurd e (by decide), fun _ => (if_pos due).trans (congrArg _ ?_), ?_, told.ort, told.bac, told.now, ?_⟩
    · rw [silenceExpiry, dropLink_eq hv, raiseVehicle_of_get hget, hact, hnow]
      rfl
    · rw [(raiseIncident_told _ _).vht]
      exact hget
    · rw [(raiseIncident_steady _ _).framed.tOrphan, queueNotice_fcr]
      rfl

/-- Settles O46: the orders first, then the places, and then a reposition. -/
theorem lostVehiclesGiveUpTheirWork : Obligations.LostVehiclesGiveUpTheirWork := by
  intro s slot v why u hw hn hv hlink hu
  obtain ⟨hbye, hsilent, huv, huo, hub, hunow, hut⟩ := exec_lost hv hu
  have returned : StagedReturned slot v false u (loseStaged slot u) :=
    (loseStaged_returned huv).congr (funext fun j => by cases j <;> rfl) rfl
  have l1 := loseStaged_left slot u
  have l2 := loseActive_left slot (loseStaged slot u)
  obtain ⟨w1, hw1, hlink1, hlay1⟩ := l1.vehicle huv
  obtain ⟨w, hw2, hlink2, _⟩ := l2.vehicle hw1
  have hbac : (loseActive slot (loseStaged slot u)).bac = s.bac := l2.2.trans (l1.2.trans hub)
  have hn' : ∀ e ∈ (loseActive slot (loseStaged slot u)).bac.bays, (e.2.admitted.map (fun a => a.slot)).Nodup := by
    rw [hbac]
    exact hn
  obtain ⟨left, hq, hin, hkept⟩ := losePlaces_lost (slot := slot) hn'
  obtain ⟨only, hend, hothers⟩ := endReposition_ended (s := losePlaces slot (loseActive slot (loseStaged slot u)))
    (by rw [left.vht]; exact hw2)
  have hwf : tblWf (losePlaces slot (loseActive slot (loseStaged slot u))).bac.bays = true :=
    (losePlaces_steady slot _).bayWf (by rw [hbac]; exact hw)
  have htb : (endReposition slot (losePlaces slot (loseActive slot (loseStaged slot u)))).bac =
      (losePlaces slot (loseActive slot (loseStaged slot u))).bac := by rw [only.eq]
  have hnow : (losePlaces slot (loseActive slot (loseStaged slot u))).now = s.now :=
    left.now.trans ((loseActive_steady _ _).framed.now.trans ((loseStaged_steady _ _).framed.now.trans hunow))
  rw [hnow] at hend
  have eloss : loseVehicle slot u = endReposition slot (losePlaces slot (loseActive slot (loseStaged slot u))) := rfl
  rw [eloss] at hbye hsilent
  refine ⟨_, _, _, w, hbye, hsilent, returned, fun ha => ?_, fun i h o ha hother ho hloc => ?_, left.framed.trans only.framed,
    ?_, ?_, ?_, ?_, hw2, hend, hlink2.trans hlink1, fun k hk => ?_, ?_, ?_, ?_⟩
  · refine loseActive_of_none hw1 fun j g hj => ?_
    obtain he | he := hlay1 j
    · rw [he] at hj
      cases hj
    · rw [he] at hj
      exact ha j g (by cases j <;> exact hj)
  · have hwaits : otherLayerWaits u slot v i h := by
      rw [otherLayerWaits, huo]
      exact hother
    obtain ⟨y, hy, h5, h6, hyo, _, _, _, _, _, framed⟩ :=
      returned.active huv (funext fun j => by cases j <;> rfl) ha hwaits (by rw [huo]; exact ho)
    have hact := activeOrder_of_layer (x := (loseStaged slot u).ort) h5 (by simp [h6]) hyo
    refine ⟨fun hs => ?_, fun hs => ?_, fun hs => ?_, fun hs => ?_⟩
    · rw [loseActive_toSource hy hact hs]
      exact returnOrder_returned hyo (by simp [hs]) _
    · rw [loseActive_cancelling hy hact hs]
      exact endOrder_ended hyo (by decide) _
    · have step := suspendOrder_stepped (s := loseStaged slot u) hyo (by obtain hs | hs | hs := hs <;> simp [hs]) .lost
      have hrec : suspendedOrder (loseStaged slot u) .lost o = suspendedOrder s .lost o := by
        rw [suspendedOrder, suspendedOrder, timerFrom, timerFrom, framed.now, framed.tOrphan, hunow, hut]
      rw [hrec] at step
      rw [loseActive_carrier hy hact hs]
      exact step
    · rw [loseActive_suspended hy hact hs, updOrder_of_get hyo]
  · rw [only.eq, left.ort]
  · rw [only.eq, left.shm]
  · rw [only.eq, left.fcr]
  · rw [only.eq, left.notices]
  · rw [hothers k hk, left.vht]
  · exact notWaiting_of_get (by rw [htb]; exact hwf) (by rw [htb]; exact hq)
  · rw [htb]
    exact fun e he => hin e.1 e.2 (tblGet_of_mem hwf he)
  · rw [htb]
    exact fun b a ha hi => hkept b a (by rw [hbac]; exact ha) hi

end Loss

end Sys2Proof.Machine
end

section
/-! POS and ARRIVED (R97, R112, R121). -/
namespace Sys2Proof.Machine

open Sys2Proof

variable {s t u : State} {slot b zone coord : Nat} {v w : Vehicle} {y : BayState}

/-! ## The stored position (R97) -/

section Stored

/-- A vehicle's record with the position that a report gives, clamped to its zone. -/
def movedTo (s : State) (zone coord : Nat) (v : Vehicle) : Vehicle :=
  { v with position := ⟨zone, storedCoord s.lyt zone coord, s.now⟩ }

theorem clampIncident_of_get (hv : tblGet s.vht.vehicles slot = some v) :
    clampIncident slot zone coord s =
      if zoneLength s.lyt zone ≤ coord then raiseIncident (vehicleIncident s .positionClamped v none none) s else s := by
  rw [clampIncident, raiseVehicle_of_get hv]
  rfl

theorem clampIncident_told (slot zone coord : Nat) (s : State) : OnlyTold s (clampIncident slot zone coord s) := by
  unfold clampIncident
  split
  · exact raiseVehicle_told _ _ _ _ _ _
  · rfl

theorem vehicleIncident_congr {c : IncidentClass} {handle code : Option Nat} (h : t.now = s.now) :
    vehicleIncident t c v handle code = vehicleIncident s c v handle code := by
  rw [vehicleIncident, vehicleIncident, h]

theorem zoneValid_iff {l : Layout} : zoneValid l zone = true ↔ zone < l.bayCount ∨ zone = 255 := by
  simp [zoneValid]

theorem exec_pos_of_waits {z c0 c1 : Byte} (a : reportWaits s 0x52 slot v [z, c0, c1]) :
    exec .pos s = .next (reportPos slot ⟨u8 z, u16 c0 c1⟩ (taken s slot v)) :=
  congrArg Host.Outcome.next (takeReport_of_waits (form := decodePos) (act := reportPos) a rfl)

/-- A position is stored, and what follows is about the vehicle's places. -/
theorem reportPos_taken (hz : zone < s.lyt.bayCount ∨ zone = 255) :
    reportPos slot ⟨zone, coord⟩ (taken s slot v) =
      admitPos zone slot
        (if zoneLength s.lyt zone ≤ coord then
          raiseIncident (vehicleIncident s .positionClamped (movedTo s zone coord (heardVehicle s v)) none none)
            (reported slot (movedTo s zone coord (heardVehicle s v)) s)
        else reported slot (movedTo s zone coord (heardVehicle s v)) s) := by
  have e : updVehicle slot (movedTo s zone coord) (taken s slot v) =
      reported slot (movedTo s zone coord (heardVehicle s v)) s := by
    rw [updVehicle_of_get (taken_get s slot v), taken, reported_eq, reported_eq, withVehicle_withVehicle]
  have hpos : reportPos slot ⟨zone, coord⟩ (taken s slot v) =
      admitPos zone slot (clampIncident slot zone coord (updVehicle slot (movedTo s zone coord) (taken s slot v))) :=
    if_pos (zoneValid_iff (l := s.lyt).2 hz)
  have hget : tblGet (reported slot (movedTo s zone coord (heardVehicle s v)) s).vht.vehicles slot =
      some (movedTo s zone coord (heardVehicle s v)) := tblGet_set_self _ _ _
  rw [hpos, e, clampIncident_of_get hget]
  rfl

end Stored

/-! ## The places of a vehicle that reports its position (R121) -/

section Admission

theorem admitPos_inside {a : Admitted} (hz : zone ≠ 255) (hy : tblGet s.bac.bays zone = some y)
    (ha : y.entryOf slot = some a) (hi : a.inside = true) : admitPos zone slot s = s := by
  simp only [admitPos, if_neg hz, entryIn_of_get hy, ha, hi, if_true]

theorem admitPos_granted {a : Admitted} (hz : zone ≠ 255) (hy : tblGet s.bac.bays zone = some y)
    (ha : y.entryOf slot = some a) (hi : a.inside = false) : admitPos zone slot s = confirmInside zone slot s := by
  simp only [admitPos, if_neg hz, entryIn_of_get hy, ha, hi, if_false, Bool.false_eq_true]

theorem admitPos_absent (hz : zone ≠ 255) (hy : tblGet s.bac.bays zone = some y) (ha : y.entryOf slot = none) :
    admitPos zone slot s = intrude zone slot s := by
  simp only [admitPos, if_neg hz, entryIn_of_get hy, ha]

/-- Where a vehicle is admitted it waits in no queue, so a bay that it leaves does not grant to it again, and no bay
holds it once it has left them all. -/
theorem leaveBaysGranting_gone (hw : tblWf s.bac.bays = true)
    (h : ∀ e ∈ s.bac.bays, (∃ a ∈ e.2.admitted, a.slot = slot) → ∀ q ∈ e.2.queue, q.slot ≠ slot) (c : Nat) (z : BayState)
    (hz : tblGet (leaveBaysGranting (admittedBays s.bac slot) slot s).bac.bays c = some z) :
    ∀ a ∈ z.admitted, a.slot ≠ slot := by
  refine fun a ha hs => leaveBaysGranting_entries (P := fun _ => False) (fun d hd x hx => ?_) (fun d hd x hx a ha hs => ?_)
    c z hz a ha hs
  · obtain ⟨x', hx', he⟩ := mem_admittedBays.1 hd
    obtain rfl := Option.some.inj (hx.symm.trans (tblGet_of_mem hw hx'))
    exact h _ hx' he
  · exact hd (mem_admittedBays.2 ⟨x, tblGet_mem hx, a, ha, hs⟩)

theorem leaveQueues_gone_of {bs : List Nat}
    (h : ∀ c ∉ bs, ∀ y, tblGet s.bac.bays c = some y → ∀ w ∈ y.queue, w.slot ≠ slot) (c : Nat) (z : BayState)
    (hz : tblGet (leaveQueues bs slot s).bac.bays c = some z) : ∀ w ∈ z.queue, w.slot ≠ slot := by
  intro w hw
  obtain ⟨y, hy, _⟩ := (leaveQueues_left bs slot s).places c z hz
  obtain ⟨z', hz', _, _, _, _, _, hq⟩ := leaveQueues_get (bs := bs) (slot := slot) hy
  obtain rfl := Option.some.inj (hz.symm.trans hz')
  rw [hq] at hw
  split at hw
  · simpa using (List.mem_filter.1 hw).2
  · next hc => exact h c hc y hy w hw

/-- A queue of a bay in which a vehicle does not wait is what is left when it has gone. -/
theorem queue_without (hy : tblGet s.bac.bays b = some y) :
    (if b ∈ waitingBays s.bac slot then y.queue.filter (fun w => w.slot != slot) else y.queue) =
      y.queue.filter (fun w => w.slot != slot) := by
  split
  · rfl
  · next hb =>
    refine (List.filter_eq_self.2 fun w hw => ?_).symm
    simpa using fun hs => hb (mem_waitingBays.2 ⟨y, tblGet_mem hy, w, hw, hs⟩)

/-- An intrusion: the places elsewhere are given up, the queues are left, and the bay holds the vehicle INSIDE. -/
theorem intrude_intrudes (hw : tblWf s.bac.bays = true) (hv : tblGet s.vht.vehicles slot = some v)
    (hy : tblGet s.bac.bays b = some y) (hn : ∀ a ∈ y.admitted, a.slot ≠ slot)
    (h : ∀ e ∈ s.bac.bays, (∃ a ∈ e.2.admitted, a.slot = slot) → ∀ q ∈ e.2.queue, q.slot ≠ slot) :
    ∃ x, Framed s (intrude b slot s) ∧ (intrude b slot s).ort = s.ort ∧ (intrude b slot s).vht = s.vht ∧
      (intrude b slot s).shm = s.shm ∧
      (intrude b slot s).fcr = captureOffer s.fcr (vehicleIncident s .intrusion v none none) ∧
      notWaiting (intrude b slot s) slot ∧ tblGet (intrude b slot s).bac.bays b = some x ∧
      x.admitted = y.admitted ++ [{ slot := slot, inside := true, entryTime := s.now, lapse := none }] ∧
      x.queue = y.queue.filter (fun q => q.slot != slot) ∧
      ∀ e ∈ (intrude b slot s).bac.bays, e.1 ≠ b → ∀ a ∈ e.2.admitted, a.slot ≠ slot := by
  have out := leaveBaysGranting_left (admittedBays s.bac slot) slot s
  have outGone := leaveBaysGranting_gone hw h
  have hb : b ∉ admittedBays s.bac slot := fun x => by
    obtain ⟨x', hx', a, ha, hs⟩ := mem_admittedBays.1 x
    obtain rfl := Option.some.inj (hy.symm.trans (tblGet_of_mem hw hx'))
    exact hn a ha hs
  have hy1 := (leaveBaysGranting_others (slot := slot) (s := s) hb).trans hy
  have wf1 := (leaveBaysGranting_steady (admittedBays s.bac slot) slot s).bayWf hw
  unfold intrude
  generalize leaveBaysGranting (admittedBays s.bac slot) slot s = x1 at out outGone hy1 wf1 ⊢
  have left := leaveQueues_left (waitingBays s.bac slot) slot x1
  have queues := leaveQueues_gone_of (s := x1) (slot := slot) (bs := waitingBays s.bac slot) fun c hc z hz w hw hs => by
    obtain ⟨z0, hz0, from0⟩ := out.places c z hz
    exact hc (mem_waitingBays.2 ⟨z0, tblGet_mem hz0, w, from0.queue w hw, hs⟩)
  have kept : ∀ c z, tblGet (leaveQueues (waitingBays s.bac slot) slot x1).bac.bays c = some z →
      ∀ a ∈ z.admitted, a.slot ≠ slot := fun c z hz => by
    obtain ⟨z0, hz0, _⟩ := left.places c z hz
    obtain ⟨z', hz', hadm, _⟩ := leaveQueues_get (bs := waitingBays s.bac slot) (slot := slot) hz0
    obtain rfl := Option.some.inj (hz.symm.trans hz')
    rw [hadm]
    exact outGone c z0 hz0
  obtain ⟨y2, hy2, hadm, _, _, _, _, hq⟩ := leaveQueues_get (bs := waitingBays s.bac slot) (slot := slot) hy1
  rw [queue_without hy] at hq
  have wf2 := (leaveQueues_steady (waitingBays s.bac slot) slot x1).bayWf wf1
  generalize leaveQueues (waitingBays s.bac slot) slot x1 = x2 at left queues kept hy2 wf2 ⊢
  have all := out.trans left
  have e : enterInside b slot x2 = withBay b _ x2 := updBay_of_get hy2
  have hv3 : tblGet (enterInside b slot x2).vht.vehicles slot = some v := by
    rw [e]
    exact (congrArg (tblGet ·.vehicles slot) all.vht).trans hv
  have hraise : raiseVehicle .intrusion slot none none none (enterInside b slot x2) =
      raiseIncident (vehicleIncident s .intrusion v none none) (enterInside b slot x2) := by
    rw [raiseVehicle_of_get hv3, (enterInside_steady b slot x2).framed.now, all.now]
    rfl
  have told := raiseIncident_told (vehicleIncident s .intrusion v none none) (enterInside b slot x2)
  have framed := (raiseIncident_steady (vehicleIncident s .intrusion v none none) (enterInside b slot x2)).framed
  obtain ⟨y3, hy3, hadm3, hq3⟩ : ∃ y3, tblGet (enterInside b slot x2).bac.bays b = some y3 ∧
      y3.admitted = y2.admitted ++ [{ slot := slot, inside := true, entryTime := x2.now, lapse := none }] ∧
      y3.queue = y2.queue := by
    have hy3 := (congrArg (fun z => tblGet z.bac.bays b) e).trans (withBay_get_self _ _)
    exact ⟨_, hy3, rfl, rfl⟩
  have others : otherBaysKept b x2 (enterInside b slot x2) := by
    rw [e]
    exact withBay_others _ _
  have wf3 := (enterInside_steady b slot x2).bayWf wf2
  rw [hraise]
  refine ⟨y3, all.framed.trans ((enterInside_steady b slot x2).framed.trans framed), ?_, ?_, ?_, ?_, ?_,
    (congrArg (tblGet ·.bays b) told.bac).trans hy3, ?_, hq3.trans hq, fun e he hne => ?_⟩
  · rw [told.ort, e]
    exact all.ort
  · rw [told.vht, e]
    exact all.vht
  · rw [told.shm, e]
    exact all.shm
  · rw [raiseIncident_fcr, e]
    exact congrArg (captureOffer · _) all.fcr
  · refine notWaiting_of_get (by rw [told.bac]; exact wf3) fun c z hz => ?_
    rw [told.bac] at hz
    by_cases hc : c = b
    · subst hc
      obtain rfl := Option.some.inj (hy3.symm.trans hz)
      rw [hq3]
      exact queues c y2 hy2
    · exact queues c z ((others c hc).symm.trans hz)
  · rw [hadm3, hadm, all.now]
  · have hz := tblGet_of_mem wf3 (told.bac ▸ he)
    exact kept e.1 e.2 ((others e.1 hne).symm.trans hz)

end Admission

/-- Settles O39, by the entry that the vehicle has in the bay it reports. -/
theorem positionsMoveTheVehicle : Obligations.PositionsMoveTheVehicle := by
  refine ⟨fun s slot v z c0 c1 a => ⟨fun hz => ?dropped, fun hz => ⟨_, _, rfl, rfl, ?_⟩⟩, fun s slot v b a => ?arrived⟩
  case dropped =>
    rw [exec_pos_of_waits a]
    exact congrArg _ (if_neg fun x => hz (zoneValid_iff.1 x))
  case arrived =>
    refine (congrArg Host.Outcome.next (takeReport_of_waits (form := decodeFiller)
      (act := fun slot _ s => endReposition slot s) (r := ()) a rfl)).trans ?_
    exact congrArg _ (endReposition_withVehicle slot (heardVehicle s v) (popFleet s))
  have e := (exec_pos_of_waits a).trans (congrArg _ (reportPos_taken (slot := slot) (coord := u16 c0 c1) (v := v) hz))
  rw [e]
  generalize hw : movedTo s (u8 z) (u16 c0 c1) (heardVehicle s v) = w
  have told : OnlyTold (reported slot w s)
      (if zoneLength s.lyt (u8 z) ≤ u16 c0 c1 then
        raiseIncident (vehicleIncident s .positionClamped w none none) (reported slot w s)
      else reported slot w s) := by
    split
    · exact raiseIncident_told _ _
    · rfl
  subst hw
  refine ⟨fun hi => congrArg _ (if_pos hi), fun y a hi hy ha hin => congrArg _ ?inside, fun y a hi hy ha hin => ?granted,
    fun y hi hwf hy hn h => ?intrudes⟩
  case inside => exact admitPos_inside hi ((congrArg (tblGet ·.bays _) told.bac).trans hy) ha hin
  case granted =>
    have hy' := (congrArg (tblGet ·.bays (u8 z)) told.bac).trans hy
    exact ⟨_, congrArg _ ((admitPos_granted hi hy' ha hin).trans (updBay_of_get hy')), rfl, rfl, rfl, rfl, rfl, rfl⟩
  case intrudes =>
    have hy' := (congrArg (tblGet ·.bays (u8 z)) told.bac).trans hy
    have hv := (congrArg (tblGet ·.vehicles slot) told.vht).trans (tblGet_set_self _ _ _)
    obtain ⟨x, framed, hort, hvht, hshm, hfcr, hwait, hx, hadm, hq, hothers⟩ := intrude_intrudes
      (by rw [told.bac]; exact hwf) hv hy' hn (by rw [told.bac]; exact h)
    rw [admitPos_absent hi hy' (entryOf_eq_none_iff.2 hn)]
    refine ⟨_, x, rfl, framed, hort, hvht, hshm, hfcr.trans (congrArg _ (vehicleIncident_congr told.now)), hwait, hx,
      hadm.trans ?_, hq, hothers⟩
    rw [told.now]
    rfl

end Sys2Proof.Machine
end

section
/-! What the steps on bays read of a state: the bays, engine time, the pin, the fleet ids and the commands that wait. -/
namespace Sys2Proof.Machine

open Sys2Proof

variable {s t u x : State} {slot b : Nat} {y : BayState}

/-- The bays, the examination-pending flag and the waiting commands of `s`, and all else as it stands in `x`. -/
def baysOf (x s : State) : State :=
  { x with bac := s.bac, asa := s.asa, liu := { x.liu with fleetOut := s.liu.fleetOut } }

/-- What a step on bays reads beside them is the same in `x` and `s`. -/
structure SeenAlike (x s : State) : Prop where
  now : x.now = s.now
  gwrdy : x.gwrdy = s.gwrdy
  ids : ∀ k, fleetIdAt x.vht k = fleetIdAt s.vht k

/-- A step that acts on bays alone, whatever else the state holds. -/
structure BayStep (f : State → State) : Prop where
  kept : ∀ s, (f s).now = s.now ∧ (f s).gwrdy = s.gwrdy ∧ (f s).vht = s.vht
  apart : ∀ x s, SeenAlike x s → f (baysOf x s) = baysOf x (f s)

theorem BayStep.seen {f : State → State} (hf : BayStep f) (h : SeenAlike x s) : SeenAlike x (f s) where
  now := h.now.trans (hf.kept s).1.symm
  gwrdy := h.gwrdy.trans (hf.kept s).2.1.symm
  ids k := (h.ids k).trans (congrArg (fleetIdAt · k) (hf.kept s).2.2.symm)

theorem BayStep.comp {f g : State → State} (hg : BayStep g) (hf : BayStep f) : BayStep (fun s => g (f s)) where
  kept s := ⟨(hg.kept _).1.trans (hf.kept s).1, (hg.kept _).2.1.trans (hf.kept s).2.1,
    (hg.kept _).2.2.trans (hf.kept s).2.2⟩
  apart x s h := by rw [hf.apart x s h, hg.apart x (f s) (hf.seen h)]

theorem BayStep.id : BayStep (fun s => s) := ⟨fun _ => ⟨rfl, rfl, rfl⟩, fun _ _ _ => rfl⟩

/-- A state is the bays of another in which they are the same. -/
theorem baysOf_eq (hb : x.bac = s.bac) (ha : x.asa = s.asa) (hc : x.liu.fleetOut = s.liu.fleetOut) : baysOf x s = x := by
  rw [baysOf, ← hb, ← ha, ← hc]

theorem issueTo_bayStep (slot : Nat) (c : CommandBody) : BayStep (issueTo slot c) where
  kept s := ⟨(issueTo_sendsOnly slot c).now s, (issueTo_sendsOnly slot c).gwrdy s, (issueTo_sendsOnly slot c).vht s⟩
  apart x s h := by
    have hid : fleetIdAt (baysOf x s).vht slot = fleetIdAt s.vht slot := h.ids slot
    unfold issueTo
    rw [hid]
    split
    · next f hf =>
      have room : ((baysOf x s).gwrdy && decide ((baysOf x s).liu.fleetOut.length < 32)) =
          (s.gwrdy && decide (s.liu.fleetOut.length < 32)) := congrArg (· && _) h.gwrdy
      by_cases hc : (s.gwrdy && decide (s.liu.fleetOut.length < 32)) = true
      · have e : issue f c s = _ := if_pos hc
        rw [e]
        exact if_pos (room.trans hc)
      · have e : issue f c s = s := if_neg hc
        rw [e]
        exact if_neg fun k => hc (room.symm.trans k)
    · rfl

theorem updBay_bayStep (b : Nat) (f : BayState → BayState) : BayStep (updBay b f) where
  kept s := by
    unfold updBay
    split <;> exact ⟨rfl, rfl, rfl⟩
  apart x s h := by
    cases hy : tblGet s.bac.bays b with
    | none => rw [updBay_of_free hy, updBay_of_free (s := baysOf x s) hy]
    | some y =>
      rw [updBay_of_get hy, updBay_of_get (s := baysOf x s) hy]
      have hn : (baysOf x s).now = s.now := h.now
      rw [hn]
      rfl

theorem leaveBay_bayStep (b slot : Nat) : BayStep (leaveBay b slot) where
  kept s := ⟨(leaveBay_left b slot s).now, (leaveBay_left b slot s).gwrdy, (leaveBay_left b slot s).vht⟩
  apart x s h := by
    have he : entryIn (baysOf x s).bac b slot = entryIn s.bac b slot := rfl
    unfold leaveBay
    rw [he]
    split
    · rw [(updBay_bayStep b _).apart x s h]
      rfl
    · rfl

theorem leaveQueue_bayStep (b slot : Nat) : BayStep (leaveQueue b slot) := updBay_bayStep b _

theorem enterInside_bayStep (b slot : Nat) : BayStep (enterInside b slot) where
  kept s := (updBay_bayStep b _).kept s
  apart x s h := by
    have hn : (baysOf x s).now = s.now := h.now
    rw [enterInside, hn, (updBay_bayStep b _).apart x s h]
    rfl

theorem grantEntry_bayStep (b slot : Nat) : BayStep (grantEntry b slot) where
  kept s := ((issueTo_bayStep slot _).comp (updBay_bayStep b _)).kept s
  apart x s h := by
    have hn : (baysOf x s).now = s.now := h.now
    have step := (issueTo_bayStep slot (.entryGrant b)).comp (updBay_bayStep b
      (fun y => { y with admitted := y.admitted ++ [⟨slot, false, s.now, some (startTimer s.now s.bac.tGrant)⟩] }))
    rw [grantEntry, hn]
    exact step.apart x s h

theorem grantHead_bayStep (b : Nat) : BayStep (grantHead b) where
  kept s := by
    unfold grantHead
    split
    · split
      · split
        · exact ((grantEntry_bayStep b _).comp (updBay_bayStep b _)).kept s
        · exact ⟨rfl, rfl, rfl⟩
      · exact ⟨rfl, rfl, rfl⟩
    · exact ⟨rfl, rfl, rfl⟩
  apart x s h := by
    have hb : tblGet (baysOf x s).bac.bays b = tblGet s.bac.bays b := rfl
    unfold grantHead
    rw [hb]
    split
    · split
      · split
        · exact ((grantEntry_bayStep b _).comp (updBay_bayStep b _)).apart x s h
        · rfl
      · rfl
    · rfl

theorem grantHeads_bayStep (n b : Nat) : BayStep (grantHeads n b) := by
  induction n with
  | zero => exact .id
  | succ n ih => exact ih.comp (grantHead_bayStep b)

theorem grantQueue_bayStep (b : Nat) : BayStep (grantQueue b) where
  kept s := ⟨(grantQueue_left b s).now, (grantQueue_left b s).gwrdy, (grantQueue_left b s).vht⟩
  apart x s h := by
    have hb : tblGet (baysOf x s).bac.bays b = tblGet s.bac.bays b := rfl
    unfold grantQueue
    rw [hb]
    split
    · exact (grantHeads_bayStep _ b).apart x s h
    · rfl

theorem leaveBaysGranting_bayStep (bs : List Nat) (slot : Nat) : BayStep (leaveBaysGranting bs slot) := by
  induction bs with
  | nil => exact .id
  | cons b bs ih => exact ih.comp ((grantQueue_bayStep b).comp (leaveBay_bayStep b slot))

theorem leaveQueues_bayStep (bs : List Nat) (slot : Nat) : BayStep (leaveQueues bs slot) := by
  induction bs with
  | nil => exact .id
  | cons b bs ih => exact ih.comp (leaveQueue_bayStep b slot)

end Sys2Proof.Machine
end

section
/-! HELLO from a vehicle that is not in the map, and what is told and placed as any vehicle enrolls (R93, R94, R124). -/
namespace Sys2Proof.Machine

open Sys2Proof

variable {s t u x e : State} {slot f zone coord b : Nat} {v w : Vehicle} {y : BayState} {r : HelloRep}

/-! ## What is told -/

section Told

theorem toldAs.refl (s : State) : toldAs s s := ⟨rfl, rfl, rfl⟩

theorem toldAs.trans (h : toldAs s t) (k : toldAs t u) : toldAs s u :=
  ⟨h.1.trans k.1, h.2.1.trans k.2.1, h.2.2.trans k.2.2⟩

theorem toldAs.queueNotice (h : toldAs s t) (n : Notice) : toldAs (queueNotice n s) (queueNotice n t) := by
  obtain ⟨hn, hg, hf⟩ := h
  refine ⟨?_, ?_, by simpa using hf⟩ <;>
    (unfold Machine.queueNotice; rw [hn]; split <;> simp [hn, hg])

theorem toldAs.raiseIncident (h : toldAs s t) (i : Incident) : toldAs (raiseIncident i s) (raiseIncident i t) := by
  obtain ⟨hn, hg, hf⟩ := h
  have offered : toldAs { s with fcr := captureOffer s.fcr i } { t with fcr := captureOffer t.fcr i } :=
    ⟨hn, hg, congrArg (captureOffer · i) hf⟩
  unfold Machine.raiseIncident routeNotice
  simp only [hf] at offered ⊢
  split
  · exact offered
  · exact offered.queueNotice _

/-- Nothing on the lines has changed but the notices. -/
def LinesTold (s t : State) : Prop := t.liu = { s.liu with notices := t.liu.notices, gapMark := t.liu.gapMark }

theorem LinesTold.trans (h : LinesTold s t) (k : LinesTold t u) : LinesTold s u := by
  unfold LinesTold at *
  rw [k, h]

theorem LinesTold.of_eq (h : t.liu = s.liu) : LinesTold s t := by
  rw [LinesTold, h]

theorem queueNotice_linesTold (n : Notice) (s : State) : LinesTold s (queueNotice n s) :=
  congrArg State.liu (queueNotice_eq n s)

theorem raiseIncident_linesTold (i : Incident) (s : State) : LinesTold s (raiseIncident i s) := by
  unfold raiseIncident routeNotice
  split
  · exact .of_eq rfl
  · exact queueNotice_linesTold _ _

theorem LinesTold.fleetOut (h : LinesTold s t) : t.liu.fleetOut = s.liu.fleetOut := by
  rw [h]

/-- What was told decides all of the lines where nothing else on them has changed. -/
theorem toldAs.lines (h : toldAs t u) (ht : LinesTold s t) (hu : LinesTold s u) : t.liu = u.liu := by
  rw [ht, hu, h.1, h.2.1]

theorem clampIncident_linesTold (slot zone coord : Nat) (s : State) : LinesTold s (clampIncident slot zone coord s) := by
  unfold clampIncident raiseVehicle
  split
  · split
    · exact raiseIncident_linesTold _ _
    · exact .of_eq rfl
  · exact .of_eq rfl

theorem clampIncident_framed (slot zone coord : Nat) (s : State) : Framed s (clampIncident slot zone coord s) := by
  unfold clampIncident
  split
  · exact (raiseVehicle_steady _ _ _ _ _ s).framed
  · exact .refl s

theorem stallSet_linesTold (slot : Nat) (c : FaultClass) (k : FaultCode) (v : Vehicle) (s : State) :
    LinesTold s (stallSet slot c k v s) := by
  have e : (setExamIf (decide (v.target ≠ none ∧ v.layer0 = .empty ∧ v.layer1 = .empty))
      (withVehicle slot (faultStalled s.now c k v) s)).liu = s.liu := by
    rw [setExamIf_liu]
    rfl
  unfold stallSet
  split
  · exact .of_eq e
  · exact LinesTold.trans (.of_eq e) (queueNotice_linesTold _ _)

theorem toldAs.stallSet (h : toldAs s t) (slot : Nat) (c : FaultClass) (k : FaultCode) (v : Vehicle) :
    toldAs (stallSet slot c k v s) (stallSet slot c k v t) := by
  have base (a : Bool) (x y : Vehicle) : toldAs (setExamIf a (withVehicle slot x s)) (setExamIf a (withVehicle slot y t)) := by
    cases a <;> exact h
  unfold Machine.stallSet
  split
  · exact base _ _ _
  · exact (base _ _ _).queueNotice _

/-- A stray load told on top of what was told before (R104). -/
theorem toldAs.strayTold (h : toldAs s t) (hn : s.now = t.now) (slot : Nat) (v : Vehicle) :
    toldAs (strayTold slot v s) (strayTold slot v t) := by
  unfold Machine.strayTold
  rw [vehicleIncident_congr hn]
  exact (h.stallSet slot _ _ v).raiseIncident _

/-- The stray load of a vehicle with a record (R104). -/
theorem strayLoad_of_get (hv : tblGet s.vht.vehicles slot = some v) : strayLoad slot s = strayTold slot v s := by
  obtain ⟨hget, _, _, _, _, _, framed⟩ := stallSet_kept slot .fatal .strayLoad v s
  obtain ⟨h1, _, h3, _⟩ := faultStalled_kept .fatal .strayLoad v s.now
  rw [strayLoad, setFaultStall_eq hv, raiseVehicle_of_get hget, h1, h3, framed.now]
  rfl

end Told

/-! ## The place of a vehicle that enrolls (R124) -/

section Enrolled

theorem admitEnrolled_bayStep (zone slot : Nat) : BayStep (admitEnrolled zone slot) where
  kept s := by
    unfold admitEnrolled
    split
    · exact (leaveBaysGranting_bayStep _ slot).kept s
    · split
      · exact ⟨rfl, rfl, rfl⟩
      · exact ((enterInside_bayStep zone slot).comp (leaveBaysGranting_bayStep _ slot)).kept s
  apart x s h := by
    have hb : (baysOf x s).bac = s.bac := rfl
    unfold admitEnrolled
    rw [hb]
    split
    · exact (leaveBaysGranting_bayStep _ slot).apart x s h
    · split
      · rfl
      · exact ((enterInside_bayStep zone slot).comp (leaveBaysGranting_bayStep _ slot)).apart x s h

/-- Between the states only bays, waiting commands and the examination-pending flag differ. -/
theorem admitEnrolled_only (zone slot : Nat) (s : State) :
    admitEnrolled zone slot s =
      { s with
        liu := { s.liu with fleetOut := (admitEnrolled zone slot s).liu.fleetOut }
        bac := (admitEnrolled zone slot s).bac, asa := (admitEnrolled zone slot s).asa } := by
  have h : s = baysOf s s := rfl
  have e := (admitEnrolled_bayStep zone slot).apart s s ⟨rfl, rfl, fun _ => rfl⟩
  exact e

theorem admitEnrolled_framed (zone slot : Nat) (s : State) : Framed s (admitEnrolled zone slot s) := by
  unfold admitEnrolled
  split
  · exact (leaveBaysGranting_steady _ slot s).framed
  · split
    · exact .refl s
    · exact (leaveBaysGranting_steady _ slot s).framed.trans (enterInside_steady zone slot _).framed

theorem enterInside_fleetOut (b slot : Nat) (s : State) : (enterInside b slot s).liu.fleetOut = s.liu.fleetOut := by
  unfold enterInside updBay
  split <;> rfl

/-- The yield timer of a bay which a vehicle joins INSIDE (R125). -/
theorem yieldAfter_entered (a : Admitted) (y : BayState) :
    yieldAfter s.now s.bac.tYield y { y with admitted := y.admitted ++ [a] } =
      if y.isOpen = true ∧ y.capacity ≤ y.admitted.length + 1 ∧ y.queue ≠ [] then
        if y.capacity ≤ y.admitted.length then y.yield else some (timerFrom s s.bac.tYield)
      else none := by
  have hnew : ({ y with admitted := y.admitted ++ [a] } : BayState).pressed = true ↔
      y.isOpen = true ∧ y.capacity ≤ y.admitted.length + 1 ∧ y.queue ≠ [] := by
    simp [BayState.pressed, and_assoc]
  unfold yieldAfter
  by_cases h : y.isOpen = true ∧ y.capacity ≤ y.admitted.length + 1 ∧ y.queue ≠ []
  · have hold : (y.pressed && decide (y.headSlot = ({ y with admitted := y.admitted ++ [a] } : BayState).headSlot)) = true ↔
        y.capacity ≤ y.admitted.length := by
      simp [BayState.pressed, BayState.headSlot, h.1, h.2.2]
    rw [if_pos (hnew.2 h), if_pos h]
    by_cases hc : y.capacity ≤ y.admitted.length
    · rw [if_pos (hold.2 hc), if_pos hc]
    · rw [if_neg (mt hold.1 hc), if_neg hc]
      rfl
  · rw [if_neg (mt hnew.1 h), if_neg h]

/-- An entry made now in a bay that the vehicle reports. -/
theorem enterInside_joined (hz : zone ≠ 255) : JoinedInside slot zone s (enterInside zone slot s) := by
  refine ⟨fun h => absurd h hz, fun y _ hy => ?_⟩
  rw [enterInside, updBay_of_get hy, withBay, yieldAfter_entered]

/-- A vehicle placed as it enrolls takes the place that R124 gives it. -/
theorem admitEnrolled_placed (zone slot : Nat) (s : State) : HelloPlaced slot zone s (admitEnrolled zone slot s) := by
  refine ⟨fun a hz ha hi => ?kept, fun hn => ?joined, fun b y hb hw hy ha hn => ?moved⟩
  case kept =>
    have hin : isInside s.bac zone slot = true := by simp only [isInside, ha, hi]
    simp only [admitEnrolled, if_neg hz, hin, if_true, and_self]
  case joined =>
    have hno : isInside s.bac zone slot = false := by
      have he : entryIn s.bac zone slot = none := entryIn_eq_none_iff.2 fun y hy => hn _ (tblGet_mem hy)
      simp only [isInside, he]
    rw [admitEnrolled, admittedBays_of_none hn, hno]
    by_cases hz : zone = 255
    · rw [if_pos hz]
      exact ⟨⟨fun _ => rfl, fun _ h => absurd hz h⟩, rfl⟩
    · rw [if_neg hz]
      exact ⟨enterInside_joined hz, enterInside_fleetOut _ _ _⟩
  case moved =>
    have hno : isInside s.bac zone slot = false := by
      have he : entryIn s.bac zone slot = none := entryIn_eq_none_iff.2 fun z hz =>
        hn _ (tblGet_mem hz) (Ne.symm hb)
      simp only [isInside, he]
    obtain ⟨a, hentry⟩ := entryIn_of_mem hy ha
    refine ⟨grantQueue b (leaveBay b slot s), ?_, ?_⟩
    · exact placeGivenUp_of_granted .id hy hentry
    · rw [admitEnrolled, admittedBays_of_one hw hy ha hn, hno]
      by_cases hz : zone = 255
      · rw [if_pos hz]
        exact ⟨⟨fun _ => rfl, fun _ h => absurd hz h⟩, rfl⟩
      · rw [if_neg hz]
        exact ⟨enterInside_joined hz, enterInside_fleetOut _ _ _⟩

/-- What a vehicle's place is concerns the bays and the waiting commands alone. -/
theorem JoinedInside.congr (h : JoinedInside slot zone s t) (hb : u.bac = t.bac) : JoinedInside slot zone s u :=
  ⟨fun hz => hb.trans (h.1 hz), fun y hz hy => hb.trans (h.2 y hz hy)⟩

theorem HelloPlaced.congr (h : HelloPlaced slot zone s t) (hb : u.bac = t.bac) (hc : u.liu.fleetOut = t.liu.fleetOut) :
    HelloPlaced slot zone s u := by
  refine ⟨fun a hz ha hi => ?_, fun hn => ?_, fun b y hne hw hy ha hn => ?_⟩
  · obtain ⟨h1, h2⟩ := h.kept a hz ha hi
    exact ⟨hb.trans h1, hc.trans h2⟩
  · obtain ⟨h1, h2⟩ := h.joined hn
    exact ⟨h1.congr hb, hc.trans h2⟩
  · obtain ⟨x, hx, h1, h2⟩ := h.moved b y hne hw hy ha hn
    exact ⟨x, hx, h1.congr hb, hc.trans h2⟩

/-- The state once the record of a vehicle is `w`, its place is taken, and its HELLO is told (R94, R95). -/
def entered (slot : Nat) (r : HelloRep) (w : Vehicle) (s : State) : State :=
  vehicleNotice slot .enrolled (admitEnrolled r.zone slot (clampIncident slot r.zone r.coord (withVehicle slot w s)))

theorem entered_kept (slot : Nat) (r : HelloRep) (w : Vehicle) (s : State) :
    Framed s (entered slot r w s) ∧ (entered slot r w s).ort = s.ort ∧ (entered slot r w s).shm = s.shm ∧
      (entered slot r w s).vht = (withVehicle slot w s).vht ∧ toldAs (entered slot r w s) (helloTold slot r w s) ∧
      ∃ x, OnlyTold (withVehicle slot w s) x ∧ LinesTold s x ∧ (entered slot r w s).bac = (admitEnrolled r.zone slot x).bac ∧
        LinesTold (admitEnrolled r.zone slot x) (entered slot r w s) := by
  have told := clampIncident_told slot r.zone r.coord (withVehicle slot w s)
  have lines := clampIncident_linesTold slot r.zone r.coord (withVehicle slot w s)
  have telling : toldAs (clampIncident slot r.zone r.coord (withVehicle slot w s))
      (if zoneLength s.lyt r.zone ≤ r.coord then raiseIncident (vehicleIncident s .positionClamped w none none) s else s) := by
    have e := clampIncident_of_get (zone := r.zone) (coord := r.coord) (withVehicle_get_self slot w s)
    have base : toldAs (withVehicle slot w s) s := ⟨rfl, rfl, rfl⟩
    by_cases hc : zoneLength s.lyt r.zone ≤ r.coord
    · rw [if_pos hc, e.trans (if_pos hc)]
      exact base.raiseIncident _
    · rw [if_neg hc, e.trans (if_neg hc)]
      exact base
  have steady := clampIncident_framed slot r.zone r.coord (withVehicle slot w s)
  unfold entered
  generalize clampIncident slot r.zone r.coord (withVehicle slot w s) = x at told lines telling steady ⊢
  have only := admitEnrolled_only r.zone slot x
  have framed := admitEnrolled_framed r.zone slot x
  have hvht : (admitEnrolled r.zone slot x).vht = (withVehicle slot w s).vht := by rw [only, told.vht]
  have hget : tblGet (admitEnrolled r.zone slot x).vht.vehicles slot = some w := by
    rw [hvht]
    exact withVehicle_get_self _ _ _
  have same : toldAs (admitEnrolled r.zone slot x) x := by
    rw [only]
    exact ⟨rfl, rfl, rfl⟩
  rw [vehicleNotice_of_get hget]
  have notice := queueNotice_told
    (.vehicleState w.fleetId slot .enrolled w.link w.hostStall w.faultStall w.lastFault) (admitEnrolled r.zone slot x)
  refine ⟨(withVehicle_framed slot w s).trans (steady.trans (framed.trans (queueNotice_steady _ _).framed)), ?_, ?_,
    notice.vht.trans hvht, (same.trans telling).queueNotice _, x, told, lines, notice.bac, queueNotice_linesTold _ _⟩
  · rw [notice.ort, only, told.ort]
    rfl
  · rw [notice.shm, only, told.shm]
    rfl

end Enrolled

/-! ## HELLO by the cases of R93 -/

section Hello

theorem exec_hello_of_waits (a : helloWaits s f r) : exec .hello s = .next (reportHello f r (heard s)) := by
  obtain ⟨_, k, f0, f1, payload, rest, hq, hk, hf, hd⟩ := a
  refine congrArg Host.Outcome.next ?_
  simp [takeFleet, hq, bodyKind, bodyPayload, bodyTag, hk, hf, hd, heard, popFleet]

theorem reportHello_known (hr : s.lyt.opState = .running) (h0 : 0 < f) (h1 : f < 65535)
    (hz : r.zone < s.lyt.bayCount ∨ r.zone = 255) (hs : slotOf s.vht f = some slot) :
    reportHello f r s = helloKnown slot r s := by
  simp only [reportHello, fleetIdValid_iff.2 ⟨h0, h1⟩, hr, zoneValid_iff.2 hz, if_true, hs]

theorem reportHello_unknown (hr : s.lyt.opState = .running) (h0 : 0 < f) (h1 : f < 65535)
    (hz : r.zone < s.lyt.bayCount ∨ r.zone = 255) (hs : slotOf s.vht f = none) :
    reportHello f r s = helloUnknown f r s := by
  simp only [reportHello, fleetIdValid_iff.2 ⟨h0, h1⟩, hr, zoneValid_iff.2 hz, if_true, hs]

theorem tblFree_of_full {β : Type} {n : Nat} {t : Tbl β} (h : ∀ k, k < n → tblGet t k ≠ none) : tblFree n t = none := by
  refine List.find?_eq_none.2 fun k hk => ?_
  have := h k (List.mem_range.1 hk)
  cases hg : tblGet t k <;> simp_all [tblHas]

theorem tblFree_of_lowest {β : Type} {n k : Nat} {t : Tbl β} (hk : k < n) (hf : tblGet t k = none)
    (hl : ∀ j, j < k → tblGet t j ≠ none) : tblFree n t = some k := by
  refine List.find?_range_eq_some.2 ⟨by simp [tblHas, hf], List.mem_range.2 hk, fun j hj => ?_⟩
  have := hl j hj
  cases hg : tblGet t j <;> simp_all [tblHas]

/-- A vehicle enrolled with no place elsewhere joins the bay it reports, and no command is sent for it. -/
theorem entered_joined (hn : notAdmitted s slot) (w : Vehicle) :
    JoinedInside slot r.zone s (entered slot r w s) ∧ LinesTold s (entered slot r w s) := by
  obtain ⟨_, _, _, _, _, x, told, lines, hbac, last⟩ := entered_kept slot r w s
  have hx : notAdmitted x slot := by
    unfold notAdmitted
    rw [told.bac]
    exact hn
  obtain ⟨joined, hout⟩ := (admitEnrolled_placed r.zone slot x).joined hx
  have hlines : LinesTold x (admitEnrolled r.zone slot x) := by
    refine .of_eq ?_
    rw [admitEnrolled_only, hout]
  refine ⟨JoinedInside.congr ?_ hbac, lines.trans (hlines.trans last)⟩
  unfold JoinedInside timerFrom at joined ⊢
  rw [told.bac, told.now] at joined
  exact joined

/-- The lines and the capture after what a HELLO told. -/
theorem helloTold_linesTold (slot : Nat) (r : HelloRep) (w : Vehicle) (s : State) : LinesTold s (helloTold slot r w s) := by
  refine LinesTold.trans ?_ (queueNotice_linesTold _ _)
  split
  · exact raiseIncident_linesTold _ _
  · exact .of_eq rfl

theorem helloTold_now (slot : Nat) (r : HelloRep) (w : Vehicle) (s : State) : (helloTold slot r w s).now = s.now := by
  refine ((queueNotice_steady _ _).framed.now).trans ?_
  split
  · exact (raiseIncident_steady _ _).framed.now
  · rfl

/-- What a stray load changes beside the record of its vehicle: what is told. -/
theorem strayTold_kept (slot : Nat) (w : Vehicle) (s : State) :
    tblGet (strayTold slot w s).vht.vehicles slot = some (faultStalled s.now .fatal .strayLoad w) ∧
      otherVehiclesKept slot s (strayTold slot w s) ∧ (strayTold slot w s).ort = s.ort ∧
      (strayTold slot w s).bac = s.bac ∧ (strayTold slot w s).shm = s.shm ∧ LinesTold s (strayTold slot w s) ∧
      Framed s (strayTold slot w s) := by
  obtain ⟨hget, hothers, hort, hbac, hshm, _, framed⟩ := stallSet_kept slot .fatal .strayLoad w s
  have told := raiseIncident_told (vehicleIncident s .strayLoad w none none) (stallSet slot .fatal .strayLoad w s)
  unfold strayTold
  refine ⟨by rw [told.vht]; exact hget, fun k hk => by rw [told.vht]; exact hothers k hk, told.ort.trans hort,
    told.bac.trans hbac, told.shm.trans hshm, (stallSet_linesTold _ _ _ _ _).trans (raiseIncident_linesTold _ _),
    framed.trans (raiseIncident_steady _ _).framed⟩

theorem reportHello_noZone (hr : s.lyt.opState = .running) (h0 : 0 < f) (h1 : f < 65535)
    (hz : ¬(r.zone < s.lyt.bayCount ∨ r.zone = 255)) : reportHello f r s = badPosition f s := by
  simp only [reportHello, fleetIdValid_iff.2 ⟨h0, h1⟩, hr, mt zoneValid_iff.1 hz, if_true, if_false, Bool.false_eq_true]

/-- Settles O37, by the cases of R93 in their order. -/
theorem helloEnrollsAnUnknownVehicle : Obligations.HelloEnrollsAnUnknownVehicle := by
  intro s f r a
  have e := exec_hello_of_waits a
  have hr : (heard s).lyt.opState = .running := a.1
  refine ⟨fun hf => ?dropped, fun h0 h1 hz => ⟨fun hs => ?unknownZone, fun slot v hs hv => ?knownZone⟩,
    fun h0 h1 hz hs hfull => ?full, fun slot h0 h1 hz hs hslot hfree hlow hn hbay => ?enrolls⟩
  case dropped =>
    rw [e, reportHello, if_neg fun x => ?_]
    obtain ⟨x0, x1⟩ := fleetIdValid_iff.1 x
    omega
  case unknownZone =>
    rw [e, reportHello_noZone hr h0 h1 hz, badPosition]
    have hs' : slotOf (heard s).vht f = none := hs
    simp only [fromVehicle, hs']
  case knownZone =>
    rw [e, reportHello_noZone hr h0 h1 hz, badPosition]
    have hs' : slotOf (heard s).vht f = some slot := hs
    have hv' : tblGet (heard s).vht.vehicles slot = some v := hv
    have told : fromVehicle (fun _ _ s => s) f () (heard s) =
        if v.link = .online then withVehicle slot (heardVehicle s v) (heard s) else heard s := by
      simp only [fromVehicle, hs', hv', Vehicle.online, decide_eq_true_eq, restartSilence, updVehicle_of_get hv']
      rfl
    rw [told]
  case full =>
    have hs' : slotOf (heard s).vht f = none := hs
    have free : tblFree 64 (heard s).vht.vehicles = none := tblFree_of_full hfull
    rw [e, reportHello_unknown hr h0 h1 hz hs']
    simp only [helloUnknown, free]
  case enrolls =>
    have hs' : slotOf (heard s).vht f = none := hs
    have free : tblFree 64 (heard s).vht.vehicles = some slot := tblFree_of_lowest hslot hfree hlow
    rw [reportHello_unknown hr h0 h1 hz hs'] at e
    simp only [helloUnknown, free] at e
    obtain ⟨framed, hort, hshm, hvht, told, _⟩ := entered_kept slot r (enrolledVehicle (heard s) f r) (heard s)
    obtain ⟨joined, lines⟩ := entered_joined (s := heard s) (slot := slot) (r := r) hn (enrolledVehicle (heard s) f r)
    have base : enroll slot f r (heard s) =
        setExam (issue f (.welcome .ok slot none)
          ((if r.load = .empty then id else strayLoad slot) (entered slot r (enrolledVehicle (heard s) f r) (heard s)))) := rfl
    have hget : tblGet (entered slot r (enrolledVehicle (heard s) f r) (heard s)).vht.vehicles slot =
        some (enrolledVehicle (heard s) f r) := by
      rw [hvht]
      exact withVehicle_get_self _ _ _
    have hothers : otherVehiclesKept slot s (entered slot r (enrolledVehicle (heard s) f r) (heard s)) := fun k hk => by
      rw [hvht]
      exact withVehicle_others _ _ (heard s) k hk
    have now := framed.now
    generalize entered slot r (enrolledVehicle (heard s) f r) (heard s) = E at framed hort hshm hvht told joined lines base hget hothers now
    have hlines := helloTold_linesTold slot r (enrolledVehicle (heard s) f r) (heard s)
    rw [base] at e
    by_cases hl : r.load = .empty
    · rw [if_pos hl] at e
      refine ⟨E, _, _, e, framed, rfl, ?_, hothers, joined, hort, hshm, rfl, fun _ => ⟨told.lines lines hlines, told.2.2⟩,
        fun h => absurd hl h⟩
      rw [hget]
      simp only [enrolledVehicle, hl, ne_eq, not_true, decide_false, if_true]
      rfl
    · rw [if_neg hl] at e
      obtain ⟨sget, sothers, sort, sbac, sshm, slines, sframed⟩ :=
        strayTold_kept slot (enrolledVehicle (heard s) f r) E
      have stray := told.strayTold (now.trans (helloTold_now slot r (enrolledVehicle (heard s) f r) (heard s)).symm) slot
        (enrolledVehicle (heard s) f r)
      obtain ⟨_, _, _, _, _, toldLines, _⟩ := strayTold_kept slot (enrolledVehicle (heard s) f r)
        (helloTold slot r (enrolledVehicle (heard s) f r) (heard s))
      have strayLines := hlines.trans toldLines
      rw [strayLoad_of_get hget] at e
      refine ⟨strayTold slot (enrolledVehicle (heard s) f r) E, _, _, e, framed.trans sframed, rfl, ?_,
        fun k hk => (sothers k hk).trans (hothers k hk), joined.congr sbac, sort.trans hort, sshm.trans hshm, rfl,
        fun h => absurd h hl, fun _ => ⟨stray.lines (lines.trans slines) strayLines, stray.2.2⟩⟩
      rw [sget]
      simp only [enrolledVehicle, hl, ne_eq, not_false_eq_true, decide_true, if_false]
      rfl

end Hello

end Sys2Proof.Machine
end

section
/-! A vehicle's loss takes no account of the frames that wait on the fleet line, so that a HELLO which ends an ONLINE
vehicle's work first is the HELLO of the vehicle that has gone (R93, R165). -/
namespace Sys2Proof.Machine

open Sys2Proof

variable {s t u x e : State} {slot h f : Nat} {v w : Vehicle} {r : HelloRep} {i : LayerId} {o : Order}

/-! ## Steps that leave the waiting frames alone -/

section Heard

@[simp] theorem heard_now (s : State) : (heard s).now = s.now := rfl
@[simp] theorem heard_ort (s : State) : (heard s).ort = s.ort := rfl
@[simp] theorem heard_vht (s : State) : (heard s).vht = s.vht := rfl
@[simp] theorem heard_shm (s : State) : (heard s).shm = s.shm := rfl
@[simp] theorem heard_bac (s : State) : (heard s).bac = s.bac := rfl
@[simp] theorem heard_lyt (s : State) : (heard s).lyt = s.lyt := rfl
@[simp] theorem heard_fcr (s : State) : (heard s).fcr = s.fcr := rfl

theorem queueNotice_heard (n : Notice) (s : State) : queueNotice n (heard s) = heard (queueNotice n s) := by
  by_cases hn : s.liu.notices.length < 64
  · rw [queueNotice_room _ hn, queueNotice_room (s := heard s) _ hn]
    rfl
  · rw [queueNotice_full _ (Nat.le_of_not_lt hn), queueNotice_full (s := heard s) _ (Nat.le_of_not_lt hn)]
    rfl

theorem setExamIf_heard (b : Bool) (s : State) : setExamIf b (heard s) = heard (setExamIf b s) := by
  cases b <;> rfl

theorem setExam_heard (s : State) : setExam (heard s) = heard (setExam s) := rfl

theorem putOrder_heard (o : Order) (s : State) : putOrder h o (heard s) = heard (putOrder h o s) := rfl

theorem updOrder_heard (f : Order → Order) (s : State) : updOrder h f (heard s) = heard (updOrder h f s) := by
  cases ho : tblGet s.ort.orders h <;> simp only [updOrder, heard_ort, ho, putOrder_heard]

theorem updVehicle_heard (f : Vehicle → Vehicle) (s : State) :
    updVehicle slot f (heard s) = heard (updVehicle slot f s) := by
  cases hv : tblGet s.vht.vehicles slot <;> simp only [updVehicle, heard_vht, hv]
  rfl

theorem vehicleNotice_heard (ev : VehicleEvent) (s : State) :
    vehicleNotice slot ev (heard s) = heard (vehicleNotice slot ev s) := by
  cases hv : tblGet s.vht.vehicles slot <;> simp only [vehicleNotice, heard_vht, hv, queueNotice_heard]

theorem setShelf_heard (k : Nat) (sh : Shelf) (s : State) : setShelf k sh (heard s) = heard (setShelf k sh s) := by
  unfold setShelf
  rw [← setExamIf_heard]
  rfl

theorem releaseInbound_heard (e : Option Endpoint) (s : State) :
    releaseInbound h e (heard s) = heard (releaseInbound h e s) := by
  unfold releaseInbound
  split
  · rw [heard_shm]
    split
    · exact setShelf_heard _ _ _
    · rfl
  · rfl

theorem releaseOutbound_heard (e : Option Endpoint) (s : State) :
    releaseOutbound h e (heard s) = heard (releaseOutbound h e s) := by
  unfold releaseOutbound
  split
  · rw [heard_shm]
    split
    · exact setShelf_heard _ _ _
    · rfl
  · rfl

theorem moveOrder_heard (f : Order → Order) (st : OrderState) (reason : OrderReason) (left : Option Nat) (s : State) :
    moveOrder h f st reason left (heard s) = heard (moveOrder h f st reason left s) := by
  cases ho : tblGet s.ort.orders h <;> simp only [moveOrder, heard_ort, ho]
  rw [← setExamIf_heard, orderNotice, orderNotice, ← queueNotice_heard]
  rfl

theorem emptyLayer_heard (i : LayerId) (s : State) : emptyLayer slot i (heard s) = heard (emptyLayer slot i s) := by
  unfold emptyLayer
  rw [heard_vht, heard_now]
  split
  · split
    · rfl
    · exact updVehicle_heard _ _
    · split
      · exact updVehicle_heard _ _
      · rw [updVehicle_heard, setExam_heard]
    · rw [updVehicle_heard, setExam_heard]
    · rw [updVehicle_heard, setExam_heard]
  · rfl

theorem leaveVehicle_heard (loc : Option (Nat × LayerId)) (s : State) :
    leaveVehicle loc (heard s) = heard (leaveVehicle loc s) := by
  cases loc with
  | none => rfl
  | some x => exact emptyLayer_heard _ _

theorem releaseGrantClaims_heard (o : Order) (s : State) :
    releaseGrantClaims h o (heard s) = heard (releaseGrantClaims h o s) := by
  unfold releaseGrantClaims
  split <;> split <;> simp only [releaseInbound_heard, releaseOutbound_heard, id]

theorem returnOrder_heard (st : OrderState) (s : State) : returnOrder h st (heard s) = heard (returnOrder h st s) := by
  have hid (loc : Option (Nat × LayerId)) : carrierId (heard s) loc = carrierId s loc := rfl
  cases ho : tblGet s.ort.orders h <;> simp only [returnOrder, heard_ort, ho]
  rw [leaveVehicle_heard, releaseGrantClaims_heard, moveOrder_heard, hid]

theorem closeBatch_heard (tag : Nat) (s : State) : closeBatch tag (heard s) = heard (closeBatch tag s) := by
  unfold closeBatch
  rw [heard_ort]
  split
  · split
    · rw [← queueNotice_heard]
      rfl
    · rfl
  · rfl

theorem countBatch_heard (o : Order) (failed : Bool) (s : State) :
    countBatch o failed (heard s) = heard (countBatch o failed s) := by
  unfold countBatch countDown
  split
  · rw [heard_ort]
    split
    · rw [← closeBatch_heard]
      rfl
    · rfl
  · rfl

theorem endOrder_heard (st : OrderState) (why : EndReason) (s : State) :
    endOrder h st why (heard s) = heard (endOrder h st why s) := by
  have hid (loc : Option (Nat × LayerId)) : carrierId (heard s) loc = carrierId s loc := rfl
  cases ho : tblGet s.ort.orders h <;> simp only [endOrder, heard_ort, ho]
  rw [leaveVehicle_heard, releaseAllClaims, releaseOutbound_heard, releaseInbound_heard, releaseInbound_heard,
    moveOrder_heard, countBatch_heard, hid]
  rfl

theorem loseStaged_heard (s : State) : loseStaged slot (heard s) = heard (loseStaged slot s) := by
  unfold loseStaged
  rw [heard_vht]
  split
  · split
    · exact returnOrder_heard _ _
    · rfl
  · rfl

theorem loseActive_heard (s : State) : loseActive slot (heard s) = heard (loseActive slot s) := by
  unfold loseActive
  rw [heard_vht]
  split
  · rw [heard_ort]
    split
    · split
      case h_1 => exact returnOrder_heard _ _
      case h_2 => exact endOrder_heard _ _ _
      case h_6 => exact updOrder_heard _ _
      case h_3 | h_4 | h_5 => exact moveOrder_heard _ _ _ _ _
      all_goals rfl
    · rfl
  · rfl

theorem losePlaces_bayStep (slot : Nat) : BayStep (losePlaces slot) where
  kept s := ((leaveBaysGranting_bayStep _ slot).comp (leaveQueues_bayStep _ slot)).kept s
  apart x s h := ((leaveBaysGranting_bayStep (grantedBays s.bac slot) slot).comp
    (leaveQueues_bayStep (waitingBays s.bac slot) slot)).apart x s h

theorem losePlaces_heard (s : State) : losePlaces slot (heard s) = heard (losePlaces slot s) := by
  have left : BaysLeft s (losePlaces slot s) :=
    (leaveQueues_left _ slot s).trans (leaveBaysGranting_left _ slot _)
  refine ((losePlaces_bayStep slot).apart (heard s) s ⟨rfl, rfl, fun _ => rfl⟩).trans ?_
  rw [left.only]
  rfl

theorem endReposition_heard (s : State) : endReposition slot (heard s) = heard (endReposition slot s) := by
  unfold endReposition
  rw [heard_vht, heard_now]
  split
  · split
    · rfl
    · split
      · rw [updVehicle_heard, setExam_heard]
      · exact updVehicle_heard _ _
  · rfl

/-- A BYE ends a vehicle's work whatever frames wait. -/
theorem byeVehicle_heard (s : State) : byeVehicle slot (heard s) = heard (byeVehicle slot s) := by
  simp only [byeVehicle, loseVehicle, dropLink, updVehicle_heard, vehicleNotice_heard, loseStaged_heard, loseActive_heard,
    losePlaces_heard, endReposition_heard]

end Heard

/-! ## The slots of the fleet ids -/

section Slots

theorem slotOf_eq (t : VehicleTable) (f : Nat) :
    slotOf t f = ((t.vehicles.map (fun e => (e.1, e.2.fleetId))).find? (fun e => e.2 == f)).map (fun e => e.1) := by
  rw [slotOf, List.find?_map, Option.map_map]
  rfl

/-- A step that keeps every fleet id where it is keeps the slot of each. -/
theorem Steady.slotOf (h : Steady s t) (hw : tblWf s.vht.vehicles = true) (f : Nat) : slotOf t.vht f = slotOf s.vht f := by
  rw [slotOf_eq, slotOf_eq, h.vehicleIds hw]

/-- The record of a vehicle that has gone (R100). -/
theorem byeVehicle_vehicle (hv : tblGet s.vht.vehicles slot = some v) :
    ∃ w, tblGet (byeVehicle slot s).vht.vehicles slot = some w ∧ w.link = .offline .bye := by
  have h0 : tblGet (dropLink slot .bye s).vht.vehicles slot = some { v with link := .offline .bye, silence := none } := by
    rw [dropLink_eq hv, (queueNotice_told _ _).vht]
    exact withVehicle_get_self _ _ _
  obtain ⟨w1, hw1, hlink1, _⟩ := (loseStaged_left slot (dropLink slot .bye s)).vehicle h0
  obtain ⟨w2, hw2, hlink2, _⟩ := (loseActive_left slot _).vehicle hw1
  have places : BaysLeft (loseActive slot (loseStaged slot (dropLink slot .bye s)))
      (losePlaces slot (loseActive slot (loseStaged slot (dropLink slot .bye s)))) :=
    (leaveQueues_left _ slot _).trans (leaveBaysGranting_left _ slot _)
  obtain ⟨_, hw3, _⟩ := endReposition_ended (v := w2) (by rw [places.vht]; exact hw2)
  obtain ⟨_, hlink3, _⟩ := repositionEnded_kept
    (losePlaces slot (loseActive slot (loseStaged slot (dropLink slot .bye s)))).now w2
  exact ⟨_, hw3, hlink3.trans (hlink2.trans hlink1)⟩

end Slots

/-! ## Re-enrollment (R95, R96) -/

section Reenrolled

/-- The record of a vehicle as its re-enrollment is over (R95, step 6). -/
def settled (now : Nat) (v : Vehicle) : Vehicle := if v.bothEmpty then v.rest now else { v with activity := .working }

theorem settled_kept (now : Nat) (v : Vehicle) :
    (settled now v).fleetId = v.fleetId ∧ (settled now v).layer = v.layer := by
  unfold settled
  split <;> exact ⟨rfl, funext fun j => by cases j <;> rfl⟩

theorem settled_working (hl : v.layer i = .active h) (now : Nat) : settled now v = { v with activity := .working } := by
  refine if_neg fun hb => ?_
  obtain ⟨h0, h1⟩ := bothEmpty_iff.1 hb
  cases i
  · exact absurd (h0.symm.trans hl) (by simp)
  · exact absurd (h1.symm.trans hl) (by simp)

theorem entered_placed (hv : tblGet s.vht.vehicles slot = some v) (hf : w.fleetId = v.fleetId) :
    HelloPlaced slot r.zone s (entered slot r w s) := by
  obtain ⟨_, _, _, _, _, x, told, lines, hbac, last⟩ := entered_kept slot r w s
  have seen : SeenAlike x s := by
    refine ⟨told.now, told.gwrdy, fun k => ?_⟩
    rw [fleetIdAt, fleetIdAt, told.vht]
    by_cases hk : k = slot
    · subst hk
      rw [withVehicle_get_self, hv, Option.map_some, Option.map_some, hf]
    · rw [withVehicle_others _ _ _ _ hk]
  have hx : baysOf x s = x := baysOf_eq told.bac told.asa lines.fleetOut
  have e := (admitEnrolled_bayStep r.zone slot).apart x s seen
  rw [hx] at e
  refine (admitEnrolled_placed r.zone slot s).congr (hbac.trans ?_) (last.fleetOut.trans ?_) <;> rw [e] <;> rfl

/-- What re-enrolls a vehicle once its load has been set against its layers, which takes the state to `x`. -/
theorem exec_hello_settled (a : helloWaits s f r) (h0 : 0 < f) (h1 : f < 65535)
    (hz : r.zone < s.lyt.bayCount ∨ r.zone = 255) (hs : slotOf s.vht f = some slot)
    (hv : tblGet s.vht.vehicles slot = some v) (hl : v.link ≠ .online) (hf : v.fleetId = f)
    (hw : w = { v with
      link := .online, silence := some (timerFrom s s.vht.tSilent), load := r.load
      position := ⟨r.zone, storedCoord s.lyt r.zone r.coord, s.now⟩ })
    (hx : reconcile slot r.load (entered slot r w (heard s)) = x) {w' : Vehicle}
    (hget : tblGet x.vht.vehicles slot = some w') (hid : w'.fleetId = f)
    (hothers : otherVehiclesKept slot (entered slot r w (heard s)) x) (hbac : x.bac = (entered slot r w (heard s)).bac)
    (hlines : LinesTold (entered slot r w (heard s)) x) (framed : Framed (entered slot r w (heard s)) x) :
    ∃ u, exec .hello s = .next (setExam (issue f (.welcome .ok slot (workToContinue u slot)) u)) ∧ Framed (heard s) u ∧
      tblGet u.vht.vehicles slot = some (settled s.now w') ∧ otherVehiclesKept slot s u ∧
      HelloPlaced slot r.zone (heard s) u ∧ u.ort = x.ort ∧ u.shm = x.shm ∧ u.lyt = s.lyt ∧ toldAs u x := by
  obtain ⟨eframed, _, _, evht, _⟩ := entered_kept slot r w (heard s)
  have e := exec_hello_of_waits a
  have hv' : tblGet (heard s).vht.vehicles slot = some v := hv
  have hret : returnVehicle slot r (heard s) = withVehicle slot w (heard s) := by
    rw [returnVehicle, updVehicle_of_get hv', hw]
    rfl
  have hoff : v.online = false := by simpa [Vehicle.online] using hl
  rw [reportHello_known (s := heard s) a.1 h0 h1 hz hs] at e
  simp only [helloKnown, hv', hoff, Bool.false_eq_true, if_false, reenroll, hret] at e
  change exec .hello s = .next (setExam (sendWelcome slot (settleActivity slot
    (reconcile slot r.load (entered slot r w (heard s)))))) at e
  have hnow : x.now = s.now := framed.now.trans eframed.now
  obtain ⟨kid, _⟩ := settled_kept s.now w'
  have hsettle : settleActivity slot x = withVehicle slot (settled s.now w') x := by
    rw [settleActivity, updVehicle_of_get hget, hnow]
    rfl
  rw [hx, hsettle, sendWelcome, issueTo_eq_issue _ (withVehicle_get_self _ _ _), kid, hid] at e
  refine ⟨_, e, eframed.trans (framed.trans (withVehicle_framed _ _ _)), withVehicle_get_self _ _ _, fun k hk => ?_,
    (entered_placed (s := heard s) hv' (by rw [hw])).congr hbac hlines.fleetOut, rfl, rfl,
    framed.lyt.trans eframed.lyt, rfl, rfl, rfl⟩
  rw [withVehicle_others _ _ _ _ hk, hothers k hk, evht, withVehicle_others _ _ _ _ hk]
  rfl

theorem workToContinue_of_none (hv : tblGet s.vht.vehicles slot = some v) (ha : ∀ i h, v.layer i ≠ .active h) :
    workToContinue s slot = none := by
  simp only [workToContinue, hv, activeLayer_eq_none_iff.2 ha]

section Active

variable (hv : tblGet s.vht.vehicles slot = some v) (hl : v.layer i = .active h)
  (hn : ∀ g, v.layer i.other ≠ .active g) (ho : tblGet s.ort.orders h = some o)

include hv hl hn ho

theorem workToContinue_carrying (hs : o.state = .carrying) :
    workToContinue s slot = some ⟨h, i, stopOf? s.lyt o.dest, o.carrierTag⟩ := by
  simp only [workToContinue, hv, activeLayer_of_layer hl hn, ho, hs, if_true]

theorem workToContinue_other (hs : o.state ≠ .carrying) : workToContinue s slot = none := by
  simp only [workToContinue, hv, activeLayer_of_layer hl hn, ho, hs, if_false]

end Active

/-- Settles O38: an ONLINE vehicle's BYE first, and then the reported load set against the layers. -/
theorem helloReenrollsAKnownVehicle : Obligations.HelloReenrollsAKnownVehicle := by
  refine ⟨fun s f r slot v a hwf h0 h1 hz hs hv hl => ?byeFirst,
    fun s f r slot v w e a h0 h1 hz hs hv hl hf hw he => ⟨fun e0 e1 => ?empty, fun i h o hact hn ho hst hloc => ?active⟩⟩
  case byeFirst =>
    have steady := byeVehicle_steady slot s
    obtain ⟨w, hw, hlink⟩ := byeVehicle_vehicle hv
    have bye := byeVehicle_heard (slot := slot) s
    generalize byeVehicle slot s = t at steady hw bye ⊢
    have a' : helloWaits t f r := by
      obtain ⟨hr, k, f0, f1, payload, rest, hq, hk, hfid, hd⟩ := a
      refine ⟨(congrArg Layout.opState steady.framed.lyt).trans hr, k, f0, f1, payload, rest, ?_, hk, hfid, hd⟩
      rw [steady.framed.lines]
      exact hq
    have hs' : slotOf (heard t).vht f = some slot := (steady.slotOf hwf f).trans hs
    have hz' : r.zone < (heard t).lyt.bayCount ∨ r.zone = 255 := by
      rw [heard_lyt, steady.framed.lyt]
      exact hz
    rw [exec_hello_of_waits a, exec_hello_of_waits a', reportHello_known (s := heard s) a.1 h0 h1 hz hs,
      reportHello_known (s := heard t) a'.1 h0 h1 hz' hs']
    have hon : v.online = true := by simpa [Vehicle.online] using hl
    have hoff : w.online = false := by simp [Vehicle.online, hlink]
    simp only [helloKnown, heard_vht, hv, hw, hon, hoff, if_true, if_false, Bool.false_eq_true, bye]
  all_goals
    obtain ⟨eframed, eort, eshm, evht, etold, _⟩ := entered_kept slot r w (heard s)
    have hget : tblGet (entered slot r w (heard s)).vht.vehicles slot = some w := by
      rw [evht]
      exact withVehicle_get_self _ _ _
    have hid : w.fleetId = f := by rw [hw, hf]
    have hlayer : w.layer = v.layer := by
      rw [hw]
      exact funext fun j => by cases j <;> rfl
    rw [← he] at etold
    have settle {x : State} {w' : Vehicle} := exec_hello_settled (w' := w') (x := x) a h0 h1 hz hs hv hl hf hw
    have hnow := eframed.now
    generalize entered slot r w (heard s) = E at eframed eort eshm evht etold hget settle hnow
  case empty =>
    have hnone : ∀ i h, w.layer i ≠ .active h := fun i h hi => by
      rw [hlayer] at hi
      cases i
      · exact absurd (e0.symm.trans hi) (by simp)
      · exact absurd (e1.symm.trans hi) (by simp)
    have hboth : w.bothEmpty = true := bothEmpty_iff.2 (by rw [hw]; exact ⟨e0, e1⟩)
    have hrec : reconcile slot r.load E = if r.load = .empty then E else strayTold slot w E := by
      simp only [reconcile, hget, activeOrder_eq_none hnone, hboth, true_and, strayLoad_of_get hget, ne_eq, ite_not]
    by_cases hload : r.load = .empty
    · rw [if_pos hload] at hrec
      obtain ⟨u, hu, ufr, uget, uoth, upl, uort, ushm, _, utold⟩ :=
        settle hrec hget hid (fun _ _ => rfl) rfl (.of_eq rfl) (.refl E)
      rw [workToContinue_of_none uget (by rw [(settled_kept s.now w).2]; exact hnone)] at hu
      refine ⟨u, hu, ufr, uget.trans ?_, uoth, uort.trans eort, ushm.trans eshm, upl, fun _ => utold.trans etold,
        fun h => absurd hload h⟩
      rw [settled, if_pos hboth, if_pos hload]
      rfl
    · rw [if_neg hload] at hrec
      obtain ⟨sget, sothers, sort, sbac, sshm, slines, sframed⟩ := strayTold_kept slot w E
      obtain ⟨fid, flayer, _⟩ := faultStalled_kept (v := w) .fatal .strayLoad E.now
      rw [hnow] at fid flayer sget
      obtain ⟨u, hu, ufr, uget, uoth, upl, uort, ushm, _, utold⟩ :=
        settle hrec sget (fid.trans hid) sothers sbac slines sframed
      have hboth' : (faultStalled (heard s).now .fatal .strayLoad w).bothEmpty = true :=
        bothEmpty_iff.2 ⟨(congrFun (flayer.trans hlayer) .l0).trans e0, (congrFun (flayer.trans hlayer) .l1).trans e1⟩
      rw [workToContinue_of_none uget (by rw [(settled_kept s.now _).2, flayer]; exact hnone)] at hu
      refine ⟨u, hu, ufr, uget.trans ?_, uoth, uort.trans (sort.trans eort), ushm.trans (sshm.trans eshm), upl,
        fun h => absurd h hload, fun _ => utold.trans (etold.strayTold ?_ slot w)⟩
      · rw [settled, if_pos hboth', if_neg hload]
        rfl
      · rw [hnow, he, helloTold_now]
  case active =>
    have hactw : w.layer i = .active h := (congrFun hlayer i).trans hact
    have hnw : ∀ g, w.layer i.other ≠ .active g := fun g hg => by
      rw [hlayer, hn] at hg
      cases hg
    have hoE : tblGet E.ort.orders h = some o := by
      rw [eort]
      exact ho
    have hao := activeOrder_of_layer hactw hnw hoE
    have hwork := settled_working hactw s.now
    obtain ⟨sid, slay⟩ := settled_kept s.now w
    refine ⟨fun c hc => ?resumes, fun c hc hne hnt => ?mismatch, fun hload => ?kept⟩
    case resumes =>
      have hload : r.load ≠ .empty := hc.elim And.right fun x => by rw [x.2]; simp
      have hcon : consistentLoad o r.load = true := (consistentLoad_iff hload).2 (hc.imp And.left fun x => ⟨c, x⟩)
      obtain ⟨x, y, hx, hy, ey⟩ := resumeOnReport_stepped (load := r.load) hoE hst hget
      have hrec : reconcile slot r.load E = setExam y := by
        have hns : ¬(o.state ≠ .suspended ∨ r.load = .empty) := by simp [hst, hload]
        simp only [reconcile, hget, hao, if_neg hns, hcon, if_true, ey]
      have hvehicle : vehicleOf x o = some f := by
        simp only [vehicleOf, hloc, hx.vht, fleetIdAt, hget, Option.map_some, hid]
      obtain ⟨_, yvht, ybac, yshm, yfcr⟩ := hy.kept
      have ylines := hy.lines
      have xtold : toldAs x E := ⟨by rw [hx.liu], by rw [hx.liu], hx.fcr⟩
      have notice : Notice.orderState h o.hostTag o.state (resumedOrder E w (reportedOrder r.load o)).state x.now .none
          (vehicleOf x o) = .orderState h o.hostTag .suspended .carrying s.now .none (some f) := by
        rw [hvehicle, hst, hx.now, hnow]
        rfl
      rw [notice] at ylines
      have ytold : toldAs (setExam y) (queueNotice (.orderState h o.hostTag .suspended .carrying s.now .none (some f)) e) := by
        have qtold := (xtold.trans etold).queueNotice (.orderState h o.hostTag .suspended .carrying s.now .none (some f))
        refine toldAs.trans ⟨congrArg (·.notices) ylines, congrArg (·.gapMark) ylines, ?_⟩ qtold
        rw [queueNotice_fcr]
        exact yfcr
      have yget : tblGet (setExam y).vht.vehicles slot = some w := by
        rw [setExam_vht, yvht, hx.vht]
        exact hget
      have hyo : tblGet (setExam y).ort.orders h = some (resumedOrder E w (reportedOrder r.load o)) := hy.record
      obtain ⟨u, hu, ufr, uget, uoth, upl, uort, ushm, ulyt, utold⟩ :=
        settle hrec yget hid (fun k _ => by rw [setExam_vht, yvht, hx.vht]) (ybac.trans hx.bac)
          (LinesTold.trans (.of_eq hx.liu) (LinesTold.trans (queueNotice_linesTold _ _) (.of_eq ylines)))
          (hx.framed.trans (hy.framed.trans (setExam_left y).framed))
      rw [workToContinue_carrying uget (by rw [slay]; exact hactw) (by rw [slay]; exact hnw) (by rw [uort]; exact hyo) rfl,
        ulyt] at hu
      rw [hwork] at uget
      refine ⟨u, hu, ufr, ?_, fun k hk => ?_, fun k => ?_, uget, uoth, upl, utold.trans ytold⟩
      · rw [uort, hyo, resumedOrder, reportedOrder, readOfLoad_eq, hnow, eframed.lyt]
        rfl
      · rw [uort]
        exact (hy.others k hk).trans (by rw [hx.ort, eort]; rfl)
      · rw [ushm]
        exact (congrArg (shelfAt · k) yshm).trans ((hx.each k).trans (by rw [eshm]; rfl))
    case mismatch =>
      have hcon : consistentLoad o r.load = false := by
        refine Bool.eq_false_iff.2 fun x => ?_
        obtain hx | ⟨g, hg, hx⟩ := (consistentLoad_iff hne).1 x
        · simp [hc] at hx
        · rw [hc] at hg
          cases hg
          exact hnt hx
      have hrec : reconcile slot r.load E =
          raiseIncident (mismatchIncident E w h o) (putOrder h { o with suspendReason := some .mismatch } E) := by
        have hns : ¬(o.state ≠ .suspended ∨ r.load = .empty) := by simp [hst, hne]
        simp only [reconcile, hget, hao, if_neg hns, hcon, Bool.false_eq_true, if_false, mismatch_eq hoE hget]
      have told := raiseIncident_told (mismatchIncident E w h o) (putOrder h { o with suspendReason := some .mismatch } E)
      have hinc : mismatchIncident E w h o = mismatchIncident s w h o := by
        rw [mismatchIncident, mismatchIncident, hnow]
        rfl
      have ptold : toldAs (putOrder h { o with suspendReason := some .mismatch } E) e := etold
      obtain ⟨u, hu, ufr, uget, uoth, upl, uort, ushm, _, utold⟩ :=
        settle hrec (by rw [told.vht]; exact hget) hid (fun k _ => by rw [told.vht]; rfl) told.bac
          (raiseIncident_linesTold _ _)
          ((putOrder_framed h _ E).trans (raiseIncident_steady _ _).framed)
      have huo : u.ort = (putOrder h { o with suspendReason := some .mismatch } E).ort := uort.trans told.ort
      have hrecord : tblGet u.ort.orders h = some { o with suspendReason := some .mismatch } := by
        rw [huo, putOrder_get_self]
      rw [workToContinue_other uget (by rw [slay]; exact hactw) (by rw [slay]; exact hnw) hrecord (by simp [hst])] at hu
      rw [hwork] at uget
      refine ⟨u, hu, ufr, hrecord, fun k hk => ?_, ushm.trans (told.shm.trans eshm), uget, uoth, upl,
        utold.trans (hinc ▸ ptold.raiseIncident _)⟩
      rw [huo]
      exact (putOrder_others _ _ _ k hk).trans (by rw [eort]; rfl)
    case kept =>
      have hrec : reconcile slot r.load E = E := by
        simp only [reconcile, hget, hao, if_pos (Or.inr hload : o.state ≠ .suspended ∨ r.load = .empty)]
      obtain ⟨u, hu, ufr, uget, uoth, upl, uort, ushm, _, utold⟩ :=
        settle hrec hget hid (fun _ _ => rfl) rfl (.of_eq rfl) (.refl E)
      rw [workToContinue_other uget (by rw [slay]; exact hactw) (by rw [slay]; exact hnw) (by rw [uort]; exact hoE)
        (by simp [hst])] at hu
      rw [hwork] at uget
      exact ⟨u, hu, ufr, uort.trans eort, ushm.trans eshm, uget, uoth, upl, utold.trans etold⟩

end Reenrolled

end Sys2Proof.Machine
end

section
/-! ENTRY_ASK (R118, R119, R120). -/
namespace Sys2Proof.Machine

open Sys2Proof

variable {s t u x : State} {slot a b : Nat} {v : Vehicle} {y z : BayState}

/-! ## The queue that an entry joins (R120) -/

section Joined

theorem take_behindHot (q : List Waiting) :
    q.take (q.length - (behindHot q).length) = q.rdropWhile (fun w => !w.hot) := by
  have e : q.rdropWhile (fun w => !w.hot) ++ behindHot q = q := List.rdropWhile_append_rtakeWhile
  have hl := congrArg List.length e
  rw [List.length_append] at hl
  rw [← hl, Nat.add_sub_cancel]
  conv_lhs => rw [← e]
  exact List.take_left' (by rw [e])

/-- Where an entry stands in the queue it joins: behind the last hot-flagged entry, or at the tail. -/
theorem joined_split (n : Waiting) (q : List Waiting) :
    ∃ front back, q = front ++ back ∧ joined n q = front ++ n :: back ∧ (n.hot = false → back = []) ∧
      (n.hot = true → (∀ w ∈ back, w.hot = false) ∧ (front = [] ∨ ∃ w, front.getLast? = some w ∧ w.hot = true)) := by
  by_cases hn : n.hot = true
  · refine ⟨q.rdropWhile (fun w => !w.hot), behindHot q, List.rdropWhile_append_rtakeWhile.symm, ?_,
      fun h => absurd (hn.symm.trans h) (by decide), fun _ => ⟨fun w hw => ?_, ?_⟩⟩
    · rw [joined, if_pos hn, take_behindHot]
    · simpa using List.mem_rtakeWhile_imp hw
    · by_cases he : q.rdropWhile (fun w => !w.hot) = []
      · exact .inl he
      · refine .inr ⟨_, List.getLast?_eq_some_getLast he, ?_⟩
        simpa using List.rdropWhile_last_not (fun w : Waiting => !w.hot) q he
  · refine ⟨q, [], (List.append_nil q).symm, ?_, fun _ => rfl, fun h => absurd h hn⟩
    rw [joined, if_neg hn]

/-- The state of a bay that a vehicle has joined the queue of. -/
theorem joinQueue_joined (hy : tblGet s.bac.bays b = some y) :
    ∃ x n front back, joinQueue b slot s = withBay b x s ∧ x.admitted = y.admitted ∧ x.capacity = y.capacity ∧
      x.soft = y.soft ∧ x.quota = y.quota ∧ x.isOpen = y.isOpen ∧
      n = { slot := slot, hot := n.hot, askedAt := s.now, starved := false, starve := some (timerFrom s s.bac.tEntry) } ∧
      (n.hot = carriesHot s slot) ∧ y.queue = front ++ back ∧ x.queue = front ++ n :: back ∧
      (n.hot = false → back = []) ∧
      (n.hot = true → (∀ w ∈ back, w.hot = false) ∧ (front = [] ∨ ∃ w, front.getLast? = some w ∧ w.hot = true)) := by
  obtain ⟨front, back, hq, hj, h0, h1⟩ :=
    joined_split ⟨slot, carriesHot s slot, s.now, false, some (startTimer s.now s.bac.tEntry)⟩ y.queue
  exact ⟨_, _, front, back, updBay_of_get hy, rfl, rfl, rfl, rfl, rfl, rfl, rfl, hq, hj, h0, h1⟩

theorem carriesHot_iff (hv : tblGet s.vht.vehicles slot = some v) :
    carriesHot s slot = true ↔ ∃ i h o, v.layer i = .active h ∧ v.activeHandle = some h ∧
      tblGet s.ort.orders h = some o ∧ o.cls = .hot := by
  simp only [carriesHot, hv]
  constructor
  · intro h
    split at h
    · next g o hg =>
      unfold activeOrder at hg
      split at hg
      · next k i hi =>
        obtain ⟨p, hp, e⟩ := Option.map_eq_some_iff.1 hg
        cases e
        exact ⟨i, g, o, layer_of_activeLayer hi, by rw [Vehicle.activeHandle, hi, Option.map_some], hp, by simpa using h⟩
      · cases hg
    · cases h
  · rintro ⟨i, h, o, hl, hh, ho, hc⟩
    obtain ⟨⟨g, j⟩, hg, rfl⟩ := Option.map_eq_some_iff.1 hh
    have e : activeOrder s.ort v = some (g, o) := by
      simp only [activeOrder, hg, ho, Option.map_some]
    simp only [e, hc, decide_true]

end Joined

/-! ## The decision (R119, step 3) -/

section Decision

variable (hy : tblGet s.bac.bays b = some y)

include hy

theorem decideEntry_room (hv : tblGet s.vht.vehicles slot = some v) (ho : y.isOpen = true)
    (hl : y.admitted.length < y.capacity) (hq : y.queue = []) :
    decideEntry b slot s =
      issue v.fleetId (.entryGrant b)
        (withBay b { y with admitted := y.admitted ++ [grantedEntry s slot], yield := none } s) := by
  have hroom : (y.hasRoom && y.queue.isEmpty) = true := by simp [hasRoom_iff.2 ⟨ho, hl⟩, hq]
  simp only [decideEntry, hy, hroom, if_true, grantEntry, updBay_of_get hy]
  rw [issueTo_eq_issue (s := withBay b _ s) (v := v) _ hv]
  have hyield : yieldAfter s.now s.bac.tYield y { y with admitted := y.admitted ++ [grantedEntry s slot] } = none := by
    simp [yieldAfter, BayState.pressed, hq]
  exact congrArg (fun q => issue v.fleetId (.entryGrant b)
    (withBay b { y with admitted := y.admitted ++ [grantedEntry s slot], yield := q } s)) hyield

theorem decideEntry_joins (h : y.isOpen = false ∨ y.capacity ≤ y.admitted.length ∨ y.queue ≠ []) :
    decideEntry b slot s = joinQueue b slot s := by
  have hroom : (y.hasRoom && y.queue.isEmpty) = false := by
    obtain h | h | h := h
    · simp [BayState.hasRoom, h]
    · simp [BayState.hasRoom, h]
    · simp [h]
  simp only [decideEntry, hy, hroom, Bool.false_eq_true, if_false]

end Decision

/-! ## ENTRY_ASK by the places of the vehicle -/

section Asks

theorem exec_entryAsk_of_waits {c : Byte} (h : reportWaits s 0x5C slot v [c]) :
    exec .entryAsk s = .next (askEntry slot (u8 c) (taken s slot v)) :=
  congrArg Host.Outcome.next (takeReport_of_waits (form := decodeU8) (act := askEntry) h rfl)

theorem askEntry_noBay (h : s.lyt.bayCount ≤ b) : askEntry slot b s = issueTo slot (.entryVoid b .badBay) s := if_pos h

theorem askEntry_waiting (h : b < s.lyt.bayCount) (hy : tblGet s.bac.bays b = some y) (hw : ∃ w ∈ y.queue, w.slot = slot) :
    askEntry slot b s = s := by
  have hin : (waitingIn s.bac b slot).isSome = true := by
    simp only [waitingIn, hy]
    exact waitingOf_isSome.2 hw
  rw [askEntry, if_neg (Nat.not_le.2 h), if_pos hin]

/-- An ask by a vehicle that does not stand in the bay's queue, with the bays that hold it named. -/
theorem askEntry_eq (h : b < s.lyt.bayCount) (hy : tblGet s.bac.bays b = some y) (hw : ∀ w ∈ y.queue, w.slot ≠ slot)
    {as ws : List Nat} (ha : admittedBays s.bac slot = as) (hws : waitingBays s.bac slot = ws) :
    askEntry slot b s =
      (if as.contains b then grantQueue b else id)
        (decideEntry b slot (leaveQueues ws slot (impliedExit as b slot s))) := by
  have hin : (waitingIn s.bac b slot).isSome = false := by
    simp only [waitingIn, hy, waitingOf_eq_none_iff.2 hw, Option.isSome_none]
  rw [askEntry, if_neg (Nat.not_le.2 h), hin, if_neg Bool.false_ne_true, ha, hws]

theorem grantQueue_of_empty (hy : tblGet s.bac.bays b = some y) (hq : y.queue = []) : grantQueue b s = s := by
  simp only [grantQueue, hy, hq]
  rfl

/-- The bay that a vehicle asks for, and leaves as it asks. -/
theorem leaveBay_asked (hy : tblGet s.bac.bays b = some y) (ha : ∃ e ∈ y.admitted, e.slot = slot) :
    ∃ q, impliedExit [b] b slot s =
      setExam (withBay b { y with admitted := y.admitted.filter (fun e => e.slot != slot), yield := q } s) := by
  obtain ⟨e, he⟩ := entryIn_of_mem hy ha
  exact ⟨yieldAfter s.now s.bac.tYield y { y with admitted := y.admitted.filter (fun e => e.slot != slot) },
    by rw [impliedExit, impliedExit, if_pos rfl, leaveBay_of_entry he, updBay_of_get hy]⟩

theorem withBay_setExam_withBay (x y : BayState) (s : State) :
    withBay b x (setExam (withBay b y s)) = setExam (withBay b x s) := by
  have e : tblSet (tblSet s.bac.bays b y) b x = tblSet s.bac.bays b x := tblSet_set _ _ _ _
  unfold withBay setExam
  rw [e]

theorem carriesHot_taken (hv : tblGet s.vht.vehicles slot = some v) :
    carriesHot (taken s slot v) slot = carriesHot s slot := by
  simp only [carriesHot, taken_get, hv]
  rfl

/-- A step on bays acts on the state in which a report has been taken as on the state before. -/
theorem BayStep.taken {f : State → State} (hf : BayStep f) (left : BaysLeft s (f s))
    (hv : tblGet s.vht.vehicles slot = some v) : f (taken s slot v) = taken (f s) slot v := by
  have seen : SeenAlike (Machine.taken s slot v) s := by
    refine ⟨rfl, rfl, fun k => ?_⟩
    by_cases hk : k = slot
    · subst hk
      rw [fleetIdAt, fleetIdAt, taken_get, hv]
      rfl
    · exact congrArg (Option.map _) (tblGet_set_other _ _ hk)
  refine (hf.apart (Machine.taken s slot v) s seen).trans ?_
  rw [left.only]
  rfl

/-- A step on bays leaves the report that waits. -/
theorem BaysLeft.reportWaits {kind : Nat} {payload : List Byte} (h : BaysLeft s t) (a : reportWaits s kind slot v payload) :
    reportWaits t kind slot v payload := by
  rw [h.only]
  exact a

/-- An ask by a vehicle whose places elsewhere have gone. -/
theorem exec_entryAsk_of_left {c : Byte} (left : BaysLeft s t) (hb : u8 c < s.lyt.bayCount)
    (hy : tblGet t.bac.bays (u8 c) = some y) (a : reportWaits s 0x5C slot v [c]) (hna : notAdmitted t slot)
    (hnw : notWaiting t slot) : exec .entryAsk t = .next (decideEntry (u8 c) slot (taken t slot v)) := by
  have noBays : admittedBays (taken t slot v).bac slot = [] := admittedBays_of_none hna
  have noQueues : waitingBays (taken t slot v).bac slot = [] := waitingBays_of_none hnw
  rw [exec_entryAsk_of_waits (left.reportWaits a), askEntry_eq (s := taken t slot v) (by rw [← left.lyt] at hb; exact hb) hy
    (hnw _ (tblGet_mem hy)) noBays noQueues]
  rfl

/-- Settles O47, by the places of the vehicle that asks. -/
theorem entryIsAskedFor : Obligations.EntryIsAskedFor := by
  intro s slot v c a
  have e := exec_entryAsk_of_waits a
  have hv := a.2.1
  have ht := taken_get s slot v
  refine ⟨fun hb => ?noBay, fun y hb hy => ⟨fun hw => ?waits, fun hna hnw ho hl hq => ?granted, fun hna hnw h => ?joins,
    fun hnw ho hq ha hn hwf hl => ?grantedAgain, fun a' z hne hwf hz ha hn hnw => ?leavesBay,
    fun a' z hne hwf hz hw hn hna => ?leavesQueue, fun hnw ha hn hwf h => ?joinsOwn⟩⟩
  case noBay =>
    rw [e, askEntry_noBay (s := taken s slot v) hb, issueTo_eq_issue _ ht]
    rfl
  case waits => rw [e, askEntry_waiting (s := taken s slot v) hb hy hw]
  all_goals have hy' : tblGet (taken s slot v).bac.bays (u8 c) = some y := hy
  case granted =>
    have noBays : admittedBays (taken s slot v).bac slot = [] := admittedBays_of_none hna
    have noQueues : waitingBays (taken s slot v).bac slot = [] := waitingBays_of_none hnw
    rw [e, askEntry_eq (s := taken s slot v) hb hy' (hnw _ (tblGet_mem hy)) noBays noQueues]
    exact congrArg _ (decideEntry_room (s := taken s slot v) (v := heardVehicle s v) hy' ht ho hl hq)
  case joins =>
    have noBays : admittedBays (taken s slot v).bac slot = [] := admittedBays_of_none hna
    have noQueues : waitingBays (taken s slot v).bac slot = [] := waitingBays_of_none hnw
    obtain ⟨x, n, front, back, hx, h1, h2, h3, h4, h5, hn, hhot, hsplit, hq, h6, h7⟩ := joinQueue_joined (slot := slot) hy'
    rw [e, askEntry_eq (s := taken s slot v) hb hy' (hnw _ (tblGet_mem hy)) noBays noQueues]
    refine ⟨x, n, front, back, congrArg _ ((decideEntry_joins hy' h).trans hx), h1, h2, h3, h4, h5, hn, ?_, hsplit, hq, h6, h7⟩
    rw [hhot, carriesHot_taken hv, carriesHot_iff hv]
  case grantedAgain =>
    have oneBay : admittedBays (taken s slot v).bac slot = [u8 c] := admittedBays_of_one hwf hy ha hn
    have noQueues : waitingBays (taken s slot v).bac slot = [] := waitingBays_of_none hnw
    obtain ⟨q, hq'⟩ := leaveBay_asked (slot := slot) hy' ha
    have hy1 : tblGet (setExam (withBay (u8 c) { y with admitted := y.admitted.filter (fun e => e.slot != slot), yield := q }
        (taken s slot v))).bac.bays (u8 c) = some _ := withBay_get_self _ _
    have decided := decideEntry_room (slot := slot) hy1 ht ho hl hq
    rw [withBay_setExam_withBay] at decided
    have full (x : BayState) (hx : x.queue = []) :
        grantQueue (u8 c) (issue v.fleetId (.entryGrant (u8 c)) (setExam (withBay (u8 c) x (taken s slot v)))) =
          issue v.fleetId (.entryGrant (u8 c)) (setExam (withBay (u8 c) x (taken s slot v))) := by
      refine grantQueue_of_empty (y := x) ?_ hx
      rw [(issue_sendsOnly _ _).bac]
      exact withBay_get_self _ _
    rw [e, askEntry_eq (s := taken s slot v) hb hy' (hnw _ (tblGet_mem hy)) oneBay noQueues, hq',
      if_pos (by simp)]
    exact congrArg _ ((congrArg (grantQueue (u8 c)) decided).trans (full _ hq))
  case joinsOwn =>
    have oneBay : admittedBays (taken s slot v).bac slot = [u8 c] := admittedBays_of_one hwf hy ha hn
    have noQueues : waitingBays (taken s slot v).bac slot = [] := waitingBays_of_none hnw
    obtain ⟨q, hq'⟩ := leaveBay_asked (slot := slot) hy' ha
    have hy1 : tblGet (setExam (withBay (u8 c) { y with admitted := y.admitted.filter (fun e => e.slot != slot), yield := q }
        (taken s slot v))).bac.bays (u8 c) = some _ := withBay_get_self _ _
    obtain ⟨x, n, front, back, hx, h1, h2, h3, h4, h5, hn, hhot, hsplit, hqueue, h6, h7⟩ := joinQueue_joined (slot := slot) hy1
    have decided := (decideEntry_joins (slot := slot) hy1 (h.imp id Or.symm)).trans hx
    rw [withBay_setExam_withBay] at decided
    have hhot' : n.hot = carriesHot (taken s slot v) slot := hhot
    rw [e, askEntry_eq (s := taken s slot v) hb hy' (hnw _ (tblGet_mem hy)) oneBay noQueues, hq', if_pos (by simp)]
    refine ⟨x, n, front, back, congrArg _ (congrArg (grantQueue (u8 c)) decided), h1, h2, h3, h4, h5, hn, ?_, hsplit, hqueue,
      h6, h7⟩
    rw [hhot', carriesHot_taken hv, carriesHot_iff hv]
  case leavesBay =>
    have oneBay : admittedBays (taken s slot v).bac slot = [a'] := admittedBays_of_one hwf hz ha hn
    have noQueues : waitingBays (taken s slot v).bac slot = [] := waitingBays_of_none hnw
    have step := (grantQueue_bayStep a').comp (leaveBay_bayStep a' slot)
    have left := (leaveBay_left a' slot s).trans (grantQueue_left a' _)
    have gone := leaveBaysGranting_gone (slot := slot) hwf fun e he _ => hnw e he
    have hwf' := (leaveBaysGranting_steady [a'] slot s).bayWf hwf
    rw [show admittedBays s.bac slot = [a'] from oneBay] at gone
    have htaken : grantQueue a' (leaveBay a' slot (taken s slot v)) = taken (grantQueue a' (leaveBay a' slot s)) slot v :=
      step.taken left hv
    have hyb : tblGet (grantQueue a' (leaveBay a' slot s)).bac.bays (u8 c) = some y :=
      (grantQueue_others a' _ _ hne.symm).trans ((leaveBay_others a' slot s _ hne.symm).trans hy)
    rw [leaveBaysGranting, leaveBaysGranting] at gone hwf'
    rw [e, askEntry_eq (s := taken s slot v) hb hy' (hnw _ (tblGet_mem hy)) oneBay noQueues, if_neg (by simpa using hne.symm),
      impliedExit, impliedExit, if_neg hne, htaken]
    exact (exec_entryAsk_of_left left hb hyb a (fun x hx => gone _ _ (tblGet_of_mem hwf' hx)) fun x hx w hw => by
      obtain ⟨x0, hx0, p⟩ := left.places _ _ (tblGet_of_mem hwf' hx)
      exact hnw _ (tblGet_mem hx0) w (p.queue w hw)).symm
  case leavesQueue =>
    have noBays : admittedBays (taken s slot v).bac slot = [] := admittedBays_of_none hna
    have oneQueue : waitingBays (taken s slot v).bac slot = [a'] := waitingBays_of_one hwf hz hw hn
    have left := leaveQueue_left a' slot s
    have hwf' := (leaveQueues_steady [a'] slot s).bayWf hwf
    have gone := leaveQueues_gone slot s
    rw [show waitingBays s.bac slot = [a'] from oneQueue] at gone
    rw [leaveQueues, leaveQueues] at gone hwf'
    have htaken : leaveQueue a' slot (taken s slot v) = taken (leaveQueue a' slot s) slot v :=
      (leaveQueue_bayStep a' slot).taken left hv
    have hyb : tblGet (leaveQueue a' slot s).bac.bays (u8 c) = some y := by
      rw [leaveQueue, updBay_get, if_neg hne.symm, hy]
    rw [e, askEntry_eq (s := taken s slot v) hb hy' (hn _ (tblGet_mem hy) hne.symm) noBays oneQueue, if_neg (by simp),
      impliedExit, leaveQueues, leaveQueues, htaken]
    exact (exec_entryAsk_of_left left hb hyb a (fun x hx d hd => by
      obtain ⟨x0, hx0, _⟩ := left.places _ _ (tblGet_of_mem hwf' hx)
      obtain ⟨x1, hx1, hadm, _⟩ := leaveQueues_get (bs := [a']) (slot := slot) hx0
      rw [leaveQueues, leaveQueues] at hx1
      obtain rfl := Option.some.inj ((tblGet_of_mem hwf' hx).symm.trans hx1)
      exact hna _ (tblGet_mem hx0) d (hadm ▸ hd)) fun x hx => gone _ _ (tblGet_of_mem hwf' hx)).symm

end Asks

end Sys2Proof.Machine
end

section
/-! The expiries of a bay's yield timer and of a queue entry's starvation timer (R125, R126, R127). -/
namespace Sys2Proof.Machine

open Sys2Proof

variable {s t u x : State} {slot b c : Nat} {v w : Vehicle} {y : BayState}

/-! ## The element of a list that is chosen -/

section Best

variable {α β : Type}

theorem bestBy_split {before : α → α → Bool} {m : α} {pre post : List α} (hpre : ∀ x ∈ pre, before m x = true)
    (hpost : ∀ x ∈ post, before x m = false) : bestBy before (pre ++ m :: post) = some m := by
  induction pre with
  | nil =>
    rw [List.nil_append, bestBy]
    split
    · rfl
    · next z hz => rw [hpost z (bestBy_mem _ hz), if_neg Bool.false_ne_true]
  | cons x pre ih =>
    rw [List.cons_append, bestBy, ih fun z hz => hpre z (List.mem_cons_of_mem x hz)]
    exact if_pos (hpre x List.mem_cons_self)

theorem tblWf_split {l : Tbl β} (hw : tblWf l = true) {k : Nat} {r : β} (hm : (k, r) ∈ l) :
    ∃ pre post, l = pre ++ (k, r) :: post ∧ (∀ e ∈ pre, e.1 < k) ∧ ∀ e ∈ post, k < e.1 := by
  induction l with
  | nil => cases hm
  | cons e l ih =>
    obtain rfl | hin := List.mem_cons.1 hm
    · exact ⟨[], l, rfl, by simp, tblWf_head_lt hw⟩
    · obtain ⟨pre, post, he, h1, h2⟩ := ih (tblWf_tail hw) hin
      refine ⟨e :: pre, post, by rw [he, List.cons_append], fun d hd => ?_, h2⟩
      obtain rfl | hd := List.mem_cons.1 hd
      · exact tblWf_head_lt hw _ hin
      · exact h1 d hd

/-- The record chosen of a table: it comes before those in lower entries, and none in a higher entry comes before it. -/
theorem bestBy_record {before : Nat × β → Nat × β → Bool} {l : Tbl β} (hw : tblWf l = true) {k : Nat} {r : β}
    (hm : (k, r) ∈ l) (hlow : ∀ e ∈ l, e.1 < k → before (k, r) e = true)
    (hhigh : ∀ e ∈ l, k < e.1 → before e (k, r) = false) : bestBy before l = some (k, r) := by
  obtain ⟨pre, post, rfl, h1, h2⟩ := tblWf_split hw hm
  exact bestBy_split (fun e he => hlow e (List.mem_append_left _ he) (h1 e he))
    fun e he => hhigh e (List.mem_append_right _ (List.mem_cons_of_mem _ he)) (h2 e he)

theorem bestBy_eq_none {before : α → α → Bool} {l : List α} (h : ∀ x, x ∉ l) : bestBy before l = none := by
  rw [List.eq_nil_iff_forall_not_mem.2 h]
  rfl

theorem sentBefore_iff {far : Vehicle → Nat} {e d : Nat × Vehicle} :
    sentBefore far e d = true ↔ d.2.idleLevel.rank < e.2.idleLevel.rank ∨
      (d.2.idleLevel.rank = e.2.idleLevel.rank ∧ far e.2 < far d.2) := by
  simp only [sentBefore, Bool.or_eq_true, Bool.and_eq_true, decide_eq_true_eq]

end Best

/-! ## Eviction (R126) -/

section Eviction

theorem evictable_iff (hy : tblGet s.bac.bays b = some y) (hw : tblWf s.vht.vehicles = true) {k : Nat} :
    (k, v) ∈ evictable s b ↔ tblGet s.vht.vehicles k = some v ∧ Evictable y k v := by
  have hget : (k, v) ∈ s.vht.vehicles ↔ tblGet s.vht.vehicles k = some v := ⟨tblGet_of_mem hw, tblGet_mem⟩
  have hin : isInside s.bac b k = true ↔ ∃ a, y.admitted.find? (fun e => e.slot == k) = some a ∧ a.inside = true := by
    rw [isInside, entryIn_of_get hy, BayState.entryOf]
    cases y.admitted.find? (fun e => e.slot == k) <;> simp
  rw [evictable, List.mem_filter, hget, Bool.and_eq_true, hin, Evictable]
  simp [Vehicle.movable, Vehicle.inService, Vehicle.online, bothEmpty_iff, and_assoc]

theorem mem_evictionTargets (hw : tblWf s.bac.bays = true) : c ∈ evictionTargets s b ↔ EvictionTarget s b c := by
  have hget (z : BayState) : (c, z) ∈ s.bac.bays ↔ tblGet s.bac.bays c = some z := ⟨tblGet_of_mem hw, tblGet_mem⟩
  simp only [evictionTargets, List.mem_map, List.mem_filter, Prod.exists, exists_and_right, exists_eq_right,
    EvictionTarget, Bool.and_eq_true, bne_iff_ne, ne_eq, hasRoom_iff, hget]
  tauto

theorem evict_none (h : bestBy (sentBefore (fun _ => 0)) (evictable s b) = none ∨ evictionTargets s b = []) :
    evict b s = s := by
  obtain h | h := h
  · simp only [evict, h]
  · simp [evict, h, bestBy]

theorem evict_some {k : Nat} (h1 : bestBy (sentBefore (fun _ => 0)) (evictable s b) = some (k, v))
    (h2 : bestBy (fun x y => decide (downstream s.lyt (exitJunction s.lyt b) x < downstream s.lyt (exitJunction s.lyt b) y))
      (evictionTargets s b) = some c) : evict b s = sendMoveTo k c s := by
  simp only [evict, h1, h2]

theorem sendMoveTo_eq (hv : tblGet s.vht.vehicles slot = some v) (c : Nat) :
    sendMoveTo slot c s =
      withVehicle slot { v with target := some c, activity := .repositioning, idleLevel := .ready }
        (issue v.fleetId (.moveTo c c (parkPoint s.lyt c)) s) := by
  rw [sendMoveTo, issueTo_eq_issue _ hv]
  exact updVehicle_of_get (by rw [(issue_sendsOnly _ _).vht]; exact hv)

theorem restartYield_of_same (hy : tblGet s.bac.bays b = some y) (hn : t.now = s.now) (hb : t.bac = s.bac) :
    restartYield b t = withBay b { y with yield := some (timerFrom s s.bac.tYield) } t := by
  have hy' : tblGet t.bac.bays b = some y := by rw [hb]; exact hy
  have e : timerFrom s s.bac.tYield = startTimer t.now t.bac.tYield := by
    rw [hn, hb]
    rfl
  simp only [restartYield, hy', e]
  rfl

/-- The target chosen: the one that lies first downstream. -/
theorem target_chosen (hw : tblWf s.bac.bays = true) (hc : EvictionTarget s b c)
    (hfirst : ∀ d, EvictionTarget s b d → d ≠ c →
      downstream s.lyt (exitJunction s.lyt b) c < downstream s.lyt (exitJunction s.lyt b) d) :
    bestBy (fun x y => decide (downstream s.lyt (exitJunction s.lyt b) x < downstream s.lyt (exitJunction s.lyt b) y))
      (evictionTargets s b) = some c := by
  have hm := (mem_evictionTargets hw).2 hc
  obtain ⟨⟨c', z⟩, hz, rfl⟩ := List.mem_map.1 hm
  obtain ⟨pre, post, e, hpre, hpost⟩ := tblWf_split (tblWf_filter _ hw) hz
  have target (d : Nat × BayState) (hd : d ∈ pre ++ (c', z) :: post) : EvictionTarget s b d.1 := by
    rw [← e] at hd
    exact (mem_evictionTargets hw).1 (List.mem_map_of_mem hd)
  rw [evictionTargets, e, List.map_append, List.map_cons]
  refine bestBy_split (fun d hd => ?_) fun d hd => ?_
  · obtain ⟨q, hq, rfl⟩ := List.mem_map.1 hd
    exact decide_eq_true (hfirst _ (target q (by simp [hq])) (Nat.ne_of_lt (hpre q hq)))
  · obtain ⟨q, hq, rfl⟩ := List.mem_map.1 hd
    exact decide_eq_false (Nat.not_lt.2 (hfirst _ (target q (by simp [hq])) (Nat.ne_of_gt (hpost q hq))).le)

/-- The vehicle chosen: the deepest-resting, the lowest slot between equals. -/
theorem evicted_chosen (hw : tblWf s.vht.vehicles = true) (hy : tblGet s.bac.bays b = some y)
    (hv : tblGet s.vht.vehicles slot = some v) (he : Evictable y slot v)
    (hfirst : ∀ k w, tblGet s.vht.vehicles k = some w → Evictable y k w →
      w.idleLevel.rank < v.idleLevel.rank ∨ (w.idleLevel.rank = v.idleLevel.rank ∧ slot ≤ k)) :
    bestBy (sentBefore (fun _ => 0)) (evictable s b) = some (slot, v) := by
  have hwf : tblWf (evictable s b) = true := tblWf_filter _ hw
  refine bestBy_record hwf ((evictable_iff hy hw).2 ⟨hv, he⟩) (fun e hm hlt => ?_) fun e hm hlt => ?_
  · obtain ⟨hg, hev⟩ := (evictable_iff hy hw).1 hm
    refine sentBefore_iff.2 (.inl ?_)
    obtain h | h := hfirst e.1 e.2 hg hev
    · exact h
    · omega
  · obtain ⟨hg, hev⟩ := (evictable_iff hy hw).1 hm
    refine Bool.eq_false_iff.2 fun x => ?_
    have first := hfirst e.1 e.2 hg hev
    simp only [sentBefore_iff] at x
    omega

end Eviction

/-! ## Entry starvation (R127) -/

section Starvation

theorem exec_starve_of_due {a : Waiting} {l : Timer} (hy : tblGet s.bac.bays b = some y)
    (ha : y.queue.find? (fun e => e.slot == slot) = some a) (hl : a.starve = some l) (he : l.expiry ≤ s.now)
    (hs : l.start < l.expiry) : exec (.starvationTimerExpiry b slot) s = .next (starveEntry b slot s) := by
  refine if_pos ?_
  have hw : waitingIn s.bac b slot = some a := by
    simp only [waitingIn, hy]
    exact ha
  simp [starveDue, hw, hl, timerDue, Timer.due, he, hs]

/-- A bay whose queue entry of a vehicle has starved. -/
def starvedIn (slot : Nat) (y : BayState) : BayState :=
  { y with queue := y.queue.map (fun w => if w.slot = slot then { w with starved := true, starve := none } else w) }

/-- The state as a starved entry is marked and ENTRY_STARVED is raised, by the case that follows. -/
theorem starveEntry_eq (hv : tblGet s.vht.vehicles slot = some v) (hy : tblGet s.bac.bays b = some y) :
    ∃ x : BayState, (x.admitted = y.admitted ∧ x.capacity = y.capacity ∧ x.soft = y.soft ∧ x.quota = y.quota ∧
        x.isOpen = y.isOpen ∧
        x.queue = y.queue.map (fun e => if e.slot = slot then { e with starved := true, starve := none } else e)) ∧
      starveEntry b slot s =
        starvedCase b slot
          (raiseIncident (vehicleIncident s .entryStarved v v.activeHandle (some b)) (withBay b x s)) := by
  have hact : activeHandleAt s slot = v.activeHandle := by simp only [activeHandleAt, hv]
  have hmark : markStarved b slot s = _ := updBay_of_get (f := starvedIn slot) hy
  refine ⟨{ starvedIn slot y with yield := yieldAfter s.now s.bac.tYield y (starvedIn slot y) },
    ⟨rfl, rfl, rfl, rfl, rfl, rfl⟩, ?_⟩
  rw [starveEntry, hmark, hact, raiseVehicle_of_get (s := withBay b _ s) hv]
  rfl

/-- Once a starved entry has gone, whether it was marked makes no difference. -/
theorem starved_without {q r : List Waiting}
    (h : q = r.map (fun e => if e.slot = slot then { e with starved := true, starve := none } else e)) :
    q.filter (fun e => e.slot != slot) = r.filter (fun e => e.slot != slot) := by
  subst h
  induction r with
  | nil => rfl
  | cons a r ih =>
    by_cases ha : a.slot = slot
    · simp [ha, ih]
    · simp [ha, ih]

/-- Settles O49: the choices of R126, and the cases of R127. -/
theorem bayTimersEvictAndStarve : Obligations.BayTimersEvictAndStarve := by
  refine ⟨fun s b y l hy hl he hs hwv hwb => ⟨fun h => ?nothing, fun slot v c hv hev hdeep hc hfirst => ?evicts⟩,
    fun s b slot v y a l hv hy ha hl he hs => ?starves⟩
  case nothing =>
    have due : yieldDue s b = true := by simp [yieldDue, hy, hl, timerDue, Timer.due, he, hs]
    have hno : evict b s = s := by
      refine evict_none (h.imp (fun h => bestBy_eq_none fun e hm => ?_) fun h => List.eq_nil_iff_forall_not_mem.2 fun c hc => ?_)
      · obtain ⟨hg, hev⟩ := (evictable_iff hy hwv).1 hm
        exact h e.1 e.2 hg hev
      · exact h c ((mem_evictionTargets hwb).1 hc)
    refine (if_pos due).trans (congrArg _ ?_)
    rw [hno]
    exact restartYield_of_same hy rfl rfl
  case evicts =>
    have due : yieldDue s b = true := by simp [yieldDue, hy, hl, timerDue, Timer.due, he, hs]
    refine (if_pos due).trans (congrArg _ ?_)
    rw [evict_some (evicted_chosen hwv hy hv hev hdeep) (target_chosen hwb hc hfirst), sendMoveTo_eq hv]
    have sends := issue_sendsOnly v.fleetId (.moveTo c c (parkPoint s.lyt c))
    exact restartYield_of_same hy (sends.now s) (sends.bac s)
  case starves =>
    obtain ⟨x, hx, e⟩ := starveEntry_eq hv hy
    have hexec := exec_starve_of_due hy ha hl he hs
    rw [e] at hexec
    have told := raiseIncident_told (vehicleIncident s .entryStarved v v.activeHandle (some b)) (withBay b x s)
    refine ⟨_, _, x, hexec, rfl, hx, fun i h o hact hn ho => ⟨fun hst => ?kept, fun hst => ?aborted⟩,
      fun hnone => ⟨fun hidle => ?idle, fun hrep htarget => ?repositions⟩⟩
    all_goals generalize raiseIncident (vehicleIncident s .entryStarved v v.activeHandle (some b)) (withBay b x s) = u at told ⊢
    all_goals have hvu : tblGet u.vht.vehicles slot = some v := by rw [told.vht]; exact hv
    all_goals have hyu : tblGet u.bac.bays b = some x := by rw [told.bac]; exact withBay_get_self _ _
    case kept =>
      have hao := activeOrder_of_layer (x := u.ort) hact hn (by rw [told.ort]; exact ho)
      simp only [starvedCase, hvu, hao, if_neg hst]
    case aborted =>
      have hou : tblGet u.ort.orders h = some o := by rw [told.ort]; exact ho
      have aborted := starvedAborted_of_waiting (b := b) hou hvu hyu
      simp only [starvedCase, hvu, activeOrder_of_layer hact hn hou, if_pos hst]
      refine ⟨aborted.framed, aborted.record, fun k hk => ?_, aborted.lines, ?_, fun d hd => ?_, aborted.vht.trans told.vht,
        aborted.shm.trans told.shm, aborted.fcr⟩
      · rw [aborted.others k hk, told.ort]
        rfl
      · obtain ⟨z, hz, h1, h2⟩ := aborted.bay
        exact ⟨z, hz, h1.trans hx.1, h2.trans (starved_without hx.2.2.2.2.2)⟩
      · rw [aborted.bays d hd, told.bac]
        exact withBay_others _ s d hd
    case idle => simp only [starvedCase, hvu, activeOrder_eq_none hnone, if_neg hidle]
    case repositions =>
      have voided := voidStarved_voided hvu hyu
      have hget : tblGet (voidStarved b slot u).vht.vehicles slot = some v := by rw [voided.only]; exact hvu
      obtain ⟨only, hend, hothers⟩ := endReposition_ended hget
      have hnow : (voidStarved b slot u).now = s.now := by rw [voided.only]; exact told.now
      simp only [starvedCase, hvu, activeOrder_eq_none hnone, if_pos hrep]
      refine ⟨?_, ?_, ?_, hnow ▸ hend, fun k hk => ?_, ?_, fun d hd => ?_, ?_, ?_⟩
      · refine Framed.trans ?_ only.framed
        rw [voided.only]
        constructor <;> rfl
      · rw [only.eq, voided.only]
        exact told.ort
      · rw [only.eq]
        exact voided.lines
      · rw [hothers k hk, voided.only, told.vht]
        rfl
      · obtain ⟨z, hz, h1, h2⟩ := voided.bay
        rw [only.eq]
        exact ⟨z, hz, h1.trans hx.1, h2.trans (starved_without hx.2.2.2.2.2)⟩
      · rw [only.eq]
        refine (voided.bays d hd).trans ?_
        rw [told.bac]
        exact withBay_others _ s d hd
      · rw [only.eq, voided.only]
        exact told.shm
      · rw [only.eq, voided.only]

end Starvation

end Sys2Proof.Machine
end

section
/-! The expiries of the arbiter's, the vehicles' and the orders' timers (R72, R102, R107, R163). -/
namespace Sys2Proof.Machine

open Sys2Proof

variable {s t u x : State} {slot h : Nat} {v w : Vehicle} {o : Order} {i : LayerId} {l : Timer}

/-! ## The take timer (R107) -/

section Take

theorem timerDue_of (he : l.expiry ≤ s.now) (hs : l.start < l.expiry) : timerDue (some l) s.now = true := by
  simp [timerDue, Timer.due, he, hs]

/-- An incident about a vehicle, by the record it had before: its fleet id and its position are what it names. -/
theorem raiseVehicle_like {c : IncidentClass} {handle : Option Nat} {place : Option Endpoint} {code : Option Nat}
    (hw : tblGet t.vht.vehicles slot = some w) (hid : w.fleetId = v.fleetId) (hpos : w.position = v.position)
    (hnow : t.now = s.now) :
    raiseVehicle c slot handle place code t =
      raiseIncident { vehicleIncident s c v handle code with place := place } t := by
  rw [raiseVehicle_of_get hw, hid, hpos, hnow]
  rfl

theorem leftVehicle_load (now tTake : Nat) (i : LayerId) (v : Vehicle) :
    (leftVehicle now tTake i v).load = v.load := by
  unfold leftVehicle
  split <;> (try split) <;> (cases i <;> simp [Vehicle.withLayer])

theorem noTakeStall_eq (hv : tblGet s.vht.vehicles slot = some v) :
    noTakeStall slot s = if 3 ≤ v.noTakes then stallSet slot .recoverable .noTake v s else s := by
  simp only [noTakeStall, hv, setFaultStall_eq hv]

/-- The expiry of the take timer of a vehicle with one STAGED order (R107). -/
theorem takeExpiry_of_staged (hv : tblGet s.vht.vehicles slot = some v) (hl : v.layer i = .staged h)
    (hn : ∀ g, v.layer i.other ≠ .staged g) (ho : tblGet s.ort.orders h = some o) (hs : o.state = .assigned)
    (hloc : o.loc = some (slot, i)) (h3 : v.noTakes ≤ 3) :
    ∃ x y w, OrderReturned h o .queued (issue v.fleetId (.recall h i) s) x ∧
      w = { leftVehicle s.now s.vht.tTake i v with noTakes := min 3 (v.noTakes + 1) } ∧
      y = raiseIncident (vehicleIncident s .noTake v (some h) none) (withVehicle slot w x) ∧
      takeExpiry slot s = if 2 ≤ v.noTakes then stallSet slot .recoverable .noTake w y else y := by
  have back := recallStaged_of_staged hv hl hn ho hs
  have sends := issue_sendsOnly v.fleetId (.recall h i)
  obtain ⟨hid, htakes, _⟩ := leftVehicle_kept (now := s.now) (tTake := s.vht.tTake) (i := i) (v := v)
  obtain ⟨_, hpos, _⟩ := leftVehicle_faults s.now s.vht.tTake i v
  have hx : tblGet (recallStaged slot s).vht.vehicles slot = some (leftVehicle s.now s.vht.tTake i v) := by
    have e := back.vehicles slot
    simp only [sends.vht, hv, hloc, Option.map_some, if_true, sends.now] at e
    exact e
  have hnow : (recallStaged slot s).now = s.now := back.framed.now.trans (sends.now s)
  have e : takeExpiry slot s =
      noTakeStall slot (raiseVehicle .noTake slot (some h) none none
        (updVehicle slot (fun v => { v with noTakes := min 3 (v.noTakes + 1) }) (recallStaged slot s))) := by
    simp only [takeExpiry, hv, stagedLayer_of_layer hl hn]
  refine ⟨_, _, _, back, rfl, rfl, ?_⟩
  have hinc : raiseVehicle .noTake slot (some h) none none
      (withVehicle slot { leftVehicle s.now s.vht.tTake i v with noTakes := min 3 (v.noTakes + 1) } (recallStaged slot s)) =
        raiseIncident (vehicleIncident s .noTake v (some h) none)
          (withVehicle slot { leftVehicle s.now s.vht.tTake i v with noTakes := min 3 (v.noTakes + 1) }
            (recallStaged slot s)) :=
    raiseVehicle_like (withVehicle_get_self _ _ _) hid hpos hnow
  have hy : tblGet (raiseIncident (vehicleIncident s .noTake v (some h) none)
      (withVehicle slot { leftVehicle s.now s.vht.tTake i v with noTakes := min 3 (v.noTakes + 1) }
        (recallStaged slot s))).vht.vehicles slot =
      some { leftVehicle s.now s.vht.tTake i v with noTakes := min 3 (v.noTakes + 1) } := by
    rw [(raiseIncident_told _ _).vht]
    exact withVehicle_get_self _ _ _
  rw [e, updVehicle_of_get hx, htakes, hinc, noTakeStall_eq hy]
  exact ite_congr (propext (by simp only; omega)) (fun _ => rfl) fun _ => rfl

end Take

/-- Settles O53, timer by timer. -/
theorem timersExpire : Obligations.TimersExpire := by
  refine ⟨fun s l hl he hs => ?rescan, fun s slot v hv hidle => ⟨fun hon hr hlt hle => ?park, fun hon hr hlt hle => ?dormant⟩,
    fun s slot v l i h o hv hl he hs hst hn ho hos hloc h3 => ?take, fun s slot v hv h3 hf => ?limit,
    fun s h o l slot i v ho hl he hs hloc hv => ?orphan⟩
  case rescan =>
    have due : timerDue s.asa.rescan s.now = true := by
      rw [hl]
      exact timerDue_of he hs
    refine ⟨_, fun hq => ?_, fun hq => ?_, if_pos due⟩
    · exact if_pos (queuedCount_pos.2 hq)
    · exact if_neg fun x => by
        obtain ⟨e, hm, hst⟩ := queuedCount_pos.1 x
        exact hq e hm hst
  case park =>
    have due : parkDue s.vht s.now v = true := by
      simp [parkDue, parkHolds, parkTime, satTime, timeMax, Timer.due, hidle, hon, hr]
      omega
    simp only [exec, execParkStep, hv, due, if_true, updVehicle_of_get hv]
  case dormant =>
    have due : dormDue s.vht s.now v = true := by
      simp [dormDue, dormHolds, dormTime, satTime, timeMax, Timer.due, hidle, hon, hr]
      omega
    simp only [exec, execDormantStep, hv, due, if_true, updVehicle_of_get hv]
  case take =>
    obtain ⟨x, y, w, back, hw, hy, e⟩ := takeExpiry_of_staged hv hst hn ho hos hloc h3
    have due : takeDue s slot = true := by
      simp only [takeDue, hv, hl]
      exact timerDue_of he hs
    refine ⟨_, x, y, w, if_pos due, back, hw, hy, e, fun h2 => ?_⟩
    simp only [exec, execNoTakeLimit, hv, h2, due, and_self, if_true]
    exact if_neg (by omega)
  case limit =>
    have e : noTakeStall slot s = stallSet slot .recoverable .noTake v s := by
      rw [noTakeStall_eq hv, if_pos (by omega)]
    simp only [exec, execNoTakeLimit, hv, h3, hf, le_refl, and_self, if_true, e]
  case orphan =>
    have due : orphanDue s h = true := by
      simp only [orphanDue, ho, hl]
      exact timerDue_of he hs
    have ended := endOrder_ended (st := .failed) ho (by decide) .orphaned
    obtain ⟨hid, _⟩ := leftVehicle_kept (now := s.now) (tTake := s.vht.tTake) (i := i) (v := v)
    obtain ⟨_, hpos, _⟩ := leftVehicle_faults s.now s.vht.tTake i v
    have hx : tblGet (endOrder h .failed .orphaned s).vht.vehicles slot = some (leftVehicle s.now s.vht.tTake i v) := by
      have e := ended.vehicles slot
      simp only [hv, hloc, Option.map_some, if_true] at e
      exact e
    have hinc := raiseVehicle_like (c := .orphanExpired) (handle := some h) (place := o.dest) (code := none) hx hid hpos
      ended.framed.now
    refine ⟨_, _, _, _, (if_pos due).trans (congrArg _ ?_), ended, hx, rfl, rfl⟩
    have hy : tblGet (raiseIncident { vehicleIncident s .orphanExpired v (some h) none with place := o.dest }
        (endOrder h .failed .orphaned s)).vht.vehicles slot = some (leftVehicle s.now s.vht.tTake i v) := by
      rw [(raiseIncident_told _ _).vht]
      exact hx
    simp only [orphanExpiry, ho, hloc]
    rw [hinc, orphanStall]
    simp only [hy, leftVehicle_load, setFaultStall_eq hy]

end Sys2Proof.Machine
end

section
/-! GWRDY falling: the loss of every ONLINE vehicle at once (R50, R52, R128, R163, R165, R166). -/
namespace Sys2Proof.Machine

open Sys2Proof

variable {s t u x : State} {slot h : Nat} {v w : Vehicle} {o p : Order} {i : LayerId}

/-! ## What the loss of a vehicle sends and raises: notices alone -/

section Quiet

/-- Of the lines and the capture only the notices have changed. -/
def Noticed (s t : State) : Prop := LinesTold s t ∧ t.fcr = s.fcr

theorem Noticed.trans (h : Noticed s t) (k : Noticed t u) : Noticed s u := ⟨h.1.trans k.1, k.2.trans h.2⟩

theorem Noticed.of_eq (hl : t.liu = s.liu) (hf : t.fcr = s.fcr) : Noticed s t := ⟨.of_eq hl, hf⟩

theorem queueNotice_noticed (n : Notice) (s : State) : Noticed s (queueNotice n s) :=
  ⟨queueNotice_linesTold n s, queueNotice_fcr n s⟩

theorem Noticed.setExamIf (h : Noticed s t) (b : Bool) : Noticed s (setExamIf b t) := by
  cases b <;> exact h

theorem moveOrder_noticed (h : Nat) (f : Order → Order) (st : OrderState) (why : OrderReason) (left : Option Nat)
    (s : State) : Noticed s (moveOrder h f st why left s) := by
  cases ho : tblGet s.ort.orders h with
  | none =>
    rw [show moveOrder h f st why left s = s by simp only [moveOrder, ho]]
    exact .of_eq rfl rfl
  | some o =>
    rw [moveOrder_eq ho]
    refine Noticed.trans (t := putOrder h (enterState s.now st (f (leaveState s.now o))) s) (.of_eq rfl rfl)
      ((queueNotice_noticed _ _).setExamIf _)

theorem returnOrder_noticed (h : Nat) (st : OrderState) (s : State) : Noticed s (returnOrder h st s) := by
  cases ho : tblGet s.ort.orders h with
  | none =>
    rw [show returnOrder h st s = s by simp only [returnOrder, ho]]
    exact .of_eq rfl rfl
  | some o =>
    obtain ⟨_, hl, _, _, _, hf, _⟩ :=
      leaveRelease_facts (leaveVehicle_only o.loc s) (releaseGrantClaims_only h o (leaveVehicle o.loc s))
    have e : returnOrder h st s =
        moveOrder h offVehicle st .none (carrierId s o.loc) (releaseGrantClaims h o (leaveVehicle o.loc s)) := by
      simp only [returnOrder, ho]
    rw [e]
    exact Noticed.trans (.of_eq hl hf) (moveOrder_noticed _ _ _ _ _ _)

theorem endNotices_linesTold (h : Nat) (o : Order) (st : OrderState) (why : EndReason) (s : State) :
    LinesTold s (endNotices h o st why s) := by
  unfold endNotices
  generalize batchClosed s o = c
  cases c with
  | none => exact queueNotice_linesTold _ _
  | some c => exact (queueNotice_linesTold _ _).trans (queueNotice_linesTold _ _)

theorem endOrder_noticed {st : OrderState} (hst : st ≠ .queued) (h : Nat) (why : EndReason) (s : State) :
    Noticed s (endOrder h st why s) := by
  cases ho : tblGet s.ort.orders h with
  | none =>
    rw [show endOrder h st why s = s by simp only [endOrder, ho]]
    exact .of_eq rfl rfl
  | some o =>
    have e := endOrder_ended (s := s) ho hst why
    exact ⟨(endNotices_linesTold h o st why s).trans (.of_eq e.lines), e.kept.2⟩

theorem loseStaged_noticed (slot : Nat) (s : State) : Noticed s (loseStaged slot s) := by
  unfold loseStaged
  split
  · split
    · exact returnOrder_noticed _ _ s
    · exact .of_eq rfl rfl
  · exact .of_eq rfl rfl

theorem loseActive_noticed (slot : Nat) (s : State) : Noticed s (loseActive slot s) := by
  unfold loseActive
  split
  · split
    · split
      case h_1 => exact returnOrder_noticed _ _ s
      case h_2 => exact endOrder_noticed (by decide) _ _ s
      case h_6 =>
        unfold updOrder
        split <;> exact .of_eq rfl rfl
      case h_3 | h_4 | h_5 => exact moveOrder_noticed _ _ _ _ _ s
      all_goals exact .of_eq rfl rfl
    · exact .of_eq rfl rfl
  · exact .of_eq rfl rfl

end Quiet

/-! ## One vehicle lost, where no bay holds a queue or a GRANTED entry -/

section One

/-- No bay holds a queue entry or a GRANTED entry. -/
def PlacesInside (s : State) : Prop := ∀ e ∈ s.bac.bays, e.2.queue = [] ∧ ∀ a ∈ e.2.admitted, a.inside = true

/-- What no loss changes of a vehicle's record. -/
structure RecordKept (v w : Vehicle) : Prop where
  fleetId : w.fleetId = v.fleetId
  load : w.load = v.load
  position : w.position = v.position
  hostStall : w.hostStall = v.hostStall
  faultStall : w.faultStall = v.faultStall

theorem RecordKept.refl (v : Vehicle) : RecordKept v v := ⟨rfl, rfl, rfl, rfl, rfl⟩

theorem RecordKept.trans {z : Vehicle} (h : RecordKept v w) (k : RecordKept w z) : RecordKept v z :=
  ⟨k.1.trans h.1, k.2.trans h.2, k.3.trans h.3, k.4.trans h.4, k.5.trans h.5⟩

/-- Every vehicle's record is kept, its link and its silence timer too. -/
def LinksKept (s t : State) : Prop :=
  ∀ k v, tblGet s.vht.vehicles k = some v →
    ∃ w, tblGet t.vht.vehicles k = some w ∧ RecordKept v w ∧ w.link = v.link ∧ w.silence = v.silence

theorem LinksKept.trans (h : LinksKept s t) (k : LinksKept t u) : LinksKept s u := by
  intro j v hv
  obtain ⟨w, hw, h1, h2, h3⟩ := h j v hv
  obtain ⟨z, hz, k1, k2, k3⟩ := k j w hw
  exact ⟨z, hz, h1.trans k1, k2.trans h2, k3.trans h3⟩

theorem LinksKept.of_eq (h : t.vht = s.vht) : LinksKept s t := by
  intro k v hv
  rw [h]
  exact ⟨v, hv, .refl v, rfl, rfl⟩

theorem leftVehicle_record (now tTake : Nat) (i : LayerId) (v : Vehicle) : RecordKept v (leftVehicle now tTake i v) := by
  unfold leftVehicle
  split <;> (try split) <;> (cases i <;> exact ⟨rfl, rfl, rfl, rfl, rfl⟩)

theorem LayersLeft.links (l : LayersLeft s t) : LinksKept s t := by
  obtain ⟨⟨loc, hl⟩, _⟩ := l
  intro k v hv
  have e := hl k
  rw [hv, Option.map_some] at e
  refine ⟨_, e, ?_⟩
  split
  · next j i =>
    split
    · obtain ⟨_, _, h2, h3⟩ := leftVehicle_kept (now := s.now) (tTake := s.vht.tTake) (i := i) (v := v)
      exact ⟨leftVehicle_record _ _ _ _, h2, h3⟩
    · exact ⟨.refl v, rfl, rfl⟩
  · exact ⟨.refl v, rfl, rfl⟩

theorem repositionEnded_record (now : Nat) (v : Vehicle) :
    RecordKept v (repositionEnded now v) ∧ (repositionEnded now v).link = v.link ∧
      (repositionEnded now v).silence = v.silence := by
  unfold repositionEnded
  split
  · exact ⟨.refl v, rfl, rfl⟩
  · split <;> exact ⟨⟨rfl, rfl, rfl, rfl, rfl⟩, rfl, rfl⟩

theorem endReposition_links (slot : Nat) (s : State) : LinksKept s (endReposition slot s) := by
  cases hv : tblGet s.vht.vehicles slot with
  | none =>
    rw [show endReposition slot s = s by simp only [endReposition, hv]]
    exact .of_eq rfl
  | some v =>
    obtain ⟨_, hw, hothers⟩ := endReposition_ended hv
    intro k z hz
    by_cases hk : k = slot
    · subst hk
      obtain rfl := Option.some.inj (hv.symm.trans hz)
      exact ⟨_, hw, repositionEnded_record _ _⟩
    · exact ⟨z, (hothers k hk).trans hz, .refl z, rfl, rfl⟩

theorem endReposition_others (slot : Nat) (s : State) : otherVehiclesKept slot s (endReposition slot s) := by
  cases hv : tblGet s.vht.vehicles slot with
  | none =>
    rw [show endReposition slot s = s by simp only [endReposition, hv]]
    exact fun _ _ => rfl
  | some v => exact (endReposition_ended hv).2.2

theorem losePlaces_of_inside (h : PlacesInside s) (slot : Nat) : losePlaces slot s = s := by
  have noQueues : waitingBays s.bac slot = [] := waitingBays_of_none fun e he w hw => by
    rw [(h e he).1] at hw
    cases hw
  have noGrants : grantedBays s.bac slot = [] := by
    refine List.eq_nil_iff_forall_not_mem.2 fun b hb => ?_
    obtain ⟨_, a, ha, hi⟩ := mem_grantedBays.1 hb
    unfold entryIn at ha
    split at ha
    · next y hy => exact absurd ((h _ (tblGet_mem hy)).2 a (entryOf_mem ha).1) (by simp [hi])
    · cases ha
  rw [losePlaces, noQueues, noGrants]
  rfl

/-- The loss of the ONLINE vehicle `v` in `slot`, as the line drops. -/
def lineLost (slot : Nat) (s : State) : State := loseVehicle slot (dropLink slot .lineDown s)

theorem dropLink_noticed (slot : Nat) (why : OfflineReason) (s : State) : Noticed s (dropLink slot why s) := by
  cases hv : tblGet s.vht.vehicles slot with
  | none =>
    rw [show dropLink slot why s = s by simp only [dropLink, updVehicle, vehicleNotice, hv]]
    exact .of_eq rfl rfl
  | some v =>
    rw [dropLink_eq hv]
    exact Noticed.trans (.of_eq rfl rfl) (queueNotice_noticed _ _)

theorem endReposition_only (slot : Nat) (s : State) : OnlyVehicles s (endReposition slot s) := by
  cases hv : tblGet s.vht.vehicles slot with
  | none =>
    rw [show endReposition slot s = s by simp only [endReposition, hv]]
    exact .refl s
  | some v => exact (endReposition_ended hv).1

theorem lineLost_eq (hv : tblGet s.vht.vehicles slot = some v) (hin : PlacesInside s) :
    lineLost slot s = endReposition slot (loseActive slot (loseStaged slot (dropLink slot .lineDown s))) := by
  have hbac : (loseActive slot (loseStaged slot (dropLink slot .lineDown s))).bac = s.bac := by
    rw [(loseActive_left slot _).2, (loseStaged_left slot _).2, dropLink_eq hv, (queueNotice_told _ _).bac]
    rfl
  rw [lineLost, loseVehicle, losePlaces_of_inside]
  unfold PlacesInside
  rw [hbac]
  exact hin

theorem lineLost_kept (hv : tblGet s.vht.vehicles slot = some v) (hin : PlacesInside s) :
    Noticed s (lineLost slot s) ∧ (lineLost slot s).bac = s.bac ∧
      (∃ w, tblGet (lineLost slot s).vht.vehicles slot = some w ∧ RecordKept v w ∧ w.link = .offline .lineDown ∧
        w.silence = none) ∧
      ∀ k z, k ≠ slot → tblGet s.vht.vehicles k = some z →
        ∃ w, tblGet (lineLost slot s).vht.vehicles k = some w ∧ RecordKept z w ∧ w.link = z.link ∧ w.silence = z.silence := by
  rw [lineLost_eq hv hin]
  have hd := dropLink_eq (why := .lineDown) hv
  have told := queueNotice_told (.vehicleState v.fleetId slot .lost (.offline .lineDown) v.hostStall v.faultStall v.lastFault)
    (withVehicle slot { v with link := .offline .lineDown, silence := none } s)
  rw [← hd] at told
  have l1 := loseStaged_left slot (dropLink slot .lineDown s)
  have l2 := loseActive_left slot (loseStaged slot (dropLink slot .lineDown s))
  have links := (l1.links.trans l2.links).trans (endReposition_links slot _)
  have hend : Noticed (loseActive slot (loseStaged slot (dropLink slot .lineDown s)))
      (endReposition slot (loseActive slot (loseStaged slot (dropLink slot .lineDown s)))) ∧
      (endReposition slot (loseActive slot (loseStaged slot (dropLink slot .lineDown s)))).bac =
        (loseActive slot (loseStaged slot (dropLink slot .lineDown s))).bac := by
    rw [(endReposition_only slot _).eq]
    exact ⟨.of_eq rfl rfl, rfl⟩
  have first : tblGet (dropLink slot .lineDown s).vht.vehicles slot =
      some { v with link := .offline .lineDown, silence := none } := by
    rw [told.vht]
    exact withVehicle_get_self _ _ _
  refine ⟨(dropLink_noticed _ _ _).trans ((loseStaged_noticed _ _).trans ((loseActive_noticed _ _).trans hend.1)), ?_, ?_,
    fun k z hk hz => ?_⟩
  · rw [hend.2, l2.2, l1.2, told.bac]
    rfl
  · obtain ⟨w, hw, h1, h2, h3⟩ := links slot _ first
    exact ⟨w, hw, ⟨h1.1, h1.2, h1.3, h1.4, h1.5⟩, h2, h3⟩
  · refine links k z ?_
    rw [told.vht]
    exact (withVehicle_others _ _ _ k hk).trans hz

end One

/-! ## The vehicles lost one after another -/

section Loop

theorem loseOnline_cons_online {ks : List Nat} (hv : tblGet s.vht.vehicles slot = some v) (hl : v.link = .online) :
    loseOnline (slot :: ks) s = loseOnline ks (lineLost slot s) := by
  have hon : v.online = true := by simpa [Vehicle.online] using hl
  simp only [loseOnline, hv, hon, if_true, lineLost]

theorem loseOnline_cons_other {ks : List Nat}
    (h : ∀ v, tblGet s.vht.vehicles slot = some v → v.link ≠ .online) : loseOnline (slot :: ks) s = loseOnline ks s := by
  cases hv : tblGet s.vht.vehicles slot with
  | none => simp only [loseOnline, hv]
  | some v =>
    have hoff : v.online = false := by simpa [Vehicle.online] using h v hv
    simp only [loseOnline, hv, hoff, Bool.false_eq_true, if_false]

/-- The vehicles in these slots that were ONLINE are lost, the others are as they were, and nothing is sent. -/
theorem loseOnline_kept (ks : List Nat) (hin : PlacesInside s) :
    Noticed s (loseOnline ks s) ∧ (loseOnline ks s).bac = s.bac ∧
      ∀ k v, tblGet s.vht.vehicles k = some v →
        ∃ w, tblGet (loseOnline ks s).vht.vehicles k = some w ∧ RecordKept v w ∧
          (v.link = .online → k ∈ ks → w.link = .offline .lineDown ∧ w.silence = none) ∧
          (v.link ≠ .online → w.link = v.link ∧ w.silence = v.silence) := by
  induction ks generalizing s with
  | nil => exact ⟨.of_eq rfl rfl, rfl, fun k v hv => ⟨v, hv, .refl v, fun _ hk => absurd hk List.not_mem_nil, fun _ => ⟨rfl, rfl⟩⟩⟩
  | cons slot ks ih =>
    by_cases hon : ∃ v, tblGet s.vht.vehicles slot = some v ∧ v.link = .online
    · obtain ⟨v, hv, hl⟩ := hon
      obtain ⟨told, hbac, ⟨w, hw, wrec, wlink, wsil⟩, hothers⟩ := lineLost_kept hv hin
      obtain ⟨told', hbac', each⟩ := ih (s := lineLost slot s) (by rw [PlacesInside, hbac]; exact hin)
      rw [loseOnline_cons_online hv hl]
      refine ⟨told.trans told', hbac'.trans hbac, fun k z hz => ?_⟩
      by_cases hk : k = slot
      · subst hk
        obtain rfl := Option.some.inj (hv.symm.trans hz)
        obtain ⟨w', hw', r, _, hoff⟩ := each k w hw
        obtain ⟨h1, h2⟩ := hoff (by simp [wlink])
        exact ⟨w', hw', wrec.trans r, fun _ _ => ⟨h1.trans wlink, h2.trans wsil⟩, fun h => absurd hl h⟩
      · obtain ⟨z1, hz1, r1, l1, s1⟩ := hothers k z hk hz
        obtain ⟨w', hw', r, hon, hoff⟩ := each k z1 hz1
        refine ⟨w', hw', r1.trans r, fun h hm => hon (l1.trans h) ?_, fun h => ?_⟩
        · exact (List.mem_cons.1 hm).resolve_left hk
        · obtain ⟨h1, h2⟩ := hoff (by rw [l1]; exact h)
          exact ⟨h1.trans l1, h2.trans s1⟩
    · rw [loseOnline_cons_other fun v hv hl => hon ⟨v, hv, hl⟩]
      obtain ⟨told, hbac, each⟩ := ih hin
      refine ⟨told, hbac, fun k v hv => ?_⟩
      obtain ⟨w, hw, r, h1, h2⟩ := each k v hv
      refine ⟨w, hw, r, fun hl hm => h1 hl ((List.mem_cons.1 hm).resolve_left fun hk => ?_), h2⟩
      subst hk
      exact hon ⟨v, hv, hl⟩

end Loop

/-! ## What becomes of the orders, where layers and orders agree -/

section Agreement

/-- What becomes of an order on a lost vehicle, by its state (R165). -/
def lostRecord (s : State) (o : Order) : Order :=
  match o.state with
  | .assigned | .toSource => returnedOrder s.now .queued o
  | .cancelling =>
    { o with
      state := .cancelled, endedAt := some s.now, endReason := some .cancelledByHost, loc := none, prior := none
      abortPending := false, suspendReason := none, orphan := none }
  | .picking | .carrying | .placing => suspendedOrder s .lost o
  | .suspended => { o with suspendReason := some .lost }
  | .queued | .held | .served | .done | .failed | .cancelled => o

theorem lostRecord_congr (hn : t.now = s.now) (ho : t.fcr.tOrphan = s.fcr.tOrphan) (o : Order) :
    lostRecord t o = lostRecord s o := by
  unfold lostRecord suspendedOrder timerFrom
  rw [hn, ho]

theorem lostRecord_loc (s : State) (o : Order) : (lostRecord s o).loc = none ∨ (lostRecord s o).loc = o.loc := by
  unfold lostRecord
  split
  all_goals first | exact .inl rfl | exact .inr rfl

theorem loseStaged_orders (a : Agreed s) (hv : tblGet s.vht.vehicles slot = some v) :
    otherVehiclesKept slot s (loseStaged slot s) ∧
      (∀ h, (∀ i, v.layer i ≠ .staged h) → tblGet (loseStaged slot s).ort.orders h = tblGet s.ort.orders h) ∧
      (∀ i h o, v.layer i = .staged h → tblGet s.ort.orders h = some o →
        tblGet (loseStaged slot s).ort.orders h = some (returnedOrder s.now .queued o)) ∧
      ∃ w, tblGet (loseStaged slot s).vht.vehicles slot = some w ∧ ∀ i h, w.layer i = .active h ↔ v.layer i = .active h := by
  have returned := loseStaged_returned hv
  cases hst : v.stagedLayer with
  | none =>
    have hn := stagedLayer_eq_none_iff.1 hst
    rw [returned.1 hn]
    exact ⟨fun _ _ => rfl, fun _ _ => rfl, fun i h o hl => absurd hl (hn i h), v, hv, fun _ _ => .rfl⟩
  | some e =>
    obtain ⟨g, j⟩ := e
    have hj := layer_of_stagedLayer hst
    have hn := (a.sound slot v hv).oneStaged j g
    obtain ⟨q, hq, hloc, hs⟩ := a.staged_order hv hj
    have back : OrderReturned g q .queued s (loseStaged slot s) := by
      have := returned.2 j g q hj (fun k => hn k hj) hq hs hloc
      exact this
    refine ⟨fun k hk => ?_, fun h hh => back.others h fun e => hh j (e ▸ hj), fun i h o hl ho => ?_, ?_⟩
    · have e := back.vehicles k
      rw [hloc] at e
      simp only [if_neg hk, Option.map_id'] at e
      exact e
    · obtain rfl | rfl := LayerId.eq_or_other j i
      · obtain rfl : g = h := by simpa [hj] using hl
        obtain rfl := Option.some.inj (hq.symm.trans ho)
        exact back.record
      · exact absurd hl (hn h hj)
    · have e := back.vehicles slot
      simp only [hloc, hv, Option.map_some, if_true] at e
      refine ⟨_, e, fun i h => ?_⟩
      obtain rfl | rfl := LayerId.eq_or_other j i
      · simp [hj]
      · rw [leftVehicle_layer_other]

theorem loseActive_orders (a : Agreed s) (hv : tblGet s.vht.vehicles slot = some v) :
    otherVehiclesKept slot s (loseActive slot s) ∧
      (∀ h, (∀ i, v.layer i ≠ .active h) → tblGet (loseActive slot s).ort.orders h = tblGet s.ort.orders h) ∧
      ∀ i h o, v.layer i = .active h → tblGet s.ort.orders h = some o →
        tblGet (loseActive slot s).ort.orders h = some (lostRecord s o) := by
  cases hact : v.activeLayer with
  | none =>
    have hn := activeLayer_eq_none_iff.1 hact
    rw [loseActive_of_none hv hn]
    exact ⟨fun _ _ => rfl, fun _ _ => rfl, fun i h o hl => absurd hl (hn i h)⟩
  | some e =>
    obtain ⟨g, j⟩ := e
    have hj := layer_of_activeLayer hact
    have hn := (a.sound slot v hv).oneActive j g
    obtain ⟨q, hq, hloc, hna, hon⟩ := a.active_order hv hj
    have hao := activeOrder_of_layer hj (fun k => hn k hj) hq
    have done (step : otherVehiclesKept slot s (loseActive slot s) ∧ otherOrdersKept g s (loseActive slot s) ∧
        tblGet (loseActive slot s).ort.orders g = some (lostRecord s q)) :
        otherVehiclesKept slot s (loseActive slot s) ∧
          (∀ h, (∀ i, v.layer i ≠ .active h) → tblGet (loseActive slot s).ort.orders h = tblGet s.ort.orders h) ∧
          ∀ i h o, v.layer i = .active h → tblGet s.ort.orders h = some o →
            tblGet (loseActive slot s).ort.orders h = some (lostRecord s o) := by
      obtain ⟨h1, h2, h3⟩ := step
      refine ⟨h1, fun h hh => h2 h fun e => hh j (e ▸ hj), fun i h o hl ho => ?_⟩
      obtain rfl | rfl := LayerId.eq_or_other j i
      · obtain rfl : g = h := by simpa [hj] using hl
        obtain rfl := Option.some.inj (hq.symm.trans ho)
        exact h3
      · exact absurd hl (hn h hj)
    have left {t : State} (h : layerLeft q.loc s t) : otherVehiclesKept slot s t := fun k hk => by
      have e := h k
      rw [hloc] at e
      simp only [if_neg hk, Option.map_id'] at e
      exact e
    refine done ?_
    cases hs : q.state with
    | toSource =>
      have back := returnOrder_returned (s := s) hq (by simp [hs]) .queued
      rw [loseActive_toSource hv hao hs]
      refine ⟨left back.vehicles, back.others, ?_⟩
      rw [lostRecord, hs]
      exact back.record
    | cancelling =>
      have ended := endOrder_ended (s := s) (st := .cancelled) hq (by decide) .cancelledByHost
      rw [loseActive_cancelling hv hao hs]
      refine ⟨left ended.vehicles, ended.others, ended.record.trans ?_⟩
      simp [lostRecord, hs, ageAt]
    | picking | carrying | placing =>
      have step := suspendOrder_stepped (s := s) hq (by simp [hs]) .lost
      rw [loseActive_carrier hv hao (by simp [hs])]
      refine ⟨fun k _ => by rw [step.kept.2.1], step.others, ?_⟩
      rw [lostRecord, hs]
      exact step.record
    | suspended =>
      rw [loseActive_suspended hv hao hs, updOrder_of_get hq]
      refine ⟨fun _ _ => rfl, putOrder_others _ _ _, ?_⟩
      rw [lostRecord, hs, putOrder_get_self]
    | assigned => exact absurd hs hna
    | queued | held | served | done | failed | cancelled => simp [hs, OrderState.onVehicle] at hon

/-- The loss of one vehicle changes the orders it holds and no other. -/
theorem lineLost_orders (a : Agreed s) (hin : PlacesInside s) (hv : tblGet s.vht.vehicles slot = some v) :
    otherVehiclesKept slot s (lineLost slot s) ∧
      (∀ h, (∀ i, ¬(v.layer i).holds h) → tblGet (lineLost slot s).ort.orders h = tblGet s.ort.orders h) ∧
      ∀ i h o, (v.layer i).holds h → tblGet s.ort.orders h = some o →
        tblGet (lineLost slot s).ort.orders h = some (lostRecord s o) := by
  have a1 := (((dropLink_careful (A := True) slot .lineDown s).fleet trivial) a).1
  have hd := dropLink_eq (why := .lineDown) hv
  have told := queueNotice_told (.vehicleState v.fleetId slot .lost (.offline .lineDown) v.hostStall v.faultStall v.lastFault)
    (withVehicle slot { v with link := .offline .lineDown, silence := none } s)
  have hsame : tblGet (dropLink slot .lineDown s).vht.vehicles slot =
      some { v with link := .offline .lineDown, silence := none } := by
    rw [hd, told.vht]
    exact withVehicle_get_self _ _ _
  have hort : (dropLink slot .lineDown s).ort = s.ort := by
    rw [hd, told.ort]
    rfl
  have dother : otherVehiclesKept slot s (dropLink slot .lineDown s) := fun k hk => by
    rw [hd, told.vht]
    exact withVehicle_others _ _ _ k hk
  have dframed := (dropLink_steady slot .lineDown s).framed
  rw [lineLost_eq hv hin]
  generalize dropLink slot .lineDown s = u at a1 hsame hort dother dframed
  have hlayer : ∀ i, ({ v with link := .offline .lineDown, silence := none } : Vehicle).layer i = v.layer i := fun i => by
    cases i <;> rfl
  obtain ⟨s1, s2, s3, w, hw, hwl⟩ := loseStaged_orders a1 hsame
  have a2 := ((loseStaged_careful (A := True) slot u).fleet trivial a1).1
  have sframed := (loseStaged_steady slot u).framed
  generalize loseStaged slot u = x at s1 s2 s3 hw a2 sframed
  obtain ⟨t1, t2, t3⟩ := loseActive_orders a2 hw
  have only := endReposition_only slot (loseActive slot x)
  have eother : otherVehiclesKept slot (loseActive slot x) (endReposition slot (loseActive slot x)) := endReposition_others _ _
  have eort : (endReposition slot (loseActive slot x)).ort = (loseActive slot x).ort := by rw [only.eq]
  refine ⟨fun k hk => (eother k hk).trans ((t1 k hk).trans ((s1 k hk).trans (dother k hk))), fun h hh => ?_,
    fun i h o hl ho => ?_⟩
  · rw [eort, t2 h fun i hi => hh i (.inr (by rw [← hlayer]; exact (hwl i h).1 hi)),
      s2 h fun i hi => hh i (.inl (by rw [← hlayer]; exact hi)), hort]
  · obtain ⟨o', ho', hloc, hiff⟩ := a.layers slot v i h hv hl
    obtain rfl := Option.some.inj (ho.symm.trans ho')
    rw [eort]
    have unique {j : LayerId} (hj : (v.layer j).holds h) : j = i := (a.layer_unique hv hv hj hl).2
    obtain hl | hl := hl
    · rw [t2 h fun j hj => ?_, s3 i h o (by rw [hlayer]; exact hl) (by rw [hort]; exact ho), lostRecord, hiff.2 hl,
        dframed.now]
      have hj' : v.layer j = .active h := by rw [← hlayer]; exact (hwl j h).1 hj
      rw [unique (.inr hj'), hl] at hj'
      cases hj'
    · have hx : tblGet x.ort.orders h = some o := by
        rw [s2 h fun j hj => ?_, hort]
        · exact ho
        · have hj' : v.layer j = .staged h := by rw [← hlayer]; exact hj
          rw [unique (.inl hj'), hl] at hj'
          cases hj'
      rw [t3 i h o ((hwl i h).2 (by rw [hlayer]; exact hl)) hx]
      exact congrArg some (lostRecord_congr (sframed.now.trans dframed.now) (sframed.tOrphan.trans dframed.tOrphan) o)

theorem loseOnline_orders (ks : List Nat) (hk : ks.Nodup) (a : Agreed s) (hin : PlacesInside s) :
    (∀ h, (∀ k ∈ ks, ∀ v, tblGet s.vht.vehicles k = some v → v.link = .online → ∀ i, ¬(v.layer i).holds h) →
      tblGet (loseOnline ks s).ort.orders h = tblGet s.ort.orders h) ∧
    ∀ h o k i v, k ∈ ks → tblGet s.vht.vehicles k = some v → v.link = .online → (v.layer i).holds h →
      tblGet s.ort.orders h = some o → tblGet (loseOnline ks s).ort.orders h = some (lostRecord s o) := by
  induction ks generalizing s with
  | nil => exact ⟨fun _ _ => rfl, fun _ _ _ _ _ hm => absurd hm List.not_mem_nil⟩
  | cons slot ks ih =>
    obtain ⟨hslot, hk⟩ := List.nodup_cons.1 hk
    by_cases hon : ∃ v, tblGet s.vht.vehicles slot = some v ∧ v.link = .online
    · obtain ⟨v, hv, hl⟩ := hon
      obtain ⟨hother, hkept, hlost⟩ := lineLost_orders a hin hv
      have a' : Agreed (lineLost slot s) :=
        (((dropLink_careful (A := True) slot .lineDown s).trans (loseVehicle_careful slot _)).fleet trivial a).1
      have framed : Framed s (lineLost slot s) :=
        (dropLink_steady slot .lineDown s).framed.trans (loseVehicle_steady slot _).framed
      obtain ⟨_, hbac, _⟩ := lineLost_kept hv hin
      obtain ⟨ih1, ih2⟩ := ih hk a' (by rw [PlacesInside, hbac]; exact hin)
      have ne {k : Nat} (hm : k ∈ ks) : k ≠ slot := fun e => hslot (e ▸ hm)
      rw [loseOnline_cons_online hv hl]
      refine ⟨fun h hh => ?_, fun h o k i w hm hw hwl hold ho => ?_⟩
      · rw [ih1 h fun k hm w hw hwl i => hh k (List.mem_cons_of_mem _ hm) w ((hother k (ne hm)).symm.trans hw) hwl i,
          hkept h (hh slot List.mem_cons_self v hv hl)]
      · obtain ⟨o', ho', hloc, _⟩ := a.layers k w i h hw hold
        obtain rfl := Option.some.inj (ho.symm.trans ho')
        by_cases hks : k = slot
        · subst hks
          obtain rfl := Option.some.inj (hv.symm.trans hw)
          have hp := hlost i h o hold ho
          rw [ih1 h fun j hm z hz _ l hz' => ?_, hp]
          obtain ⟨p, hp', hloc', _⟩ := a'.layers j z l h hz hz'
          obtain rfl := Option.some.inj (hp.symm.trans hp')
          obtain e | e := lostRecord_loc s o
          · rw [e] at hloc'
            cases hloc'
          · rw [e, hloc] at hloc'
            cases hloc'
            exact hslot hm
        · have hm' := (List.mem_cons.1 hm).resolve_left hks
          have hfree : ∀ j, ¬(v.layer j).holds h := fun j hj => hks (a.layer_unique hw hv hold hj).1
          rw [ih2 h o k i w hm' ((hother k hks).trans hw) hwl hold ((hkept h hfree).trans ho)]
          exact congrArg some (lostRecord_congr framed.now framed.tOrphan o)
    · have hoff : ∀ v, tblGet s.vht.vehicles slot = some v → v.link ≠ .online := fun v hv hl => hon ⟨v, hv, hl⟩
      obtain ⟨ih1, ih2⟩ := ih hk a hin
      rw [loseOnline_cons_other hoff]
      refine ⟨fun h hh => ih1 h fun k hm => hh k (List.mem_cons_of_mem _ hm), fun h o k i w hm hw hwl => ?_⟩
      refine ih2 h o k i w ((List.mem_cons.1 hm).resolve_left fun e => ?_) hw hwl
      subst e
      exact hoff w hw hwl

end Agreement

/-! ## GWRDY falling -/

section Falls

theorem tblWf_nodup {β : Type} {l : Tbl β} (h : tblWf l = true) : (l.map (fun e => e.1)).Nodup := by
  induction l with
  | nil => exact List.nodup_nil
  | cons e l ih =>
    refine List.nodup_cons.2 ⟨fun hm => ?_, ih (tblWf_tail h)⟩
    obtain ⟨d, hd, he⟩ := List.mem_map.1 hm
    exact absurd he (Nat.ne_of_gt (tblWf_head_lt h d hd))

theorem dropPlaces_inside (s : State) : PlacesInside (dropPlaces s) := by
  intro e he
  rw [dropPlaces, setExamIf_bac] at he
  obtain ⟨f, _, rfl⟩ := List.mem_map.1 he
  exact ⟨rfl, fun a ha => by simpa using (List.mem_filter.1 ha).2⟩

theorem dropPlaces_only (s : State) :
    (dropPlaces s).liu = s.liu ∧ (dropPlaces s).fcr = s.fcr ∧ (dropPlaces s).vht = s.vht ∧ (dropPlaces s).ort = s.ort ∧
      (dropPlaces s).now = s.now ∧ (dropPlaces s).gwrdy = s.gwrdy ∧ (dropPlaces s).lyt = s.lyt ∧ (dropPlaces s).iss = s.iss := by
  unfold dropPlaces
  cases s.bac.bays.any (fun e => hasGranted e.2) <;> exact ⟨rfl, rfl, rfl, rfl, rfl, rfl, rfl, rfl⟩

/-- Settles O5: the lines, the places, and then one vehicle after another. -/
theorem gwrdyFallLosesEveryVehicle : Obligations.GwrdyFallLosesEveryVehicle := by
  refine ⟨fun s hg => ⟨lineFall s, if_pos hg, ?_⟩, fun s hg => if_neg (by simp [hg]), fun _ => rfl⟩
  have told := raiseIncident_told ⟨.lineDown, s.now, none, none, none, none, none⟩
    { s with gwrdy := false, liu := droppedLines s.liu }
  have rlines := raiseIncident_linesTold ⟨.lineDown, s.now, none, none, none, none, none⟩
    { s with gwrdy := false, liu := droppedLines s.liu }
  have rfcr := raiseIncident_fcr ⟨.lineDown, s.now, none, none, none, none, none⟩
    { s with gwrdy := false, liu := droppedLines s.liu }
  have rorphan := (raiseIncident_steady ⟨.lineDown, s.now, none, none, none, none, none⟩
    { s with gwrdy := false, liu := droppedLines s.liu }).framed.tOrphan
  unfold lineFall
  generalize raiseIncident ⟨.lineDown, s.now, none, none, none, none, none⟩
    { s with gwrdy := false, liu := droppedLines s.liu } = r at told rlines rfcr rorphan ⊢
  obtain ⟨d1, d2, d3, d4, d5, d6, d7, d8⟩ := dropPlaces_only r
  have hin := dropPlaces_inside r
  generalize dropPlaces r = x at d1 d2 d3 d4 d5 d6 d7 d8 hin ⊢
  have xvht : x.vht = s.vht := d3.trans told.vht
  have xort : x.ort = s.ort := d4.trans told.ort
  obtain ⟨noticed, hbac, each⟩ := loseOnline_kept (s.vht.vehicles.map (fun e => e.1)) hin
  have framed := (loseOnline_careful (A := True) (s.vht.vehicles.map (fun e => e.1)) x).steady.framed
  have listed {k : Nat} {v : Vehicle} (hv : tblGet s.vht.vehicles k = some v) : k ∈ s.vht.vehicles.map (fun e => e.1) :=
    List.mem_map_of_mem (tblGet_mem hv)
  refine ⟨framed.gwrdy.trans (d6.trans told.gwrdy), framed.now.trans (d5.trans told.now), framed.lyt.trans (d7.trans told.lyt),
    framed.iss.trans (d8.trans told.iss), ?_, noticed.2.trans (d2.trans rfcr), fun k v hv => ?_, ?_, fun hc hf => ?_⟩
  · have lines := rlines.trans (LinesTold.trans (.of_eq d1) noticed.1)
    exact lines
  · obtain ⟨w, hw, r, hon, hoff⟩ := each k v (by rw [xvht]; exact hv)
    refine ⟨w, hw, ?_, r.fleetId, r.load, r.position, r.hostStall, r.faultStall, fun hl => (hon hl (listed hv)).2⟩
    split
    · next hl => exact (hon hl (listed hv)).1
    · next hl => exact (hoff hl).1
  · rw [hbac]
    exact hin
  · have a : Agreed x := (FleetKept.of_eq (by rw [xort]) (by rw [xvht]) hf.agreed).1
    have hk : (s.vht.vehicles.map (fun e => e.1)).Nodup := tblWf_nodup hc.vehicles.1
    obtain ⟨kept, lost⟩ := loseOnline_orders _ hk a hin
    have hnow : x.now = s.now := d5.trans told.now
    have record := lostRecord_congr (s := s) (t := x) hnow ((congrArg FaultCapture.tOrphan d2).trans rorphan)
    refine ⟨fun h o k i v ho hloc hv hl => ?_, fun h hh => ?_⟩
    · have lost' (hold : (v.layer i).holds h) := lost h o k i v (listed hv) (by rw [xvht]; exact hv) hl hold
        (by rw [xort]; exact ho)
      rw [record] at lost'
      obtain ⟨z, hz, hold⟩ := hf.agreed.located h o k i ho hloc
      obtain rfl := Option.some.inj (hv.symm.trans hz)
      obtain ⟨o', ho', _, hiff⟩ := hf.agreed.layers k v i h hv hold
      obtain rfl := Option.some.inj (ho.symm.trans ho')
      have e := lost' hold
      refine ⟨fun hst => ?_, fun _ => ⟨fun hs => ?_, fun hs => ?_, fun hs => ?_, fun hs => ?_⟩⟩
      · simpa only [lostRecord, hiff.2 hst] using e
      · simpa only [lostRecord, hs] using e
      · simpa only [lostRecord, hs] using e
      · obtain hs | hs | hs := hs <;> simpa only [lostRecord, hs] using e
      · simpa only [lostRecord, hs] using e
    · rw [kept h fun k _ v hv hl i hold => ?_, xort]
      obtain ⟨h1, h2⟩ := hh k i v (by rw [← xvht]; exact hv) hl
      exact hold.elim h1 h2

end Falls

end Sys2Proof.Machine
end

section
/-! The receivers of the two lines (R172, R174, R177, R183). -/
namespace Sys2Proof.Machine

open Sys2Proof

variable {s t : State} {fuel g k : Nat} {buf more late : List Byte}

/-! ## What a receiver makes of bytes that come in parts (R172) -/

section Scan

theorem rxScan_nil (fuel : Nat) : rxScan fuel [] = ([], []) := by
  cases fuel <;> rfl

/-- Fuel beyond the number of bytes makes no difference. -/
theorem rxScan_fuel (hf : buf.length ≤ fuel) (hg : buf.length ≤ g) : rxScan fuel buf = rxScan g buf := by
  induction fuel generalizing g buf with
  | zero =>
    obtain rfl := List.length_eq_zero_iff.1 (Nat.le_zero.1 hf)
    rw [rxScan_nil, rxScan_nil]
  | succ fuel ih =>
    cases buf with
    | nil => rw [rxScan_nil, rxScan_nil]
    | cons b rest =>
      obtain ⟨g, rfl⟩ : ∃ n, g = n + 1 := ⟨g - 1, by simp at hg; omega⟩
      have hr : rest.length ≤ fuel := by simpa using hf
      have hr' : rest.length ≤ g := by simpa using hg
      by_cases hb : b = startByte
      · subst hb
        obtain hs | ⟨lo, hi, more, rfl⟩ := afterStart_cases rest
        · rw [rxScan_short hs, rxScan_short hs]
        · have hm : (more.drop (u16 lo hi + 2)).length ≤ fuel ∧ (more.drop (u16 lo hi + 2)).length ≤ g := by
            simp only [List.length_cons] at hr hr'
            rw [List.length_drop]
            omega
          rw [rxScan_frame, rxScan_frame, ih hr hr', ih hm.1 hm.2]
      · rw [rxScan_hunt hb, rxScan_hunt hb, ih hr hr']

/-- A receiver that is given more bytes goes on with what it still holds of the earlier ones. -/
theorem rxScan_append (hf : buf.length ≤ fuel) (hg : (buf ++ late).length ≤ g)
    (hk : ((rxScan fuel buf).2 ++ late).length ≤ k) :
    rxScan g (buf ++ late) =
      ((rxScan fuel buf).1 ++ (rxScan k ((rxScan fuel buf).2 ++ late)).1, (rxScan k ((rxScan fuel buf).2 ++ late)).2) := by
  induction fuel generalizing g buf with
  | zero =>
    obtain rfl := List.length_eq_zero_iff.1 (Nat.le_zero.1 hf)
    exact rxScan_fuel hg hk
  | succ fuel ih =>
    cases buf with
    | nil =>
      rw [rxScan_nil] at hk ⊢
      exact rxScan_fuel hg hk
    | cons b rest =>
      obtain ⟨g, rfl⟩ : ∃ n, g = n + 1 := ⟨g - 1, by simp at hg; omega⟩
      have hr : rest.length ≤ fuel := by simpa using hf
      have hg' : (rest ++ late).length ≤ g := by simpa using hg
      by_cases hb : b = startByte
      · subst hb
        obtain hs | ⟨lo, hi, more, rfl⟩ := afterStart_cases rest
        · rw [rxScan_short hs] at hk ⊢
          exact rxScan_fuel hg hk
        · rw [rxScan_frame] at hk ⊢
          rw [List.cons_append, List.cons_append, List.cons_append, rxScan_frame]
          by_cases hl : u16 lo hi < 4 ∨ 1024 < u16 lo hi
          · rw [if_pos hl] at hk
            rw [if_pos hl, if_pos hl]
            exact ih hr hg' hk
          · rw [if_neg hl] at hk
            rw [if_neg hl, if_neg hl]
            by_cases hshort : more.length < u16 lo hi + 2
            · rw [if_pos hshort] at hk ⊢
              rw [← rxScan_fuel hg hk, List.cons_append, List.cons_append, List.cons_append, rxScan_frame, if_neg hl]
              simp
            · have hn : ¬(more ++ late).length < u16 lo hi + 2 := by
                rw [List.length_append]
                omega
              have hdrop (m : Nat) (hm : m ≤ u16 lo hi + 2) : (more ++ late).drop m = more.drop m ++ late :=
                List.drop_append_of_le_length (by omega)
              have htake : (more ++ late).take (u16 lo hi) = more.take (u16 lo hi) :=
                List.take_append_of_le_length (by omega)
              have hcheck : ((more ++ late).drop (u16 lo hi)).take 2 = (more.drop (u16 lo hi)).take 2 := by
                rw [hdrop _ (by omega)]
                exact List.take_append_of_le_length (by rw [List.length_drop]; omega)
              have hrest : (more.drop (u16 lo hi + 2)).length ≤ fuel ∧ (more.drop (u16 lo hi + 2) ++ late).length ≤ g := by
                simp only [List.length_cons, List.length_append, List.length_drop] at hr hg' ⊢
                omega
              rw [if_neg hshort] at hk ⊢
              rw [if_neg hn, htake, hcheck]
              by_cases hcrc : (more.drop (u16 lo hi)).take 2 = crcBytes (lo :: hi :: more.take (u16 lo hi))
              · rw [if_pos hcrc] at hk ⊢
                rw [if_pos hcrc, hdrop _ (le_refl _), ih hrest.1 hrest.2 hk]
                rfl
              · rw [if_neg hcrc] at hk ⊢
                rw [if_neg hcrc]
                exact ih hr hg' hk
      · rw [rxScan_hunt hb] at hk ⊢
        rw [List.cons_append, rxScan_hunt hb]
        exact ih hr hg' hk

theorem rxReceive_append (buf early late : List Byte) :
    rxReceive buf (early ++ late) =
      ((rxReceive buf early).1 ++ (rxReceive (rxReceive buf early).2 late).1, (rxReceive (rxReceive buf early).2 late).2) := by
  have e := rxScan_append (buf := buf ++ early) (late := late) (le_refl _) (le_refl _) (le_refl _)
  rw [List.append_assoc] at e
  exact e

theorem placeHosts_append (fs gs : List (List Byte)) (q : List HostItem) :
    placeHosts (fs ++ gs) q = placeHosts gs (placeHosts fs q) := by
  induction fs generalizing q with
  | nil => rfl
  | cons f fs ih => exact ih _

/-- A queue that takes what it has room for takes the same, however it comes. -/
theorem takeRoom_append {α : Type} (n : Nat) (q fs gs : List α) :
    q ++ fs.take (n - q.length) ++ gs.take (n - (q ++ fs.take (n - q.length)).length) =
      q ++ (fs ++ gs).take (n - q.length) := by
  rw [List.append_assoc, List.take_append, List.length_append, List.length_take]
  refine congrArg (fun m => q ++ (fs.take (n - q.length) ++ gs.take m)) ?_
  omega

/-- Settles O7, by the scan of bytes that come in parts. -/
theorem receiversIgnoreHowBytesAreCut : Obligations.ReceiversIgnoreHowBytesAreCut := by
  refine ⟨fun s t early late e => ?host, fun s t early late e => ?fleet⟩
  case host =>
    cases e
    simp only [exec, execHostFrameReceived, rxReceive_append, placeHosts_append]
  case fleet =>
    cases hg : s.gwrdy with
    | false =>
      have low (bytes : List Byte) : exec (.fleetFrameReceived bytes) s = .next s := if_neg (by simp [hg])
      rw [low] at e ⊢
      cases e
      exact low late
    | true =>
      have high (u : State) (hu : u.gwrdy = true) (bytes : List Byte) : exec (.fleetFrameReceived bytes) u = .next { u with
          liu := { u.liu with
            fleetRx := (rxReceive u.liu.fleetRx bytes).2
            fleetIn := u.liu.fleetIn ++ (rxReceive u.liu.fleetRx bytes).1.take (32 - u.liu.fleetIn.length) } } := if_pos hu
      rw [high s hg] at e ⊢
      obtain rfl := Host.Outcome.next.inj e
      refine (high { s with
          liu := { s.liu with
            fleetRx := (rxReceive s.liu.fleetRx early).2
            fleetIn := s.liu.fleetIn ++ (rxReceive s.liu.fleetRx early).1.take (32 - s.liu.fleetIn.length) } } hg late).trans ?_
      rw [rxReceive_append]
      simp only [takeRoom_append]

end Scan

/-! ## A frame laid out by R183 -/

section Frames

theorem u16_bytes {n : Nat} (h : n < 65536) : u16 (BitVec.ofNat 8 n) (BitVec.ofNat 8 (n / 256)) = n := by
  simp only [u16, BitVec.toNat_ofNat]
  omega

/-- A receiver that hunts discards bytes that are no start byte. -/
theorem rxScan_noise {noise : List Byte} (hn : startByte ∉ noise) (hg : (noise ++ buf).length ≤ g) :
    rxScan g (noise ++ buf) = rxScan g buf := by
  induction noise generalizing g with
  | nil => rfl
  | cons b noise ih =>
    obtain ⟨g, rfl⟩ : ∃ n, g = n + 1 := ⟨g - 1, by simp at hg; omega⟩
    obtain ⟨hb, hn⟩ := not_or.1 (mt List.mem_cons.2 hn)
    have hg' : (noise ++ buf).length ≤ g := by simpa using hg
    rw [List.cons_append, rxScan_hunt (Ne.symm hb), ih hn hg']
    rw [List.length_append] at hg'
    exact rxScan_fuel (by omega) (by omega)

theorem rxReceive_frame {noise body : List Byte} (hn : startByte ∉ noise) (h4 : 4 ≤ body.length)
    (h1024 : body.length ≤ 1024) : rxReceive [] (noise ++ frameOf body) = ([body], []) := by
  have e : rxReceive [] (noise ++ frameOf body) = rxScan (noise ++ frameOf body).length (noise ++ frameOf body) := rfl
  rw [e, rxScan_noise hn (le_refl _), List.length_append]
  obtain ⟨g, hg⟩ : ∃ n, noise.length + (frameOf body).length = n + 1 := ⟨_, rfl⟩
  have hf : frameOf body = startByte :: BitVec.ofNat 8 body.length :: BitVec.ofNat 8 (body.length / 256) ::
      (body ++ crcBytes (b2 body.length ++ body)) := rfl
  have hlen : u16 (BitVec.ofNat 8 body.length) (BitVec.ofNat 8 (body.length / 256)) = body.length := u16_bytes (by omega)
  have hcrc : (crcBytes (b2 body.length ++ body)).take 2 =
      crcBytes (BitVec.ofNat 8 body.length :: BitVec.ofNat 8 (body.length / 256) :: body) := rfl
  rw [hg, hf, rxScan_frame, hlen, if_neg (by omega), if_neg (by simp [crcBytes]), List.take_left' rfl, List.drop_left' rfl,
    if_pos hcrc]
  have hd : (body ++ crcBytes (b2 body.length ++ body)).drop (body.length + 2) = [] := by
    simp [crcBytes]
  rw [hd, rxScan_nil]

/-- Settles O6, by the scan of one frame. -/
theorem framesAreReceivedWhole : Obligations.FramesAreReceivedWhole := by
  refine ⟨fun s noise body hr hn h4 hl => ?host, fun s noise body hr hg hn h4 hl => ?fleet,
    fun s bytes hg => if_neg (by simp [hg])⟩
  case host =>
    have e := rxReceive_frame hn h4 hl
    have hx : exec (.hostFrameReceived (noise ++ frameOf body)) s =
        .next { s with
          liu := { s.liu with
            hostRx := (rxReceive [] (noise ++ frameOf body)).2
            hostQueue := placeHosts (rxReceive [] (noise ++ frameOf body)).1 s.liu.hostQueue } } := by
      rw [← hr]
      rfl
    rw [hx, e, ← hr]
    rfl
  case fleet =>
    have e := rxReceive_frame hn h4 hl
    have hx : exec (.fleetFrameReceived (noise ++ frameOf body)) s =
        .next { s with
          liu := { s.liu with
            fleetRx := (rxReceive [] (noise ++ frameOf body)).2
            fleetIn := s.liu.fleetIn ++
              (rxReceive [] (noise ++ frameOf body)).1.take (32 - s.liu.fleetIn.length) } } := by
      rw [← hr]
      exact if_pos hg
    have ht : s.liu.fleetIn ++ [body].take (32 - s.liu.fleetIn.length) =
        if s.liu.fleetIn.length < 32 then s.liu.fleetIn ++ [body] else s.liu.fleetIn := by
      split
      · next h => rw [List.take_of_length_le (by simp; omega)]
      · next h => rw [show 32 - s.liu.fleetIn.length = 0 by omega, List.take_zero, List.append_nil]
    rw [hx, e, ht, ← hr]

end Frames

end Sys2Proof.Machine
end

section
/-! The screening of the heads of the input queues (R4, R98, R173 to R177), and payloads read as they are laid out
(R173, R184, R186, section 11.3). -/
namespace Sys2Proof.Machine

open Sys2Proof

variable {s : State} {kind : Nat} {i : Instr} {payload : List Byte}

/-! ## Which row takes a frame -/

section Screening

/-- A row refuses outside RUNNING what R4 has it refuse there. -/
def RefusesOutsideRunning {α : Type} (kind : Nat) (act : α → State → Answered) : Prop :=
  takenInEveryState kind = false → ∀ r s, s.lyt.opState ≠ .running → act r s = refuse s .wrongState

theorem whenRunning_refuses {α : Type} (kind : Nat) (act : α → State → Answered) :
    RefusesOutsideRunning kind (whenRunning act) :=
  fun _ _ _ h => if_neg h

theorem refusesOutsideRunning_of_taken {α : Type} {act : α → State → Answered} (h : takenInEveryState kind = true) :
    RefusesOutsideRunning kind act :=
  fun h' => absurd (h.symm.trans h') (by decide)

/-- The row of a request kind takes a frame of that kind, in the form the kind's payload is to have. -/
theorem exec_hostRow (hi : hostRow kind = some i) :
    ∃ (α : Type) (form : List Byte → Option α) (act : α → State → Answered),
      (∀ s, exec i s = .next (takeRequest kind form act s)) ∧ (∀ p, requestFits kind p = (form p).isSome) ∧
        RefusesOutsideRunning kind act := by
  unfold hostRow at hi
  split at hi
  case h_41 => contradiction
  all_goals obtain rfl := Option.some.inj hi
  case h_1 | h_2 | h_3 | h_4 | h_5 | h_32 | h_38 | h_40 =>
    exact ⟨_, _, _, fun _ => rfl, fun _ => rfl, refusesOutsideRunning_of_taken rfl⟩
  all_goals exact ⟨_, _, _, fun _ => rfl, fun _ => rfl, whenRunning_refuses _ _⟩

/-- The row of a report kind other than HELLO takes a report of that kind and form. -/
theorem exec_fleetRow (hi : fleetRow kind payload = some i) (hn : i ≠ .hello) :
    ∃ (α : Type) (form : List Byte → Option α) (act : Nat → α → State → State) (r : α),
      (∀ s, exec i s = .next (takeReport kind form act s)) ∧ form payload = some r := by
  unfold fleetRow at hi
  split at hi
  case h_1 =>
    obtain ⟨r, hr, rfl⟩ := Option.map_eq_some_iff.1 hi
    exact absurd rfl hn
  case h_16 => contradiction
  all_goals
    obtain ⟨r, hr, rfl⟩ := Option.map_eq_some_iff.1 hi
    exact ⟨_, _, _, r, fun _ => rfl, hr⟩

theorem hostHead_blocked (h : s.liu.replySlot ≠ none ∨ s.liu.restartPending = true) : hostHead s = none := by
  obtain h | h := h <;> simp [hostHead, mayTake, h]

theorem hostHead_of_take (hr : s.liu.replySlot = none) (hp : s.liu.restartPending = false) :
    hostHead s = s.liu.hostQueue.head? :=
  if_pos (mayTake_iff.2 ⟨hr, hp⟩)

/-- A report from a fleet id that names no ONLINE vehicle is dropped (R98, R177). -/
theorem fromVehicle_dropped {α : Type} {act : Nat → α → State → State} {f : Nat} {r : α}
    (h : slotOf s.vht f = none ∨
      ∃ slot v, slotOf s.vht f = some slot ∧ tblGet s.vht.vehicles slot = some v ∧ v.link ≠ .online) :
    fromVehicle act f r s = s := by
  obtain h | ⟨slot, v, hs, hv, hl⟩ := h
  · simp only [fromVehicle, h]
  · have ho : ¬ v.online = true := by simpa [Vehicle.online] using hl
    simp only [fromVehicle, hs, hv, if_neg ho]

end Screening

/-- Settles O9, by what stands at the head of each queue. -/
theorem headsAreScreened : Obligations.HeadsAreScreened := by
  refine ⟨fun s tag rest hr hp hq => ?mark, fun s kind tag payload hw hk => ?badKind,
    fun s kind tag payload i hw hi hf => ?malformed, fun s body rest hq hk => ?drop,
    fun s kind i hb hi => ?blocked, fun s kind tag payload i hw hi ht hf ho => ?refused,
    fun s k f0 f1 payload rest hq hk hf h0 h1 ho => ?hello, fun s k f0 f1 payload rest i hq hi hn hv => ?unknown⟩
  case mark =>
    have hh : hostHead s = some (.mark tag) := (hostHead_of_take hr hp).trans (by rw [hq]; rfl)
    have e : exec .busyMarkReply s = .next (placeReply ⟨generalReply, tag, .busy, .none⟩ (popHost s)) := by
      simp only [exec, execBusyMarkReply, hh]
    rw [e, popHost, hq]
    rfl
  case badKind =>
    obtain ⟨hr, hp, k, t0, t1, rest, hq, rfl, rfl⟩ := hw
    have hh : hostHead s = some (.frame (k :: t0 :: t1 :: payload)) := (hostHead_of_take hr hp).trans (by rw [hq]; rfl)
    have hk : hostRow (bodyKind (k :: t0 :: t1 :: payload)) = none := hk
    simp only [exec, execBadKind, hh, if_pos hk]
    rfl
  case malformed =>
    obtain ⟨_, form, act, hx, hfits, _⟩ := exec_hostRow hi
    have hn : form payload = none := by
      rw [hfits] at hf
      simpa using hf
    rw [hx, takeRequest_malformed hw hn]
  case drop =>
    have hk : fleetRow (bodyKind body) (bodyPayload body) = none := hk
    simp only [exec, execFleetFrameDrop, hq, if_pos hk, popFleet, List.tail_cons]
  case blocked =>
    obtain ⟨_, form, act, hx, _⟩ := exec_hostRow hi
    refine ⟨by rw [hx, takeRequest_blocked hb], ?_, ?_⟩
    · simp only [exec, execBusyMarkReply, hostHead_blocked hb]
    · simp only [exec, execBadKind, hostHead_blocked hb]
  case refused =>
    obtain ⟨_, form, act, hx, hfits, hrun⟩ := exec_hostRow hi
    rw [hfits] at hf
    obtain ⟨r, hr⟩ := Option.isSome_iff_exists.1 hf
    rw [hx, takeRequest_of_answer hw hr (hrun ht r (popHost s) ho)]
    rfl
  case hello =>
    obtain ⟨r, hr⟩ := Option.isSome_iff_exists.1 hf
    have e : exec .hello s = .next (reportHello (u16 f0 f1) r (popFleet s)) := by
      refine congrArg Host.Outcome.next ?_
      simp [takeFleet, hq, bodyKind, bodyPayload, bodyTag, hk, hr]
    have hp : popFleet s = { s with liu := { s.liu with fleetIn := rest } } := by
      rw [popFleet, hq]
      rfl
    rw [e, hp]
    exact congrArg Host.Outcome.next ((if_pos (fleetIdValid_iff.2 ⟨h0, h1⟩)).trans (if_neg ho))
  case unknown =>
    obtain ⟨_, form, act, r, hx, hr⟩ := exec_fleetRow hi hn
    have e : takeReport (u8 k) form act s = fromVehicle act (u16 f0 f1) r (popFleet s) := by
      simp [takeReport, takeFleet, hq, bodyKind, bodyPayload, bodyTag, hr]
    have hp : popFleet s = { s with liu := { s.liu with fleetIn := rest } } := by
      rw [popFleet, hq]
      rfl
    rw [hx, e, fromVehicle_dropped (s := popFleet s) hv, hp]

end Sys2Proof.Machine
end

section
/-! Payloads read as they are laid out (R173, R184, R186, section 11.3). -/
namespace Sys2Proof.Machine

open Sys2Proof

variable {kind n : Nat} {payload rest : List Byte}

/-! ## Payloads of a fixed size -/

section Sizes

/-- A form takes exactly the payloads of one size. -/
def TakesSize {α : Type} (n : Nat) (form : List Byte → Option α) : Prop :=
  ∀ p, (form p).isSome = true ↔ p.length = n

theorem length_eq_succ {α : Type} {n : Nat} {l : List α} : l.length = n + 1 ↔ ∃ a t, l = a :: t ∧ t.length = n := by
  cases l <;> simp

theorem decodeLayoutOpen_size : TakesSize 3 decodeLayoutOpen := by
  intro p
  unfold decodeLayoutOpen
  split
  · simp
  · next h => simpa [length_eq_succ] using h

theorem decodeLoopDef_size : TakesSize 3 decodeLoopDef := by
  intro p
  unfold decodeLoopDef
  split
  · simp
  · next h => simpa [length_eq_succ] using h

theorem decodeBayDef_size : TakesSize 20 decodeBayDef := by
  intro p
  unfold decodeBayDef
  split
  · simp
  · next h => simpa [length_eq_succ] using h

theorem decodePortDef_size : TakesSize 8 decodePortDef := by
  intro p
  unfold decodePortDef
  split
  · simp
  · next h => simpa [length_eq_succ] using h

theorem decodeFiller_size : TakesSize 1 decodeFiller := by
  intro p
  unfold decodeFiller
  split
  · simp
  · next h => simpa [length_eq_succ] using h

theorem decodeReserveSet_size : TakesSize 4 decodeReserveSet := by
  intro p
  unfold decodeReserveSet
  split
  · simp
  · next h => simpa [length_eq_succ] using h

theorem decodePortState_size : TakesSize 3 decodePortState := by
  intro p
  unfold decodePortState
  split
  · simp
  · next h => simpa [length_eq_succ] using h

theorem decodeU8_size : TakesSize 1 decodeU8 := by
  intro p
  unfold decodeU8
  split
  · simp
  · next h => simpa [length_eq_succ] using h

theorem decodeU16_size : TakesSize 2 decodeU16 := by
  intro p
  unfold decodeU16
  split
  · simp
  · next h => simpa [length_eq_succ] using h

theorem decodeOrderRef_size : TakesSize 5 decodeOrderRef := by
  intro p
  unfold decodeOrderRef
  split
  · simp
  · next h => simpa [length_eq_succ] using h

theorem decodeOrderRetarget_size : TakesSize 8 decodeOrderRetarget := by
  intro p
  unfold decodeOrderRetarget
  split
  · simp
  · next h => simpa [length_eq_succ] using h

theorem decodeOrderResource_size : TakesSize 7 decodeOrderResource := by
  intro p
  unfold decodeOrderResource
  split
  · simp
  · next h => simpa [length_eq_succ] using h

theorem decodeDemandAck_size : TakesSize 6 decodeDemandAck := by
  intro p
  unfold decodeDemandAck
  split
  · simp
  · next h => simpa [length_eq_succ] using h

theorem decodeVehicleNum_size : TakesSize 3 decodeVehicleNum := by
  intro p
  unfold decodeVehicleNum
  split
  · simp
  · next h => simpa [length_eq_succ] using h

theorem decodeSelect_size : TakesSize 3 decodeSelect := by
  intro p
  unfold decodeSelect
  split
  · simp
  · next h => simpa [length_eq_succ] using h

theorem decodeSurveySetup_size : TakesSize 9 decodeSurveySetup := by
  intro p
  unfold decodeSurveySetup
  split
  · simp
  · next h => simpa [length_eq_succ] using h

/-- A request kind of fixed size takes exactly the payloads of its size. -/
theorem requestFits_iff_size (h : fixedSize kind = some n) : requestFits kind payload = true ↔ payload.length = n := by
  unfold fixedSize at h
  split at h
  case h_35 => contradiction
  all_goals obtain rfl := Option.some.inj h
  case h_1 => exact decodeLayoutOpen_size payload
  case h_2 => exact decodeLoopDef_size payload
  case h_3 => exact decodeBayDef_size payload
  case h_4 => exact decodePortDef_size payload
  case h_5 | h_6 | h_27 | h_30 | h_31 | h_32 | h_33 | h_34 => exact decodeFiller_size payload
  case h_7 => exact decodeReserveSet_size payload
  case h_8 => exact decodePortState_size payload
  case h_9 => exact decodeU8_size payload
  case h_10 | h_11 | h_12 | h_15 | h_16 | h_18 => exact decodeOrderRef_size payload
  case h_13 => exact decodeOrderRetarget_size payload
  case h_14 => exact decodeOrderResource_size payload
  case h_17 => exact decodeDemandAck_size payload
  case h_19 | h_20 | h_21 | h_22 | h_26 => exact decodeU16_size payload
  case h_23 | h_24 => exact decodeVehicleNum_size payload
  case h_25 | h_28 => exact decodeSelect_size payload
  case h_29 => exact decodeSurveySetup_size payload

end Sizes

/-! ## Numbers, tags and optional fields as they are laid out (R183, R184) -/

section Fields

theorem u8_byte {n : Nat} (h : n < 256) : u8 (BitVec.ofNat 8 n) = n := by
  simp only [u8, BitVec.toNat_ofNat]
  omega

theorem u32_bytes {n : Nat} (h : n < 4294967296) :
    u32 (BitVec.ofNat 8 n) (BitVec.ofNat 8 (n / 256)) (BitVec.ofNat 8 (n / 65536)) (BitVec.ofNat 8 (n / 16777216)) = n := by
  simp only [u32, BitVec.toNat_ofNat]
  omega

/-- A tag has a length that its field's length byte admits. -/
def TagSized (t : CarrierTag) : Prop := 1 ≤ t.length ∧ t.length ≤ 12

theorem takeTag_tagField {t : CarrierTag} (h : TagSized t) : takeTag (tagField t ++ rest) = some (t, rest) := by
  obtain ⟨h1, h12⟩ := h
  have hn : u8 (BitVec.ofNat 8 t.length) = t.length := u8_byte (by omega)
  have hfit : ¬(t.length = 0 ∨ 12 < t.length ∨ (t ++ rest).length < t.length) := by
    rw [List.length_append]
    omega
  rw [tagField, List.cons_append, takeTag, hn, if_neg hfit, List.take_left, List.drop_left]

theorem takeTagIf_optional {t : Option CarrierTag} (h : ∀ x, t = some x → TagSized x) :
    takeTagIf t.isSome (optionalBytes tagField t ++ rest) = some (t, rest) := by
  cases t with
  | none => rfl
  | some x => simp [takeTagIf, optionalBytes, takeTag_tagField (h x rfl)]

theorem takeU8If_optional {a : Option Nat} (h : ∀ x, a = some x → x < 256) :
    takeU8If a.isSome (optionalBytes b1 a ++ rest) = some (a, rest) := by
  cases a with
  | none => rfl
  | some x => simp [takeU8If, optionalBytes, b1, u8_byte (h x rfl)]

theorem takeU16If_optional {a : Option Nat} (h : ∀ x, a = some x → x < 65536) :
    takeU16If a.isSome (optionalBytes b2 a ++ rest) = some (a, rest) := by
  cases a with
  | none => rfl
  | some x => simp [takeU16If, optionalBytes, b2, u16_bytes (h x rfl)]

theorem presenceByte_bits (p0 p1 p2 p3 : Bool) :
    (presenceByte p0 p1 p2 p3)[0] = p0 ∧ (presenceByte p0 p1 p2 p3)[1] = p1 ∧
      (presenceByte p0 p1 p2 p3)[2] = p2 ∧ (presenceByte p0 p1 p2 p3)[3] = p3 := by
  revert p0 p1 p2 p3
  decide

theorem presenceByte_fits (p0 p1 p2 p3 : Bool) : presenceFits (presenceByte p0 p1 p2 p3) 4 = true := by
  revert p0 p1 p2 p3
  decide

theorem presenceByte_fits_one (p0 : Bool) : presenceFits (presenceByte p0 false false false) 1 = true := by
  revert p0
  decide

end Fields

/-! ## Payloads with optional fields, loads and lists -/

section Payloads

theorem decodeOrderPlace_encode {r : OrderPlaceReq} (h : OrderPlaceSized r) :
    decodeOrderPlace (encodeOrderPlace r) = some r := by
  obtain ⟨hostTag, kind, trigger, cls, targeting, target, ⟨sType, sNum⟩, ⟨dType, dNum⟩, tag, limit, batch, hold⟩ := r
  obtain ⟨hh, ⟨hk, ht, hc, hg, htgt⟩, ⟨hs, hsn⟩, ⟨hd, hdn⟩, htag, hlimit, hbatch⟩ := h
  have hb := takeU16If_optional (a := batch) (rest := []) hbatch
  rw [List.append_nil] at hb
  obtain ⟨p0, p1, p2, p3⟩ := presenceByte_bits tag.isSome limit.isSome batch.isSome hold
  simp only at hh hk ht hc hg htgt hs hsn hd hdn htag hlimit
  simp [decodeOrderPlace, encodeOrderPlace, b1, b2, b4, presenceByte_fits, p0, p1, p2, p3,
    takeTagIf_optional htag, takeU16If_optional hlimit, hb, u8_byte, u16_bytes, u32_bytes, endpointField, *]

theorem decodeBayTune_encode {r : BayTuneReq} (h : BayTuneSized r) : decodeBayTune (encodeBayTune r) = some r := by
  obtain ⟨bay, cap, soft, quota, flag⟩ := r
  obtain ⟨hb, hc, hs, hq, hf⟩ := h
  have hl := takeU8If_optional (a := flag) (rest := []) hf
  rw [List.append_nil] at hl
  obtain ⟨p0, p1, p2, p3⟩ := presenceByte_bits cap.isSome soft.isSome quota.isSome flag.isSome
  simp only at hb hc hs hq
  simp [decodeBayTune, encodeBayTune, b1, presenceByte_fits, p0, p1, p2, p3, takeU8If_optional hc, takeU8If_optional hs,
    takeU8If_optional hq, hl, u8_byte, hb]

theorem decodeShelfSet_encode {r : ShelfSetReq} (hi : r.index < 65536) (hs : r.state < 256) (he : r.emptyFlag < 256)
    (ht : ∀ t, r.tag = some t → TagSized t) : decodeShelfSet (encodeShelfSet r) = some r := by
  obtain ⟨index, state, flag, tag⟩ := r
  have hl := takeTagIf_optional (t := tag) (rest := []) ht
  rw [List.append_nil] at hl
  obtain ⟨p0, -⟩ := presenceByte_bits tag.isSome false false false
  simp only at hi hs he hl
  simp [decodeShelfSet, encodeShelfSet, b1, b2, presenceByte_fits_one, p0, hl, u8_byte, u16_bytes, hi, hs, he]

theorem decodePickEnd_encode {r : PickEndRep} (hh : r.handle < 256) (ht : ∀ t, r.tag = some t → TagSized t) :
    decodePickEnd (encodePickEnd r) = some r := by
  obtain ⟨handle, tag⟩ := r
  have hl := takeTagIf_optional (t := tag) (rest := []) ht
  rw [List.append_nil] at hl
  obtain ⟨p0, -⟩ := presenceByte_bits tag.isSome false false false
  simp only at hh hl
  simp [decodePickEnd, encodePickEnd, b1, presenceByte_fits_one, p0, hl, u8_byte, hh]

theorem decodeLoad_encode {l : Load} (ht : ∀ t, l = .tagged t → TagSized t) : decodeLoad (encodeLoad l) = some l := by
  cases l with
  | empty => rfl
  | unknown => rfl
  | tagged t =>
    have hl := takeTag_tagField (rest := []) (ht t rfl)
    rw [List.append_nil] at hl
    simp [encodeLoad, decodeLoad, hl]

/-- A list's entries are read one after another. -/
theorem decodeCounted_encode {α : Type} {entry : α → List Byte} {entries : List Byte → Option (List α)} {es : List α}
    (hn : es.length < 256) (nil : entries [] = some [])
    (cons : ∀ e ∈ es, ∀ bs, entries (entry e ++ bs) = (entries bs).map (e :: ·)) :
    decodeCounted entries (encodeList entry es) = some es := by
  have he : entries (es.map entry).flatten = some es := by
    clear hn
    induction es with
    | nil => exact nil
    | cons e es ih =>
      have hes := ih fun x hx => cons x (List.mem_cons_of_mem e hx)
      rw [List.map_cons, List.flatten_cons, cons e List.mem_cons_self, hes]
      rfl
  simp [encodeList, b1, decodeCounted, he, u8_byte hn]

theorem decodeLoad_unlisted {c : Byte} (h : 3 ≤ u8 c) :
    decodeLoad [c, 0#8] = some .empty ∨ decodeLoad [c, 0#8] = some .unknown := by
  have h0 : c ≠ 0#8 := by
    rintro rfl
    exact absurd h (by decide)
  have h1 : c ≠ 1#8 := by
    rintro rfl
    exact absurd h (by decide)
  have h2 : c ≠ 2#8 := by
    rintro rfl
    exact absurd h (by decide)
  have e : decodeLoad [c, 0#8] = some (loadOfCode c) := by
    unfold decodeLoad
    split
    · next e => cases e
    · next e =>
      cases e
      exact if_neg h1
    · next e => exact absurd rfl (e c)
  rw [e, loadOfCode, if_neg h0, if_neg h2]
  split
  · exact .inr rfl
  · exact .inl rfl

end Payloads

/-- Settles O10, form by form. -/
theorem payloadsAreReadAsLaidOut : Obligations.PayloadsAreReadAsLaidOut := by
  refine ⟨fun _ _ _ => requestFits_iff_size, fun _ => decodeOrderPlace_encode, fun _ => decodeBayTune_encode,
    fun _ hi hs he ht => decodeShelfSet_encode hi hs he ht, fun _ hh ht => decodePickEnd_encode hh ht,
    fun _ ht => decodeLoad_encode ht, fun _ => decodeLoad_unlisted, fun es hn hs => ?weights, fun es hn hs => ?timings,
    fun es hn hs => ?routes, fun r h1 h2 => ?layoutOpen, fun r h1 h2 => ?loopDef,
    fun r h1 h2 h3 h4 h5 h6 h7 h8 h9 h10 h11 h12 => ?bayDef, fun r h1 h2 h3 h4 h5 => ?portDef,
    fun r h1 h2 => ?portState, fun r h1 h2 h3 h4 => ?reserveSet,
    fun r h1 h2 => ⟨?orderRef, fun e h3 h4 => ?orderRetarget, fun n h3 => ?orderResource, fun n h3 => ?demandAck⟩,
    fun n h1 => ?u8, fun n h1 => ?u16, fun r h1 h2 => ?vehicleNum, fun r h1 h2 => ?select,
    fun r h1 h2 h3 h4 h5 h6 h7 h8 => ?surveySetup, fun r h1 h2 h3 => ?hello, fun r h1 h2 => ?pos,
    fun r h1 h2 => ?taken, fun r h1 h2 h3 => ?place, fun r h1 => ?fault⟩
  case weights =>
    refine decodeCounted_encode hn rfl fun e he bs => ?_
    obtain ⟨h0, h1, h2⟩ := hs e he
    simp [weightField, b1, b2, weightEntries, u8_byte, u16_bytes, h0, h1, h2]
  case timings =>
    refine decodeCounted_encode hn rfl fun e he bs => ?_
    obtain ⟨h0, h1⟩ := hs e he
    simp [timingField, b1, b2, timingEntries, u8_byte, u16_bytes, h0, h1]
  case routes =>
    refine decodeCounted_encode hn rfl fun e he bs => ?_
    obtain ⟨h0, h1⟩ := hs e he
    simp [routeField, b1, routeEntries, u8_byte, h0, h1]
  case layoutOpen => simp [decodeLayoutOpen, b1, b2, u8_byte h1, u16_bytes h2]
  case loopDef => simp [decodeLoopDef, b1, b2, u16_bytes h1, u8_byte h2]
  case bayDef =>
    simp [decodeBayDef, b1, b2, u8_byte h1, u16_bytes h2, u8_byte h3, u16_bytes h4, u16_bytes h5, u16_bytes h6,
      u16_bytes h7, u8_byte h8, u16_bytes h9, u16_bytes h10, u8_byte h11, u16_bytes h12]
  case portDef => simp [decodePortDef, b1, b2, u16_bytes h1, u8_byte h2, u16_bytes h3, u16_bytes h4, u8_byte h5]
  case portState => simp [decodePortState, b1, b2, u16_bytes h1, u8_byte h2]
  case reserveSet => simp [decodeReserveSet, b1, u8_byte h1, u8_byte h2, u8_byte h3, u8_byte h4]
  case orderRef => simp [decodeOrderRef, b1, b4, u8_byte h1, u32_bytes h2]
  case orderRetarget =>
    simp [decodeOrderRetarget, b1, b2, b4, endpointField, u8_byte h1, u32_bytes h2, u8_byte h3, u16_bytes h4]
  case orderResource => simp [decodeOrderResource, b1, b2, b4, u8_byte h1, u32_bytes h2, u16_bytes h3]
  case demandAck => simp [decodeDemandAck, b1, b4, u8_byte h1, u32_bytes h2, u8_byte h3]
  case u8 => simp [decodeU8, b1, u8_byte h1]
  case u16 => simp [decodeU16, b2, u16_bytes h1]
  case vehicleNum => simp [decodeVehicleNum, b1, b2, u16_bytes h1, u8_byte h2]
  case select => simp [decodeSelect, b1, b2, u8_byte h1, u16_bytes h2]
  case surveySetup =>
    simp [decodeSurveySetup, b1, b2, u8_byte h1, u8_byte h2, u8_byte h3, u8_byte h4, u16_bytes h5, u8_byte h6,
      u8_byte h7, u8_byte h8]
  case hello => simp [decodeHello, b1, b2, u8_byte h1, u16_bytes h2, decodeLoad_encode h3]
  case pos => simp [decodePos, b1, b2, u8_byte h1, u16_bytes h2]
  case taken => simp [decodeTaken, b1, u8_byte h1, u8_byte h2]
  case place => simp [decodePlace, b1, b2, endpointField, u8_byte h1, u8_byte h2, u16_bytes h3]
  case fault => simp [decodeFault, b1, u8_byte h1]

end Sys2Proof.Machine
end

section
/-! The seven checks of a LAYOUT_CLOSE, and the entry to RUNNING (R10, R11). -/
namespace Sys2Proof.Machine

open Sys2Proof

/-! ## The first entry of a table that fails a check -/

section FirstFailing

variable {α : Type} {bad : List α → α → Bool} {own : α → Prop} {clash : α → α → Prop} {t : Tbl α} {lower : List α} {n : Nat}

/-- The first entry that is bad, given the records before it, latest first. -/
def firstAgainst (bad : List α → α → Bool) : List α → Tbl α → Option Nat
  | _, [] => none
  | lower, (k, y) :: rest => if bad lower y then some k else firstAgainst bad (y :: lower) rest

/-- A record is bad by itself, or by a clash with an earlier one. -/
def BadBy (bad : List α → α → Bool) (own : α → Prop) (clash : α → α → Prop) : Prop :=
  ∀ lower y, bad lower y = true ↔ own y ∨ ∃ z ∈ lower, clash z y

/-- The entry `n` is bad by itself, or by a clash with a lower one. -/
def FailsAt (own : α → Prop) (clash : α → α → Prop) (t : Tbl α) (n : Nat) : Prop :=
  ∃ y, tblGet t n = some y ∧ (own y ∨ ∃ b z, b < n ∧ tblGet t b = some z ∧ clash z y)

theorem tblWf_iff_pairwise : tblWf t = true ↔ t.Pairwise (fun a b => a.1 < b.1) := by
  induction t with
  | nil => simp [tblWf]
  | cons e t ih =>
    rw [List.pairwise_cons, ← ih]
    exact ⟨fun h => ⟨tblWf_head_lt h, tblWf_tail h⟩, fun ⟨hlt, ht⟩ => tblWf_cons hlt ht⟩

theorem firstAgainst_eq_none (hb : BadBy bad own clash) :
    firstAgainst bad lower t = none ↔
      (∀ e ∈ t, ¬own e.2 ∧ ∀ z ∈ lower, ¬clash z e.2) ∧ t.Pairwise (fun a b => ¬clash a.2 b.2) := by
  induction t generalizing lower with
  | nil => simp [firstAgainst]
  | cons e t ih =>
    obtain ⟨k, y⟩ := e
    rw [firstAgainst, List.pairwise_cons]
    by_cases h : bad lower y = true
    · rw [if_pos h]
      refine iff_of_false nofun fun ⟨hno, _⟩ => ?_
      obtain ⟨ho, hl⟩ := hno (k, y) List.mem_cons_self
      obtain h | ⟨z, hz, hc⟩ := (hb lower y).1 h
      · exact ho h
      · exact hl z hz hc
    · rw [if_neg h, ih]
      rw [hb] at h
      constructor
      · rintro ⟨hno, hp⟩
        refine ⟨fun e he => ?_, fun e he => (hno e he).2 y List.mem_cons_self, hp⟩
        obtain rfl | he := List.mem_cons.1 he
        · exact ⟨fun ho => h (.inl ho), fun z hz hc => h (.inr ⟨z, hz, hc⟩)⟩
        · exact ⟨(hno e he).1, fun z hz => (hno e he).2 z (List.mem_cons_of_mem y hz)⟩
      · rintro ⟨hno, hy, hp⟩
        refine ⟨fun e he => ⟨(hno e (List.mem_cons_of_mem _ he)).1, fun z hz => ?_⟩, hp⟩
        obtain rfl | hz := List.mem_cons.1 hz
        · exact hy e he
        · exact (hno e (List.mem_cons_of_mem _ he)).2 z hz

theorem firstAgainst_eq_some (hb : BadBy bad own clash) (h : firstAgainst bad lower t = some n) :
    ∃ pre y post, t = pre ++ (n, y) :: post ∧ firstAgainst bad lower pre = none ∧
      (own y ∨ (∃ z ∈ lower, clash z y) ∨ ∃ e ∈ pre, clash e.2 y) := by
  induction t generalizing lower with
  | nil => cases h
  | cons e t ih =>
    obtain ⟨k, y⟩ := e
    rw [firstAgainst] at h
    by_cases hy : bad lower y = true
    · rw [if_pos hy] at h
      cases h
      refine ⟨[], y, t, rfl, rfl, ?_⟩
      obtain h | h := (hb lower y).1 hy
      · exact .inl h
      · exact .inr (.inl h)
    · rw [if_neg hy] at h
      obtain ⟨pre, x, post, rfl, hpre, hx⟩ := ih h
      refine ⟨(k, y) :: pre, x, post, rfl, by rw [firstAgainst, if_neg hy, hpre], ?_⟩
      obtain hx | ⟨z, hz, hx⟩ | ⟨e, he, hx⟩ := hx
      · exact .inl hx
      · obtain rfl | hz := List.mem_cons.1 hz
        · exact .inr (.inr ⟨(k, z), List.mem_cons_self, hx⟩)
        · exact .inr (.inl ⟨z, hz, hx⟩)
      · exact .inr (.inr ⟨e, List.mem_cons_of_mem _ he, hx⟩)

/-- With no bad entry, none fails. -/
theorem not_failsAt_of_none (hb : BadBy bad own clash) (hw : tblWf t = true) (h : firstAgainst bad [] t = none) :
    ¬FailsAt own clash t n := by
  rintro ⟨y, hy, hbad⟩
  obtain ⟨hno, hp⟩ := (firstAgainst_eq_none hb).1 h
  obtain ho | ⟨b, z, hlt, hz, hc⟩ := hbad
  · exact (hno (n, y) (tblGet_mem hy)).1 ho
  · obtain ⟨pre, post, rfl, -, hpost⟩ := tblWf_split hw (tblGet_mem hy)
    have hmem : (b, z) ∈ pre := by
      obtain hin | hin := List.mem_append.1 (tblGet_mem hz)
      · exact hin
      · obtain he | hin := List.mem_cons.1 hin
        · cases he
          exact absurd hlt (Nat.lt_irrefl _)
        · exact absurd hlt (Nat.lt_asymm (hpost _ hin))
    exact (List.pairwise_append.1 hp).2.2 _ hmem _ List.mem_cons_self hc

/-- The first bad entry fails, and no lower one does. -/
theorem failsAt_of_some (hb : BadBy bad own clash) (hw : tblWf t = true) (h : firstAgainst bad [] t = some n) :
    FailsAt own clash t n ∧ ∀ m, m < n → ¬FailsAt own clash t m := by
  obtain ⟨pre, y, post, rfl, hpre, hbad⟩ := firstAgainst_eq_some hb h
  obtain ⟨hwpre, hwpost, hlt⟩ := List.pairwise_append.1 (tblWf_iff_pairwise.1 hw)
  have hget {k : Nat} {z : α} (hk : k < n) (hz : tblGet (pre ++ (n, y) :: post) k = some z) : tblGet pre k = some z := by
    refine tblGet_of_mem (tblWf_iff_pairwise.2 hwpre) ?_
    obtain hin | hin := List.mem_append.1 (tblGet_mem hz)
    · exact hin
    · obtain he | hin := List.mem_cons.1 hin
      · cases he
        exact absurd hk (Nat.lt_irrefl _)
      · exact absurd hk (Nat.lt_asymm ((List.pairwise_cons.1 hwpost).1 _ hin))
  refine ⟨⟨y, tblGet_of_mem hw (List.mem_append_right _ List.mem_cons_self), ?_⟩, fun m hm => ?_⟩
  · obtain ho | ⟨z, hz, -⟩ | ⟨⟨b, z⟩, he, hc⟩ := hbad
    · exact .inl ho
    · cases hz
    · exact .inr ⟨b, z, hlt _ he _ List.mem_cons_self, tblGet_of_mem hw (List.mem_append_left _ he), hc⟩
  · rintro ⟨x, hx, hx'⟩
    refine not_failsAt_of_none hb (tblWf_iff_pairwise.2 hwpre) hpre ⟨x, hget hm hx, ?_⟩
    obtain ho | ⟨b, z, hb', hz, hc⟩ := hx'
    · exact .inl ho
    · exact .inr ⟨b, z, hb', hget (Nat.lt_trans hb' hm) hz, hc⟩

/-- A check of each record by itself is a search of the table. -/
theorem find_eq_firstAgainst {p : α → Bool} :
    (t.find? (fun e => p e.2)).map (fun e => e.1) = firstAgainst (fun _ => p) lower t := by
  induction t generalizing lower with
  | nil => rfl
  | cons e t ih =>
    rw [firstAgainst, List.find?_cons, ← ih]
    cases p e.2 <;> rfl

theorem badBy_alone {p : α → Bool} (h : ∀ y, p y = true ↔ own y) : BadBy (fun _ => p) own (fun _ _ => False) :=
  fun _ y => by simp [h]

theorem failsAt_alone : FailsAt own (fun _ _ => False) t n ↔ ∃ y, tblGet t n = some y ∧ own y := by
  simp [FailsAt]

end FirstFailing

/-! ## The seven checks (R10) -/

section Checks

variable {l : Layout} {code n : Nat} {y z : BayRec} {lower : List BayRec}

/-- Two bays share a junction. -/
def junctionsShare (z y : BayRec) : Prop :=
  y.entryJ = z.entryJ ∨ y.entryJ = z.exitJ ∨ y.exitJ = z.entryJ ∨ y.exitJ = z.exitJ

/-- The junctions of bays, those of the first bay first and its exit before its entry. -/
def junctionsOf (bays : List BayRec) : List Nat := (bays.map (fun z => [z.exitJ, z.entryJ])).flatten

/-- A bay repeats a junction, its own or an earlier bay's. -/
def junctionRepeats (lower : List BayRec) (y : BayRec) : Bool :=
  (junctionsOf lower).contains y.entryJ || (y.entryJ :: junctionsOf lower).contains y.exitJ

theorem junctionRepeats_bad : BadBy junctionRepeats (fun y => y.entryJ = y.exitJ) junctionsShare := by
  intro lower y
  simp only [junctionRepeats, junctionsOf, junctionsShare, Bool.or_eq_true, List.contains_iff_mem, List.mem_cons,
    List.mem_flatten, List.mem_map, exists_exists_and_eq_and, List.not_mem_nil, or_false]
  grind

theorem firstRepeated_junctions {bays : Tbl BayRec} :
    firstRepeated (junctionsOf lower) (junctions bays) = firstAgainst junctionRepeats lower bays := by
  induction bays generalizing lower with
  | nil => rfl
  | cons e bays ih =>
    obtain ⟨k, y⟩ := e
    have hj : junctions ((k, y) :: bays) = (k, y.entryJ) :: (k, y.exitJ) :: junctions bays := rfl
    have hl : y.exitJ :: y.entryJ :: junctionsOf lower = junctionsOf (y :: lower) := rfl
    rw [hj, firstRepeated, firstRepeated, hl, ih, firstAgainst]
    unfold junctionRepeats
    cases (junctionsOf lower).contains y.entryJ <;> rfl

theorem racksOverlap_iff {a b : BayRec} : racksOverlap a b = true ↔ racksShare a b := by
  simp only [racksOverlap, racksShare, Bool.and_eq_true, decide_eq_true_eq]
  constructor
  · rintro ⟨⟨⟨ha, hb⟩, hab⟩, hba⟩
    exact ⟨max a.rackBase b.rackBase, by omega, by omega, by omega, by omega⟩
  · rintro ⟨k, h⟩
    omega

theorem rackMisfits_bad :
    BadBy rackMisfits (fun y => 1 ≤ y.rackCount ∧ 1024 < y.rackBase + y.rackCount) racksShare := by
  intro lower y
  have hrack {z : BayRec} (h : racksShare z y) : 1 ≤ y.rackCount := by
    obtain ⟨k, h⟩ := h
    omega
  simp only [rackMisfits, Bool.and_eq_true, Bool.or_eq_true, decide_eq_true_eq, List.any_eq_true, racksOverlap_iff]
  constructor
  · rintro ⟨h1, h | h⟩
    · exact .inl ⟨h1, h⟩
    · exact .inr h
  · rintro (⟨h1, h⟩ | ⟨z, hz, h⟩)
    · exact ⟨h1, .inl h⟩
    · exact ⟨hrack h, .inr ⟨z, hz, h⟩⟩

theorem firstMisfit_eq {bays : Tbl BayRec} : firstMisfit lower bays = firstAgainst rackMisfits lower bays := by
  induction bays generalizing lower with
  | nil => rfl
  | cons e bays ih =>
    rw [firstMisfit, firstAgainst, ih]

/-- What the check of each code finds. -/
def checkFinds (l : Layout) : Nat → Option Nat
  | 1 => firstBay (badJunction l) l.bays
  | 2 => firstRepeated [] (junctions l.bays)
  | 3 => firstBay badExit l.bays
  | 4 => firstBay badPark l.bays
  | 5 => (l.ports.find? (fun e => badPort l e.2)).map (fun e => e.1)
  | 6 => firstBay badRack l.bays
  | 7 => firstMisfit [] l.bays
  | _ => none

/-- What the layout is to be for the check of each code to find nothing. -/
def checkHolds (l : Layout) : Nat → Prop
  | 1 => ∀ e ∈ l.bays, e.2.entryJ < loopLength l ∧ e.2.exitJ < loopLength l
  | 2 => ((l.bays.map (fun e => [e.2.entryJ, e.2.exitJ])).flatten).Nodup
  | 3 => ∀ e ∈ l.bays, 1 ≤ e.2.exit ∧ e.2.exit < e.2.length
  | 4 => ∀ e ∈ l.bays, e.2.park < e.2.length
  | 5 => ∀ e ∈ l.ports, e.2.coord < zoneLength l e.2.bay
  | 6 => ∀ e ∈ l.bays, 1 ≤ e.2.rackCount → e.2.rackFirst + (e.2.rackCount - 1) * e.2.rackPitch < e.2.length
  | 7 => (∀ e ∈ l.bays, 1 ≤ e.2.rackCount → e.2.rackBase + e.2.rackCount ≤ 1024) ∧
      l.bays.Pairwise (fun a b => ¬racksShare a.2 b.2)
  | _ => True

/-- The records that the check of a code looks at, and what it finds in them. -/
structure Checks {α : Type} (l : Layout) (code : Nat) (t : Tbl α) (bad : List α → α → Bool) (own : α → Prop)
    (clash : α → α → Prop) : Prop where
  finds : checkFinds l code = firstAgainst bad [] t
  bad : BadBy bad own clash
  fails : ∀ n, checkFails l code n ↔ FailsAt own clash t n

theorem checks_junctions :
    Checks l 1 l.bays (fun _ => badJunction l) (fun y => loopLength l ≤ y.entryJ ∨ loopLength l ≤ y.exitJ)
      (fun _ _ => False) where
  finds := find_eq_firstAgainst
  bad := badBy_alone (by simp [badJunction])
  fails _ := failsAt_alone.symm

theorem checks_distinct : Checks l 2 l.bays junctionRepeats (fun y => y.entryJ = y.exitJ) junctionsShare where
  finds := firstRepeated_junctions (lower := [])
  bad := junctionRepeats_bad
  fails _ := Iff.rfl

theorem checks_exits :
    Checks l 3 l.bays (fun _ => badExit) (fun y => y.exit < 1 ∨ y.length ≤ y.exit) (fun _ _ => False) where
  finds := find_eq_firstAgainst
  bad := badBy_alone (by simp [badExit])
  fails _ := failsAt_alone.symm

theorem checks_parks : Checks l 4 l.bays (fun _ => badPark) (fun y => y.length ≤ y.park) (fun _ _ => False) where
  finds := find_eq_firstAgainst
  bad := badBy_alone (by simp [badPark])
  fails _ := failsAt_alone.symm

theorem checks_ports :
    Checks l 5 l.ports (fun _ => badPort l) (fun p => zoneLength l p.bay ≤ p.coord) (fun _ _ => False) where
  finds := find_eq_firstAgainst
  bad := badBy_alone (by simp [badPort])
  fails _ := failsAt_alone.symm

theorem checks_racks :
    Checks l 6 l.bays (fun _ => badRack)
      (fun y => 1 ≤ y.rackCount ∧ y.length ≤ y.rackFirst + (y.rackCount - 1) * y.rackPitch) (fun _ _ => False) where
  finds := find_eq_firstAgainst
  bad := badBy_alone (by simp [badRack])
  fails _ := failsAt_alone.symm

theorem checks_pool :
    Checks l 7 l.bays rackMisfits (fun y => 1 ≤ y.rackCount ∧ 1024 < y.rackBase + y.rackCount) racksShare where
  finds := firstMisfit_eq
  bad := rackMisfits_bad
  fails n := by
    constructor
    · rintro ⟨y, hy, h1, h | h⟩
      · exact ⟨y, hy, .inl ⟨h1, h⟩⟩
      · exact ⟨y, hy, .inr h⟩
    · rintro ⟨y, hy, ⟨h1, h⟩ | ⟨b, z, hb, hz, hs⟩⟩
      · exact ⟨y, hy, h1, .inl h⟩
      · have h1 : 1 ≤ y.rackCount := by
          obtain ⟨k, h⟩ := hs
          omega
        exact ⟨y, hy, h1, .inr ⟨b, z, hb, hz, hs⟩⟩

section Found

variable {α : Type} {t : Tbl α} {bad : List α → α → Bool} {own : α → Prop} {clash : α → α → Prop}

theorem Checks.finds_none (c : Checks l code t bad own clash) (hw : tblWf t = true) (h : checkFinds l code = none) :
    ∀ m, ¬checkFails l code m :=
  fun m => mt (c.fails m).1 (not_failsAt_of_none c.bad hw (c.finds.symm.trans h))

theorem Checks.finds_some (c : Checks l code t bad own clash) (hw : tblWf t = true) (h : checkFinds l code = some n) :
    checkFails l code n ∧ ∀ m, m < n → ¬checkFails l code m := by
  obtain ⟨hf, hlow⟩ := failsAt_of_some c.bad hw (c.finds.symm.trans h)
  exact ⟨(c.fails n).2 hf, fun m hm => mt (c.fails m).1 (hlow m hm)⟩

theorem Checks.passes (c : Checks l code t bad own clash) :
    checkFinds l code = none ↔ (∀ e ∈ t, ¬own e.2) ∧ t.Pairwise (fun a b => ¬clash a.2 b.2) := by
  rw [c.finds, firstAgainst_eq_none c.bad]
  simp

/-- A check of each record by itself. -/
theorem Checks.passes_alone (c : Checks l code t bad own (fun _ _ => False)) :
    checkFinds l code = none ↔ ∀ e ∈ t, ¬own e.2 := by
  rw [c.passes]
  exact and_iff_left (List.pairwise_of_forall fun _ _ => id)

end Found

/-- A check finds nothing exactly where the layout is as it should be. -/
theorem checkFinds_eq_none : checkFinds l code = none ↔ checkHolds l code := by
  match code with
  | 1 =>
    rw [checks_junctions.passes_alone]
    simp [checkHolds]
  | 2 =>
    rw [checks_distinct.passes]
    simp only [checkHolds, List.nodup_flatten, List.mem_map, List.pairwise_map]
    simp [junctionsShare]
    grind
  | 3 =>
    rw [checks_exits.passes_alone]
    simp [checkHolds, Nat.one_le_iff_ne_zero]
  | 4 =>
    rw [checks_parks.passes_alone]
    simp [checkHolds]
  | 5 =>
    rw [checks_ports.passes_alone]
    simp [checkHolds]
  | 6 =>
    rw [checks_racks.passes_alone]
    simp [checkHolds]
  | 7 =>
    rw [checks_pool.passes]
    simp [checkHolds]
  | 0 => exact iff_of_true rfl trivial
  | _ + 8 => exact iff_of_true rfl trivial

/-- In canonical tables a check that finds nothing fails nowhere. -/
theorem not_checkFails_of_none (hb : tblWf l.bays = true) (hp : tblWf l.ports = true) (h : checkFinds l code = none)
    (m : Nat) : ¬checkFails l code m := by
  match code with
  | 1 => exact checks_junctions.finds_none hb h m
  | 2 => exact checks_distinct.finds_none hb h m
  | 3 => exact checks_exits.finds_none hb h m
  | 4 => exact checks_parks.finds_none hb h m
  | 5 => exact checks_ports.finds_none hp h m
  | 6 => exact checks_racks.finds_none hb h m
  | 7 => exact checks_pool.finds_none hb h m
  | 0 => exact id
  | _ + 8 => exact id

theorem checkFails_of_some (hb : tblWf l.bays = true) (hp : tblWf l.ports = true) (h : checkFinds l code = some n) :
    checkFails l code n ∧ ∀ m, m < n → ¬checkFails l code m := by
  match code with
  | 1 => exact checks_junctions.finds_some hb h
  | 2 => exact checks_distinct.finds_some hb h
  | 3 => exact checks_exits.finds_some hb h
  | 4 => exact checks_parks.finds_some hb h
  | 5 => exact checks_ports.finds_some hp h
  | 6 => exact checks_racks.finds_some hb h
  | 7 => exact checks_pool.finds_some hb h

/-- The checks are made in the order of their codes. -/
theorem validate_eq : validate l = [1, 2, 3, 4, 5, 6, 7].findSome? (fun c => (checkFinds l c).map (fun n => (c, n))) := by
  simp only [List.findSome?_cons, List.findSome?_nil, checkFinds, validate]
  cases firstBay (badJunction l) l.bays with
  | some => rfl
  | none =>
  cases firstRepeated [] (junctions l.bays) with
  | some => rfl
  | none =>
  cases firstBay badExit l.bays with
  | some => rfl
  | none =>
  cases firstBay badPark l.bays with
  | some => rfl
  | none =>
  cases l.ports.find? (fun e => badPort l e.2) with
  | some => rfl
  | none =>
  cases firstBay badRack l.bays with
  | some => rfl
  | none =>
  cases firstMisfit [] l.bays <;> rfl

theorem validate_eq_some (h : validate l = some (code, n)) :
    1 ≤ code ∧ code ≤ 7 ∧ checkFinds l code = some n ∧ ∀ c, c < code → checkFinds l c = none := by
  rw [validate_eq, List.findSome?_eq_some_iff] at h
  obtain ⟨pre, c, post, he, hc, hpre⟩ := h
  obtain ⟨m, hm, hcm⟩ := Option.map_eq_some_iff.1 hc
  obtain ⟨rfl, rfl⟩ := Prod.mk.inj hcm
  have hin : c ∈ [1, 2, 3, 4, 5, 6, 7] := by simp [he]
  have hrange : 1 ≤ c ∧ c ≤ 7 := by
    simp only [List.mem_cons, List.not_mem_nil, or_false] at hin
    omega
  have hsorted : [1, 2, 3, 4, 5, 6, 7].Pairwise (· < ·) := by decide
  refine ⟨hrange.1, hrange.2, hm, fun d hd => ?_⟩
  obtain rfl | h0 := Nat.eq_zero_or_pos d
  · rfl
  · have hd' : d ∈ pre ++ c :: post := by
      rw [← he]
      simp only [List.mem_cons, List.not_mem_nil, or_false]
      omega
    rw [he] at hsorted
    obtain hd' | hd' := List.mem_append.1 hd'
    · exact Option.map_eq_none_iff.1 (hpre d hd')
    · obtain rfl | hd' := List.mem_cons.1 hd'
      · exact absurd hd (Nat.lt_irrefl _)
      · exact absurd hd (Nat.lt_asymm ((List.pairwise_cons.1 (List.pairwise_append.1 hsorted).2.1).1 d hd'))

theorem validate_eq_none_iff : validate l = none ↔ LayoutValid l := by
  rw [validate_eq, List.findSome?_eq_none_iff]
  simp only [Option.map_eq_none_iff, checkFinds_eq_none, List.forall_mem_cons, List.not_mem_nil, false_implies,
    implies_true, and_true, checkHolds]
  exact ⟨fun ⟨h1, h2, h3, h4, h5, h6, h7, h8⟩ => ⟨h1, h2, h3, h4, h5, h6, h7, h8⟩,
    fun ⟨h1, h2, h3, h4, h5, h6, h7, h8⟩ => ⟨h1, h2, h3, h4, h5, h6, h7, h8⟩⟩

end Checks

section Closing

variable {s : State} {tag : Nat} {b : Byte}

theorem closeLayout_valid (ho : s.lyt.opState = .loading) (hx : s.lyt.expected = some .layoutClose)
    (hv : validate s.lyt = none) : closeLayout () s = accept (enterRunning s) .none :=
  (takeRecord_of_expected ho hx).trans (by rw [hv])

theorem closeLayout_invalid {code n : Nat} (ho : s.lyt.opState = .loading) (hx : s.lyt.expected = some .layoutClose)
    (hv : validate s.lyt = some (code, n)) :
    closeLayout () s = ⟨{ s with lyt := unloadedLayout s.lyt }, .layoutInvalid, .invalid code n⟩ :=
  (takeRecord_of_expected ho hx).trans (by rw [hv])

theorem exec_layoutClose {t : State} {st : Status} {p : ReplyPayload} (hw : requestWaits s 0x05 tag [b])
    (ha : closeLayout () (popHost s) = ⟨t, st, p⟩) :
    exec .layoutClose s = .next (placeReply ⟨0x85, tag, st, p⟩ t) :=
  congrArg Host.Outcome.next (takeRequest_of_answer (form := decodeFiller) (act := closeLayout) hw rfl ha)

theorem enterRunning_port (k : Nat) :
    tblGet (enterRunning s).lyt.ports k = (tblGet s.lyt.ports k).map (fun r => { r with isOpen := true }) :=
  tblGet_map_records (fun r : PortRec => ({ r with isOpen := true } : PortRec)) s.lyt.ports k

theorem enterRunning_bay (c : Nat) : tblGet (enterRunning s).bac.bays c = (tblGet s.lyt.bays c).map (fun _ => freshBay) :=
  tblGet_map_records (fun _ : BayRec => freshBay) s.lyt.bays c

theorem enterRunning_reserve (c : Nat) : reserveOf (enterRunning s).shm c = ⟨0, 0, false⟩ := by
  have e : tblGet (enterRunning s).shm.reserves c = (tblGet s.lyt.bays c).map (fun _ => ⟨0, 0, false⟩) :=
    tblGet_map_records (fun _ : BayRec => Reserve.mk 0 0 false) s.lyt.bays c
  rw [reserveOf, e]
  cases tblGet s.lyt.bays c <;> rfl

end Closing

/-- Settles O14, by the seven checks. -/
theorem layoutCloseAcceptsExactlyValidLayouts : Obligations.LayoutCloseAcceptsExactlyValidLayouts := by
  refine fun s tag b hw ho hx => ⟨fun hv => ?accepted, fun hv => ?refused⟩
  case accepted =>
    have e := exec_layoutClose hw (closeLayout_valid (s := popHost s) ho hx (validate_eq_none_iff.2 hv))
    exact ⟨_, e, rfl, enterRunning_port (s := popHost s), rfl, enterRunning_bay (s := popHost s), fun _ => rfl,
      enterRunning_reserve (s := popHost s), rfl, rfl, rfl, rfl, rfl, rfl, rfl, rfl⟩
  case refused =>
    obtain ⟨⟨code, n⟩, hval⟩ := Option.ne_none_iff_exists'.1 (mt validate_eq_none_iff.1 hv)
    obtain ⟨h1, h7, hf, hlow⟩ := validate_eq_some hval
    have e := exec_layoutClose hw (closeLayout_invalid (s := popHost s) ho hx hval)
    refine ⟨code, n, h1, h7, fun hc => ?_, e⟩
    obtain ⟨hb, hp⟩ := hc.layout
    obtain ⟨hn, hm⟩ := checkFails_of_some hb hp hf
    exact ⟨hn, hm, fun c m h => not_checkFails_of_none hb hp (hlow c h) m⟩

end Sys2Proof.Machine
end

section
/-! The checks of an ORDER_PLACE, and what an accepted one leaves (R42 to R46, R66, R137). -/
namespace Sys2Proof.Machine

open Sys2Proof

variable {s : State} {l : Layout} {r : OrderPlaceReq} {f : OrderForm}

/-! ## The fields (R42, R43, check 2 of R44) -/

section Fields

/-- Source, target bay and destination as section 11.3 gives them for the code of a kind. -/
structure EndpointsAllowed (l : Layout) (kind : Nat) (src dst : EndpointField) : Prop where
  portSource : kind = 0 ∨ kind = 1 ∨ kind = 4 → src.type = 0 ∧ src.number < l.portCount
  noSource : kind = 2 ∨ kind = 3 → src.type = 0xFF
  portDest : kind = 0 ∨ kind = 2 ∨ kind = 3 → dst.type = 0 ∧ dst.number < l.portCount
  bayDest : kind = 1 → dst.type = 2 ∧ dst.number < l.bayCount
  noDest : kind = 4 → dst.type = 0xFF
  differ : kind = 0 → src.number ≠ dst.number

/-- The endpoints an order of the kind with this code has when it is placed. -/
def formedEndpoints (kind src dst : Nat) : Option Endpoint × Option Nat × Option Endpoint :=
  (if kind = 0 ∨ kind = 1 ∨ kind = 4 then some (.port src) else none, if kind = 1 then some dst else none,
    if kind = 0 ∨ kind = 2 ∨ kind = 3 then some (.port dst) else none)

theorem portField_eq_some {e : EndpointField} {p : Nat} :
    portField l e = some p ↔ (e.type = 0 ∧ e.number < l.portCount) ∧ e.number = p := by
  simp [portField]

theorem bayField_eq_some {e : EndpointField} {b : Nat} :
    bayField l e = some b ↔ (e.type = 2 ∧ e.number < l.bayCount) ∧ e.number = b := by
  simp [bayField]

theorem orderKindOf_iff {n : Nat} {k : OrderKind} : orderKindOf n = some k ↔ n = k.code := by
  unfold orderKindOf
  split <;> cases k <;> simp_all [OrderKind.code]

theorem formEndpoints_of_allowed {k : OrderKind} {src dst : EndpointField} (h : EndpointsAllowed l k.code src dst) :
    formEndpoints l k src dst = some (formedEndpoints k.code src.number dst.number) := by
  cases k with
  | move =>
    have hs : portField l src = some src.number := if_pos (h.portSource (by simp [OrderKind.code]))
    have hd : portField l dst = some dst.number := if_pos (h.portDest (by simp [OrderKind.code]))
    simp only [formEndpoints, hs, hd, if_neg (h.differ rfl)]
    rfl
  | store =>
    have hs : portField l src = some src.number := if_pos (h.portSource (by simp [OrderKind.code]))
    have hd : bayField l dst = some dst.number := if_pos (h.bayDest rfl)
    simp only [formEndpoints, hs, hd]
    rfl
  | retrieve =>
    have hd : portField l dst = some dst.number := if_pos (h.portDest (by simp [OrderKind.code]))
    simp only [formEndpoints, hd, if_pos (h.noSource (by simp [OrderKind.code]))]
    rfl
  | supplyEmpty =>
    have hd : portField l dst = some dst.number := if_pos (h.portDest (by simp [OrderKind.code]))
    simp only [formEndpoints, hd, if_pos (h.noSource (by simp [OrderKind.code]))]
    rfl
  | returnEmpty =>
    have hs : portField l src = some src.number := if_pos (h.portSource (by simp [OrderKind.code]))
    simp only [formEndpoints, hs, if_pos (h.noDest rfl)]
    rfl

theorem allowed_of_formEndpoints {k : OrderKind} {src dst : EndpointField}
    {x : Option Endpoint × Option Nat × Option Endpoint} (h : formEndpoints l k src dst = some x) :
    EndpointsAllowed l k.code src dst := by
  cases k with
  | move =>
    simp only [formEndpoints] at h
    split at h
    · next p q hp hq =>
      obtain ⟨hs, rfl⟩ := portField_eq_some.1 hp
      obtain ⟨hd, rfl⟩ := portField_eq_some.1 hq
      have hne : src.number ≠ dst.number := by
        intro he
        rw [if_pos he] at h
        cases h
      constructor <;> simp [OrderKind.code, hs, hd, hne]
    · cases h
  | store =>
    simp only [formEndpoints] at h
    split at h
    · next p q hs hd =>
      obtain ⟨hs, -⟩ := portField_eq_some.1 hs
      obtain ⟨hd, -⟩ := bayField_eq_some.1 hd
      constructor <;> simp [OrderKind.code, hs, hd]
    · cases h
  | retrieve =>
    simp only [formEndpoints] at h
    split at h
    · next q hd =>
      obtain ⟨hd, -⟩ := portField_eq_some.1 hd
      have hs : src.type = 0xFF := by
        by_contra hs
        rw [if_neg hs] at h
        cases h
      constructor <;> simp [OrderKind.code, hs, hd]
    · cases h
  | supplyEmpty =>
    simp only [formEndpoints] at h
    split at h
    · next q hd =>
      obtain ⟨hd, -⟩ := portField_eq_some.1 hd
      have hs : src.type = 0xFF := by
        by_contra hs
        rw [if_neg hs] at h
        cases h
      constructor <;> simp [OrderKind.code, hs, hd]
    · cases h
  | returnEmpty =>
    simp only [formEndpoints] at h
    split at h
    · next q hs =>
      obtain ⟨hs, -⟩ := portField_eq_some.1 hs
      have hd : dst.type = 0xFF := by
        by_contra hd
        rw [if_neg hd] at h
        cases h
      constructor <;> simp [OrderKind.code, hs, hd]
    · cases h

theorem triggerOf_iff {n : Nat} {t : Trigger} : triggerOf n = some t ↔ n = t.code := by
  unfold triggerOf
  split <;> cases t <;> simp_all [Trigger.code]

theorem groupMask_eq_zero {n : Nat} : BitVec.ofNat 8 n = 0#8 ↔ n % 256 = 0 := by
  rw [← BitVec.toNat_inj]
  simp

theorem formTargeting_eq_some {code target : Nat} {tg : Targeting} :
    formTargeting code target = some tg ↔
      (code = 0 ∧ (1 ≤ target ∧ target ≤ 65534) ∧ tg = .direct target) ∨
        (code = 1 ∧ target % 256 ≠ 0 ∧ tg = .nearest (BitVec.ofNat 8 target)) := by
  simp only [formTargeting, groupMask_eq_zero]
  split
  · have hv : fleetIdValid target = true ↔ 1 ≤ target ∧ target ≤ 65534 := by
      rw [fleetIdValid_iff]
      omega
    simp [hv, eq_comm (b := tg)]
  · simp [eq_comm (b := tg)]
  · next h0 h1 => exact iff_of_false nofun (by rintro (⟨h, -⟩ | ⟨h, -⟩) <;> contradiction)

theorem formTag_iff {k : OrderKind} {t : Option CarrierTag} :
    formTag k t = true ↔
      (k.code ≤ 2 → t ≠ none) ∧ (k.code = 3 → t = none) ∧ ∀ x, t = some x → tagValid x = true := by
  cases k <;> cases t <;> simp [formTag, OrderKind.code]

theorem formTrigger_iff {k : OrderKind} {t : Trigger} {b : Option Nat} :
    formTrigger k t b = true ↔ (t.code = 1 → k.code = 3 ∧ b = none) := by
  cases t <;> cases k <;> simp [formTrigger, Trigger.code, OrderKind.code]

theorem orderForm_eq_some :
    orderForm l r = some f ↔
      (r.kind = f.kind.code ∧ r.trigger = f.trigger.code ∧ r.cls = f.cls.code) ∧
      formTargeting r.targeting r.target = some f.targeting ∧
      formEndpoints l f.kind r.source r.dest = some (f.source, f.targetBay, f.dest) ∧
      formTag f.kind r.carrierTag = true ∧ formTrigger f.kind f.trigger r.batchTag = true ∧ r.reachLimit ≠ some 0 := by
  rw [← orderKindOf_iff, ← triggerOf_iff, ← orderClassOf_iff]
  unfold orderForm
  constructor
  · intro h
    split at h
    · next k t c tg hk ht hc htg =>
      split at h
      · next src bay dst he =>
        split at h
        · next hb =>
          cases h
          simp only [Bool.and_eq_true, decide_eq_true_eq] at hb
          exact ⟨⟨hk, ht, hc⟩, htg, he, hb.1.1, hb.1.2, hb.2⟩
        · cases h
      · cases h
    · cases h
  · rintro ⟨⟨hk, ht, hc⟩, htg, he, h1, h2, h3⟩
    simp [hk, ht, hc, htg, he, h1, h2, h3]

/-- The fields of an ORDER_PLACE are allowed exactly where they describe an order. -/
theorem placeFieldsAllowed_iff : PlaceFieldsAllowed l r ↔ ∃ f, orderForm l r = some f := by
  constructor
  · rintro ⟨⟨hk, ht, hc⟩, htg, h1, h2, h3, h4, h5, h6, h7, h8, h9, h10, h11⟩
    obtain ⟨k, hk⟩ : ∃ k, orderKindOf r.kind = some k := by
      interval_cases r.kind <;> exact ⟨_, rfl⟩
    obtain ⟨t, ht⟩ : ∃ t, triggerOf r.trigger = some t := by
      interval_cases r.trigger <;> exact ⟨_, rfl⟩
    obtain ⟨c, hc⟩ : ∃ c, orderClassOf r.cls = some c := by
      interval_cases r.cls <;> exact ⟨_, rfl⟩
    rw [orderKindOf_iff] at hk
    rw [triggerOf_iff] at ht
    rw [orderClassOf_iff] at hc
    obtain ⟨tg, htg⟩ : ∃ tg, formTargeting r.targeting r.target = some tg := by
      obtain ⟨h0, ht⟩ | ⟨h0, ht⟩ := htg
      · exact ⟨_, formTargeting_eq_some.2 (.inl ⟨h0, ht, rfl⟩)⟩
      · exact ⟨_, formTargeting_eq_some.2 (.inr ⟨h0, ht, rfl⟩)⟩
    rw [hk] at h1 h2 h3 h4 h5 h6 h7 h8 h10
    rw [ht] at h10
    exact ⟨⟨k, t, c, tg, _, _, _⟩, orderForm_eq_some.2 ⟨⟨hk, ht, hc⟩, htg,
      formEndpoints_of_allowed ⟨h1, h2, h3, h4, h5, h6⟩, formTag_iff.2 ⟨h7, h8, h9⟩, formTrigger_iff.2 h10, h11⟩⟩
  · rintro ⟨f, hf⟩
    obtain ⟨⟨hk, ht, hc⟩, htg, he, hg, hr, hl⟩ := orderForm_eq_some.1 hf
    obtain ⟨h1, h2, h3, h4, h5, h6⟩ := allowed_of_formEndpoints he
    obtain ⟨h7, h8, h9⟩ := formTag_iff.1 hg
    have h10 := formTrigger_iff.1 hr
    rw [← hk] at h1 h2 h3 h4 h5 h6 h7 h8 h10
    rw [← ht] at h10
    refine ⟨⟨?_, ?_, ?_⟩, ?_, h1, h2, h3, h4, h5, h6, h7, h8, h9, h10, hl⟩
    · rw [hk]
      cases f.kind <;> decide
    · rw [ht]
      cases f.trigger <;> decide
    · rw [hc]
      cases f.cls <;> decide
    · obtain ⟨h0, ht, -⟩ | ⟨h0, ht, -⟩ := formTargeting_eq_some.1 htg
      · exact .inl ⟨h0, ht⟩
      · exact .inr ⟨h0, ht⟩

end Fields

/-! ## The remaining checks (R44) -/

section Checks

variable {h : Nat}

theorem duplicateOrder_iff : duplicateOrder s.ort r = true ↔ placeRepeats s r := by
  unfold duplicateOrder placeRepeats tagInUse
  cases r.carrierTag <;> simp <;> grind

/-- A shelf is what a RETRIEVE of a tag looks for. -/
theorem holdsTag_iff {tag : Option CarrierTag} {sh : Shelf} (ht : tag ≠ none) :
    (decide (sh.state = .held) && sh.tag.isSome && decide (sh.tag = tag)) = true ↔ sh.state = .held ∧ sh.tag = tag := by
  have hsome : sh.tag = tag → sh.tag.isSome = true := fun e => Option.isSome_iff_ne_none.2 (e ▸ ht)
  simp only [Bool.and_eq_true, decide_eq_true_eq]
  exact ⟨fun ⟨⟨h, _⟩, e⟩ => ⟨h, e⟩, fun ⟨h, e⟩ => ⟨⟨h, hsome e⟩, e⟩⟩

theorem heldShelfOf_eq_none {tag : Option CarrierTag} (ht : tag ≠ none) :
    heldShelfOf s.shm tag = none ↔ ∀ e ∈ s.shm.shelves, e.2.state = .held → e.2.tag ≠ tag := by
  simp only [heldShelfOf, Option.map_eq_none_iff, List.find?_eq_none, holdsTag_iff ht, not_and, ne_eq]

theorem notFoundOrder_iff (hf : orderForm l r = some f) : notFoundOrder s f r.carrierTag = true ↔ placeUnknown s r := by
  obtain ⟨⟨hk, -, -⟩, htg, -, hg, -, -⟩ := orderForm_eq_some.1 hf
  have hkind : f.kind = .retrieve ↔ r.kind = 2 := by
    rw [hk]
    cases f.kind <;> decide
  have hshelf : r.kind = 2 → ((heldShelfOf s.shm r.carrierTag).isNone = true ↔
      ∀ e ∈ s.shm.shelves, e.2.state = .held → e.2.tag ≠ r.carrierTag) := by
    intro h2
    rw [Option.isNone_iff_eq_none, heldShelfOf_eq_none ((formTag_iff.1 hg).1 (by omega))]
  unfold notFoundOrder placeUnknown
  rw [Bool.or_eq_true, Bool.and_eq_true, decide_eq_true_eq, hkind]
  refine or_congr (and_congr_right hshelf) ?_
  obtain ⟨h0, -, he⟩ | ⟨h1, -, he⟩ := formTargeting_eq_some.1 htg
  · simp [he, h0]
  · simp [he, h1]

theorem gated_iff (hf : orderForm l r = some f) :
    (decide (f.cls = .bulk) && intakeClosed s.ort.gate (liveCount s.ort)) = true ↔ placeGated s r := by
  obtain ⟨⟨-, -, hc⟩, -⟩ := orderForm_eq_some.1 hf
  have hcls : f.cls = .bulk ↔ r.cls = 0 := by
    rw [hc]
    cases f.cls <;> decide
  rw [Bool.and_eq_true, decide_eq_true_eq, hcls, intakeClosed, Bool.and_eq_true, decide_eq_true_eq, decide_eq_true_eq]
  rfl

theorem terminalOrders_eq_nil {t : Tbl Order} : terminalOrders t = [] ↔ ∀ e ∈ t, e.2.state.live = true := by
  simp [terminalOrders]

theorem tblFree_eq_none_iff {β : Type} {n : Nat} {t : Tbl β} : tblFree n t = none ↔ ∀ k, k < n → tblGet t k ≠ none := by
  simp [tblFree, tblHas, List.find?_eq_none]

theorem bestBy_eq_none_iff {β : Type} {before : β → β → Bool} {xs : List β} : bestBy before xs = none ↔ xs = [] := by
  refine ⟨fun h => ?_, fun h => by rw [h]; rfl⟩
  cases xs with
  | nil => rfl
  | cons x xs =>
    rw [bestBy] at h
    split at h
    · cases h
    · split at h <;> cases h

theorem entryForOrder_eq_none_iff :
    entryForOrder s.ort.orders = none ↔
      (∀ h, h < 256 → tblGet s.ort.orders h ≠ none) ∧ ∀ e ∈ s.ort.orders, e.2.state.live = true := by
  rw [← tblFree_eq_none_iff, ← terminalOrders_eq_nil, entryForOrder]
  cases tblFree 256 s.ort.orders with
  | some k => simp
  | none => simp [bestBy_eq_none_iff]

theorem batchFull_iff :
    batchFull s.ort r.batchTag = true ↔
      ∃ b, r.batchTag = some b ∧ tblGet s.ort.batches b = none ∧ 32 ≤ s.ort.batches.length := by
  unfold batchFull
  cases r.batchTag <;> simp [tblHas]

theorem exec_orderPlace {tag : Nat} {payload : List Byte} {t : State} {st : Status} {p : ReplyPayload}
    (a : askedRunning s 0x20 tag payload) (hd : decodeOrderPlace payload = some r)
    (hp : placeOrder r (popHost s) = ⟨t, st, p⟩) : exec .orderPlace s = .next (placeReply ⟨0xA0, tag, st, p⟩ t) :=
  congrArg Host.Outcome.next (takeRequest_running (act := placeOrder) a hd hp)

theorem placeOrder_badField (h : ¬PlaceFieldsAllowed s.lyt r) : placeOrder r s = refuse s .badField := by
  have hn : orderForm s.lyt r = none := by
    rw [placeFieldsAllowed_iff] at h
    exact Option.eq_none_iff_forall_ne_some.2 fun f hf => h ⟨f, hf⟩
  simp only [placeOrder, hn]

theorem placeOrder_duplicate (hf : orderForm s.lyt r = some f) (h : placeRepeats s r) :
    placeOrder r s = refuse s .duplicate := by
  simp only [placeOrder, hf, if_pos (duplicateOrder_iff.2 h)]

theorem placeOrder_notFound (hf : orderForm s.lyt r = some f) (h3 : ¬placeRepeats s r) (h : placeUnknown s r) :
    placeOrder r s = refuse s .notFound := by
  simp only [placeOrder, hf, if_neg (mt duplicateOrder_iff.1 h3), if_pos ((notFoundOrder_iff hf).2 h)]

theorem placeOrder_gated (hf : orderForm s.lyt r = some f) (h3 : ¬placeRepeats s r) (h4 : ¬placeUnknown s r)
    (h : placeGated s r) : placeOrder r s = refuse s .busy := by
  simp only [placeOrder, hf, if_neg (mt duplicateOrder_iff.1 h3), if_neg (mt (notFoundOrder_iff hf).1 h4),
    if_pos ((gated_iff hf).2 h)]

theorem placeOrder_full (hf : orderForm s.lyt r = some f) (h3 : ¬placeRepeats s r) (h4 : ¬placeUnknown s r)
    (h5 : ¬placeGated s r) (h : placeNoRoom s r) : placeOrder r s = refuse s .tableFull := by
  simp only [placeOrder, hf, if_neg (mt duplicateOrder_iff.1 h3), if_neg (mt (notFoundOrder_iff hf).1 h4),
    if_neg (mt (gated_iff hf).1 h5)]
  obtain h | h := h
  · simp only [entryForOrder_eq_none_iff.2 h]
  · cases entryForOrder s.ort.orders with
    | none => rfl
    | some k => simp only [if_pos (batchFull_iff.2 h)]

theorem placeOrder_accepted (hf : orderForm s.lyt r = some f) (h3 : ¬placeRepeats s r) (h4 : ¬placeUnknown s r)
    (h5 : ¬placeGated s r) (h6 : ¬placeNoRoom s r) :
    ∃ h, entryForOrder s.ort.orders = some h ∧
      placeOrder r s = accept (acceptOrder h r f s) (.placed h s.ort.nextSeq) := by
  obtain ⟨hentry, hbatch⟩ := not_or.1 h6
  obtain ⟨h, hh⟩ := Option.ne_none_iff_exists'.1 (mt entryForOrder_eq_none_iff.1 hentry)
  refine ⟨h, hh, ?_⟩
  simp only [placeOrder, hf, if_neg (mt duplicateOrder_iff.1 h3), if_neg (mt (notFoundOrder_iff hf).1 h4),
    if_neg (mt (gated_iff hf).1 h5), hh, if_neg (mt batchFull_iff.1 hbatch)]

end Checks

/-- Settles O20, check by check. -/
theorem orderPlaceChecksInOrder : Obligations.OrderPlaceChecksInOrder := by
  refine fun s tag payload r _ a hd => ⟨fun h2 => ?fields, fun h2 h3 => ?repeats, fun h2 h3 h4 => ?unknown,
    fun h2 h3 h4 h5 => ?gated, fun h2 h3 h4 h5 h6 => ?noRoom⟩
  case fields => exact exec_orderPlace a hd (placeOrder_badField (s := popHost s) h2)
  all_goals obtain ⟨f, hf⟩ := placeFieldsAllowed_iff.1 h2
  case repeats => exact exec_orderPlace a hd (placeOrder_duplicate (s := popHost s) hf h3)
  case unknown => exact exec_orderPlace a hd (placeOrder_notFound (s := popHost s) hf h3 h4)
  case gated => exact exec_orderPlace a hd (placeOrder_gated (s := popHost s) hf h3 h4 h5)
  case noRoom => exact exec_orderPlace a hd (placeOrder_full (s := popHost s) hf h3 h4 h5 h6)

/-! ## An accepted order (R45, R66, R137) -/

section Accepted

variable {h : Nat}

/-- Of two elements no one comes before the other the wrong way round, and to come no earlier is transitive. -/
structure WeakOrder {β : Type} (before : β → β → Bool) : Prop where
  asymm : ∀ {x z}, before x z = true → before z x = false
  trans : ∀ {x z w}, before z x = false → before w z = false → before w x = false

theorem weakOrder_rank {β : Type} {rank : β → Nat} : WeakOrder (fun x z => decide (rank x < rank z)) where
  asymm h := by simp at h ⊢; omega
  trans h1 h2 := by simp at h1 h2 ⊢; omega

/-- The best of a list is the first that no other comes before. -/
theorem bestBy_first {β : Type} {before : β → β → Bool} (ho : WeakOrder before) {xs : List β} {m : β}
    (hb : bestBy before xs = some m) :
    ∃ pre post, xs = pre ++ m :: post ∧ (∀ x ∈ pre, before m x = true) ∧ ∀ x ∈ post, before x m = false := by
  induction xs generalizing m with
  | nil => cases hb
  | cons x xs ih =>
    rw [bestBy] at hb
    split at hb
    · next hn =>
      cases hb
      rw [bestBy_eq_none_iff.1 hn]
      exact ⟨[], [], rfl, by simp, by simp⟩
    · next y hy =>
      obtain ⟨pre, post, rfl, hpre, hpost⟩ := ih hy
      by_cases hlt : before y x = true
      · rw [if_pos hlt] at hb
        cases hb
        exact ⟨x :: pre, post, rfl, List.forall_mem_cons.2 ⟨hlt, hpre⟩, hpost⟩
      · rw [if_neg hlt] at hb
        cases hb
        rw [Bool.not_eq_true] at hlt
        refine ⟨[], _, rfl, by simp, fun z hz => ?_⟩
        obtain hz | hz := List.mem_append.1 hz
        · exact ho.trans hlt (ho.asymm (hpre z hz))
        · obtain rfl | hz := List.mem_cons.1 hz
          · exact hlt
          · exact ho.trans hlt (hpost z hz)

/-- The best by a rank is the first of the least rank. -/
theorem bestBy_least {β : Type} {rank : β → Nat} {xs : List β} {m : β}
    (hb : bestBy (fun a b => decide (rank a < rank b)) xs = some m) :
    ∃ pre post, xs = pre ++ m :: post ∧ (∀ x ∈ pre, rank m < rank x) ∧ ∀ x ∈ post, rank m ≤ rank x := by
  obtain ⟨pre, post, e, hpre, hpost⟩ := bestBy_first weakOrder_rank hb
  exact ⟨pre, post, e, fun x hx => of_decide_eq_true (hpre x hx),
    fun x hx => Nat.not_lt.1 (of_decide_eq_false (hpost x hx))⟩

theorem entryTaken_of_entryForOrder (hw : tblWf s.ort.orders = true) (hh : entryForOrder s.ort.orders = some h) :
    entryTaken s h := by
  unfold entryForOrder at hh
  split at hh
  · next k hk =>
    cases hh
    obtain ⟨hk256, hfree⟩ := tblFree_spec hk
    refine .inl ⟨hfree, hk256, fun j hj => ?_⟩
    obtain ⟨-, -, hlow⟩ := List.find?_range_eq_some.1 hk
    have hused := hlow j hj
    rw [Bool.not_not] at hused
    exact Option.isSome_iff_ne_none.1 hused
  · next hn =>
    obtain ⟨⟨h, o⟩, hb, rfl⟩ := Option.map_eq_some_iff.1 hh
    obtain ⟨pre, post, hsplit, hpre, hpost⟩ := bestBy_least (rank := fun e : Nat × Order => e.2.endedAt.getD 0) hb
    have hwt : tblWf (terminalOrders s.ort.orders) = true := tblWf_filter _ hw
    have hmem {k : Nat} {p : Order} : (k, p) ∈ terminalOrders s.ort.orders ↔ (k, p) ∈ s.ort.orders ∧ p.state.live = false := by
      simp [terminalOrders]
    obtain ⟨hin, hl⟩ := hmem.1 (bestBy_mem _ hb)
    refine .inr ⟨tblFree_eq_none_iff.1 hn, o, tblGet_of_mem hw hin, hl, fun k p hp hpl => ?_⟩
    have hk := hmem.2 ⟨tblGet_mem hp, hpl⟩
    rw [hsplit] at hk hwt
    obtain hk | hk := List.mem_append.1 hk
    · exact .inl (hpre _ hk)
    · obtain he | hk := List.mem_cons.1 hk
      · cases he
        exact .inr ⟨rfl, le_refl _⟩
      · have hlt := (List.pairwise_cons.1 (List.pairwise_append.1 (tblWf_iff_pairwise.1 hwt)).2.1).1 _ hk
        obtain hr | hr := lt_or_eq_of_le (hpost _ hk)
        · exact .inl hr
        · exact .inr ⟨hr, hlt.le⟩

theorem shelfAt_of_mem {m : ShelfMap} {k : Nat} {sh : Shelf} (hw : tblWf m.shelves = true) (h : (k, sh) ∈ m.shelves) :
    shelfAt m k = sh := by
  rw [shelfAt, tblGet_of_mem hw h]
  rfl

theorem mem_of_held {m : ShelfMap} {k : Nat} (h : (shelfAt m k).state = .held) : (k, shelfAt m k) ∈ m.shelves := by
  unfold shelfAt at h ⊢
  cases hg : tblGet m.shelves k with
  | none =>
    rw [hg] at h
    cases h
  | some sh => exact tblGet_mem hg

/-- The shelf a RETRIEVE claims is the lowest that holds its tag (R137). -/
theorem heldShelfOf_lowest {m : ShelfMap} {tag : Option CarrierTag} {k : Nat} (hw : tblWf m.shelves = true)
    (ht : tag ≠ none) (hk : heldShelfOf m tag = some k) :
    (shelfAt m k).state = .held ∧ (shelfAt m k).tag = tag ∧
      ∀ j, j < k → (shelfAt m j).state = .held → (shelfAt m j).tag ≠ tag := by
  obtain ⟨⟨k, sh⟩, hf, rfl⟩ := Option.map_eq_some_iff.1 hk
  obtain ⟨hp, pre, post, hsplit, hpre⟩ := List.find?_eq_some_iff_append.1 hf
  obtain ⟨hs, htag⟩ := (holdsTag_iff ht).1 hp
  have hin : (k, sh) ∈ m.shelves := by simp [hsplit]
  rw [shelfAt_of_mem hw hin]
  refine ⟨hs, htag, fun j hj hheld he => ?_⟩
  have hj' := mem_of_held hheld
  have hwp := tblWf_iff_pairwise.1 hw
  rw [hsplit] at hj' hwp
  obtain hin | hin := List.mem_append.1 hj'
  · have hno := hpre _ hin
    rw [Bool.not_eq_true'] at hno
    exact Bool.false_ne_true (hno.symm.trans ((holdsTag_iff ht).2 ⟨hheld, he⟩))
  · obtain he' | hin := List.mem_cons.1 hin
    · cases he'
      exact absurd hj (Nat.lt_irrefl _)
    · exact absurd hj (Nat.lt_asymm ((List.pairwise_cons.1 (List.pairwise_append.1 hwp).2.1).1 _ hin))

/-- The claim of a RETRIEVE touches its source shelf alone, and sets no flag. -/
theorem claimSource_eq {tag : Option CarrierTag} :
    claimSource h f tag s = { s with shm := (claimSource h f tag s).shm } := by
  unfold claimSource
  split
  · split
    · rw [setShelf_eq]
      simp
    · rfl
  · rfl

theorem claimSource_other {tag : Option CarrierTag} (hk : f.kind ≠ .retrieve) : claimSource h f tag s = s :=
  if_neg hk

theorem claimSource_retrieve {tag : Option CarrierTag} {k : Nat} (hk : f.kind = .retrieve)
    (hs : heldShelfOf s.shm tag = some k) :
    (claimSource h f tag s).shm.reserves = s.shm.reserves ∧
      shelfAt (claimSource h f tag s).shm k = { shelfAt s.shm k with state := .outbound, claim := some h } ∧
      ∀ j, j ≠ k → shelfAt (claimSource h f tag s).shm j = shelfAt s.shm j := by
  have e : claimSource h f tag s = setShelf k { shelfAt s.shm k with state := .outbound, claim := some h } s := by
    rw [claimSource, if_pos hk, hs]
  rw [e]
  refine ⟨by rw [setShelf_eq], ?_, fun j hj => ?_⟩
  · rw [setShelf_at, if_pos rfl]
  · rw [setShelf_at, if_neg hj]

theorem openBatch_get (b : Tbl Batch) (tag : Option Nat) (k : Nat) :
    tblGet (openBatch b tag) k =
      if tag = some k then
        match tblGet b k with
        | some e => some { e with openCount := e.openCount + 1, total := e.total + 1 }
        | none => some { openCount := 1, failed := 0, total := 1 }
      else tblGet b k := by
  cases tag with
  | none => simp [openBatch]
  | some j =>
    simp only [openBatch, Option.some.injEq]
    by_cases hj : j = k
    · subst hj
      rw [if_pos rfl]
      cases tblGet b j <;> exact tblGet_set_self _ _ _
    · rw [if_neg hj]
      cases tblGet b j <;> exact tblGet_set_other _ _ (Ne.symm hj)

/-- What is taken of the state before an accepted order is entered: its number, its batch and its source shelf. -/
def claimed (h : Nat) (r : OrderPlaceReq) (f : OrderForm) (s : State) : State :=
  claimSource h f r.carrierTag
    { s with
      ort := { s.ort with nextSeq := satTime (s.ort.nextSeq + 1), batches := openBatch s.ort.batches r.batchTag } }

/-- An accepted order's effect, field by field. -/
theorem acceptOrder_eq :
    acceptOrder h r f s =
      { s with
        ort := { s.ort with
          orders := tblSet s.ort.orders h (newOrder s r f (placedSource s f r.carrierTag))
          nextSeq := satTime (s.ort.nextSeq + 1)
          batches := openBatch s.ort.batches r.batchTag }
        asa := { s.asa with
          examPending := s.asa.examPending || !r.hold
          rescan := (acceptOrder h r f s).asa.rescan }
        shm := (claimed h r f s).shm } := by
  have e : acceptOrder h r f s =
      setExamIf (!r.hold)
        (putOrder h (newOrder s r f (placedSource s f r.carrierTag))
          { s with
            ort := { s.ort with
              nextSeq := satTime (s.ort.nextSeq + 1), batches := openBatch s.ort.batches r.batchTag }
            shm := (claimed h r f s).shm }) :=
    congrArg (fun u => setExamIf (!r.hold) (putOrder h (newOrder s r f (placedSource s f r.carrierTag)) u)) claimSource_eq
  rw [e]
  cases r.hold <;> simp [setExamIf, setExam, putOrder]

/-- The shelves of an accepted order: a RETRIEVE claims the lowest shelf that holds its tag. -/
theorem claimed_retrieve {k : Nat} (hw : tblWf s.shm.shelves = true) (ht : r.carrierTag ≠ none) (hk : f.kind = .retrieve)
    (hs : heldShelfOf s.shm r.carrierTag = some k) :
    (shelfAt s.shm k).state = .held ∧ (shelfAt s.shm k).tag = r.carrierTag ∧
      (∀ j, j < k → (shelfAt s.shm j).state = .held → (shelfAt s.shm j).tag ≠ r.carrierTag) ∧
      shelfAt (claimed h r f s).shm k = { shelfAt s.shm k with state := .outbound, claim := some h } ∧
      ∀ j, j ≠ k → shelfAt (claimed h r f s).shm j = shelfAt s.shm j := by
  obtain ⟨h1, h2, h3⟩ := heldShelfOf_lowest hw ht hs
  obtain ⟨-, h4, h5⟩ := claimSource_retrieve (h := h) (f := f) (tag := r.carrierTag) (s := { s with
    ort := { s.ort with
      nextSeq := satTime (s.ort.nextSeq + 1), batches := openBatch s.ort.batches r.batchTag } }) hk hs
  exact ⟨h1, h2, h3, h4, h5⟩

theorem claimed_reserves : (claimed h r f s).shm.reserves = s.shm.reserves := by
  unfold claimed claimSource
  split
  · split
    · rw [setShelf_eq]
    · rfl
  · rfl

end Accepted

/-- Settles O21, by the checks of O20 and the entry, the claim and the batch of an accepted order. -/
theorem orderPlaceTakesAnEntry : Obligations.OrderPlaceTakesAnEntry := by
  intro s tag payload r hc a hd h2 h3 h4 h5 h6
  obtain ⟨f, hf⟩ := placeFieldsAllowed_iff.1 h2
  obtain ⟨h, hh, hp⟩ := placeOrder_accepted (s := popHost s) hf h3 h4 h5 h6
  obtain ⟨⟨hk, ht, hcl⟩, htg, he, hg, -, -⟩ := orderForm_eq_some.1 hf
  have hends := (formEndpoints_of_allowed (allowed_of_formEndpoints he)).symm.trans he
  rw [← hk, formedEndpoints] at hends
  obtain ⟨hsrc, hends⟩ := Prod.mk.inj (Option.some.inj hends)
  obtain ⟨hbay, hdest⟩ := Prod.mk.inj hends
  have hret : f.kind = .retrieve ↔ r.kind = 2 := by
    rw [hk]
    cases f.kind <;> decide
  have hstand : decide (f.trigger = .standing) = true ↔ r.trigger = 1 := by
    rw [ht]
    cases f.trigger <;> decide
  have htgt : f.targeting = if r.targeting = 0 then .direct r.target else .nearest (BitVec.ofNat 8 r.target) := by
    obtain ⟨h0, -, h0'⟩ | ⟨h1, -, h1'⟩ := formTargeting_eq_some.1 htg
    · rw [if_pos h0, h0']
    · rw [if_neg (by omega), h1']
  have hplaced : r.kind ≠ 2 → placedSource (popHost s) f r.carrierTag = f.source := fun h => if_neg (mt hret.1 h)
  have hx := exec_orderPlace a hd hp
  have e := acceptOrder_eq (h := h) (r := r) (f := f) (s := popHost s)
  generalize acceptOrder h r f (popHost s) = t at hx e
  refine ⟨_, h, newOrder (popHost s) r f (placedSource (popHost s) f r.carrierTag), hx,
    entryTaken_of_entryForOrder hc.orders.1 hh, ?entry, ?others,
    ⟨rfl, rfl, orderKindOf_iff.2 hk, triggerOf_iff.2 ht, orderClassOf_iff.2 hcl, rfl, rfl, rfl, rfl, rfl, rfl, hstand, htgt⟩,
    fun hh => ?held, fun hh => ?queued, ⟨rfl, rfl, rfl, rfl, rfl, rfl, rfl, rfl, rfl, rfl, rfl, rfl⟩, hdest.symm, hbay.symm,
    fun hs => ?source, fun hs => ?noSource, fun hs => ?shelves, fun hs => ?claim, fun k => ?batches,
    congrArg (·.ort.nextSeq) e, congrArg (·.ort.weights) e, congrArg (·.ort.gate) e, congrArg (·.asa) e, ?lines, ?reserves,
    congrArg (·.now) e, congrArg (·.lyt) e, congrArg (·.vht) e, congrArg (·.bac) e, congrArg (·.iss) e, congrArg (·.fcr) e⟩
  case entry => exact (congrArg (fun t : State => tblGet t.ort.orders h) e).trans (tblGet_set_self _ _ _)
  case others => exact fun k hk => (congrArg (fun t : State => tblGet t.ort.orders k) e).trans (tblGet_set_other _ _ hk)
  case held => simp [newOrder, hh]
  case queued => simp [newOrder, hh]
  case source => exact (hplaced (by omega)).trans (hsrc.symm.trans (if_pos hs))
  case noSource => exact (hplaced (by omega)).trans (hsrc.symm.trans (if_neg (by omega)))
  case shelves => exact (congrArg (·.shm) e).trans (congrArg (·.shm) (claimSource_other (mt hret.1 hs)))
  case claim =>
    have htag : r.carrierTag ≠ none := h2.tagGiven (by omega)
    have hsome : heldShelfOf s.shm r.carrierTag ≠ none :=
      mt (heldShelfOf_eq_none htag).1 fun hno => h4 (.inl ⟨hs, hno⟩)
    obtain ⟨k, hshelf⟩ := Option.ne_none_iff_exists'.1 hsome
    obtain ⟨c1, c2, c3, c4, c5⟩ := claimed_retrieve (s := popHost s) (h := h) hc.shelves.1 htag (hret.2 hs) hshelf
    have hat (j : Nat) : shelfAt t.shm j = _ := congrArg (fun t : State => shelfAt t.shm j) e
    refine ⟨k, ?_, c1, c2, c3, (hat k).trans c4, fun j hj => (hat j).trans (c5 j hj)⟩
    exact (if_pos (hret.2 hs)).trans (congrArg (Option.map Endpoint.shelf) hshelf)
  case batches => exact (congrArg (fun t : State => tblGet t.ort.batches k) e).trans (openBatch_get _ _ _)
  case lines => exact congrArg (fun t => (placeReply ⟨0xA0, tag, .ok, .placed h s.ort.nextSeq⟩ t).liu) e
  case reserves => exact (congrArg (·.shm.reserves) e).trans claimed_reserves

end Sys2Proof.Machine
end

section
/-! What a step does on an empty queue: the steps that are due, and the one that is taken (R1, R71, R72, R99, R102, R107,
R122, R125, R127, R149, R152, R163, R173 to R177, R181). -/
namespace Sys2Proof.Machine

open Sys2Proof

variable {s : State} {c i : Instr}

/-! ## Each kind of step that is due -/

section Due

theorem mem_stepIf {b : Bool} : c ∈ stepIf b i ↔ b = true ∧ c = i := by
  cases b <;> simp [stepIf]

theorem timerDue_iff {t : Option Timer} {now : Nat} : timerDue t now = true ↔ expired t now := by
  cases t <;> simp [timerDue, Timer.due, expired]

theorem parkDue_iff {v : Vehicle} :
    parkDue s.vht s.now v = true ↔
      s.vht.parkOn = true ∧ v.idleLevel = .ready ∧ levelDue v (v.idleSince + s.vht.tPark) s.now := by
  simp [parkDue, parkHolds, parkTime, Timer.due, levelDue, satTime, timeMax]
  tauto

theorem dormDue_iff {v : Vehicle} :
    dormDue s.vht s.now v = true ↔
      s.vht.dormOn = true ∧ v.idleLevel ≠ .dormant ∧ levelDue v (v.idleSince + s.vht.tPark + s.vht.tDorm) s.now := by
  simp [dormDue, dormHolds, dormTime, Timer.due, levelDue, satTime, timeMax]
  tauto

/-- The step takes the head of the host input queue. -/
def HostDue (s : State) (c : Instr) : Prop :=
  s.liu.replySlot = none ∧ s.liu.restartPending = false ∧
    ((∃ tag rest, s.liu.hostQueue = .mark tag :: rest ∧ c = .busyMarkReply) ∨
      ∃ body rest, s.liu.hostQueue = .frame body :: rest ∧
        (hostRow (bodyKind body) = some c ∨ hostRow (bodyKind body) = none ∧ c = .badKind))

/-- The step takes the head of the fleet input queue. -/
def FleetDue (s : State) (c : Instr) : Prop :=
  ∃ body rest, s.liu.fleetIn = body :: rest ∧
    (fleetRow (bodyKind body) (bodyPayload body) = some c ∨
      fleetRow (bodyKind body) (bodyPayload body) = none ∧ c = .fleetFrameDrop)

theorem mem_hostStep : c ∈ hostStep s ↔ HostDue s c := by
  unfold hostStep HostDue hostHead
  by_cases hm : mayTake s = true
  · obtain ⟨hr, hp⟩ := mayTake_iff.1 hm
    rw [if_pos hm]
    cases s.liu.hostQueue with
    | nil => simp
    | cons x rest =>
      cases x with
      | mark tag => simp [hr, hp]
      | frame body => cases h : hostRow (bodyKind body) <;> simp [hr, hp, h, eq_comm]
  · rw [if_neg hm]
    refine iff_of_false (by simp) fun ⟨hr, hp, _⟩ => hm (mayTake_iff.2 ⟨hr, hp⟩)

theorem mem_fleetStep : c ∈ fleetStep s ↔ FleetDue s c := by
  unfold fleetStep FleetDue
  cases s.liu.fleetIn with
  | nil => simp
  | cons body rest => cases h : fleetRow (bodyKind body) (bodyPayload body) <;> simp [h, eq_comm]

theorem mem_ownSteps :
    c ∈ ownSteps s ↔
      HostDue s c ∨ FleetDue s c ∨ (s.liu.replySlot ≠ none ∧ c = .replyTransmit) ∨
        ((s.liu.replySlot = none ∧ s.liu.restartPending = false ∧ s.liu.notices ≠ []) ∧ c = .noticeTransmit) ∨
        ((s.gwrdy = true ∧ s.liu.fleetOut ≠ []) ∧ c = .fleetCommandTransmit) ∨
        ((s.liu.restartPending = true ∧ s.liu.replySlot = none) ∧ c = .restartEffect) ∨
        ((s.lyt.opState = .running ∧ s.asa.examPending = true) ∧ c = .grantStep) ∨
        (s.iss.state = .surveying ∧ c = .surveyBayStep) := by
  simp only [ownSteps, lineSteps, List.mem_append, mem_hostStep, mem_fleetStep, mem_stepIf, Bool.and_eq_true, mayTake_iff,
    decide_eq_true_eq, Option.isSome_iff_ne_none, Bool.not_eq_true', List.isEmpty_eq_false_iff, or_assoc, and_assoc]

theorem mem_timerSteps :
    c ∈ timerSteps s ↔
      (expired s.asa.rescan s.now ∧ c = .rescanTimerExpiry) ∨ (expired s.iss.timer s.now ∧ c = .surveyTimerExpiry) ∨
        (∃ e ∈ s.vht.vehicles, c ∈ vehicleSteps s e.1 e.2) ∨ (∃ e ∈ s.bac.bays, c ∈ baySteps s e.1 e.2) ∨
        ∃ e ∈ s.ort.orders, expired e.2.orphan s.now ∧ c = .orphanTimerExpiry e.1 := by
  simp only [timerSteps, blockTimers, List.mem_append, mem_stepIf, timerDue_iff, List.mem_flatten, List.mem_map,
    List.mem_filter, exists_exists_and_eq_and, or_assoc, and_assoc, eq_comm (a := c)]

theorem mem_vehicleSteps {k : Nat} {v : Vehicle} :
    c ∈ vehicleSteps s k v ↔
      (expired v.takeTimer s.now ∧ c = .takeTimerExpiry k) ∨ (expired v.silence s.now ∧ c = .silenceTimerExpiry k) ∨
        ((s.vht.parkOn = true ∧ v.idleLevel = .ready ∧ levelDue v (v.idleSince + s.vht.tPark) s.now) ∧ c = .parkStep k) ∨
        ((s.vht.dormOn = true ∧ v.idleLevel ≠ .dormant ∧
          levelDue v (v.idleSince + s.vht.tPark + s.vht.tDorm) s.now) ∧ c = .dormantStep k) := by
  simp only [vehicleSteps, List.mem_append, mem_stepIf, timerDue_iff, parkDue_iff, dormDue_iff, or_assoc]

theorem mem_baySteps {b : Nat} {y : BayState} :
    c ∈ baySteps s b y ↔
      (∃ a ∈ y.admitted, (a.inside = false ∧ expired a.lapse s.now) ∧ c = .lapseTimerExpiry b a.slot) ∨
        (expired y.yield s.now ∧ c = .yieldTimerExpiry b) ∨
        ∃ w ∈ y.queue, expired w.starve s.now ∧ c = .starvationTimerExpiry b w.slot := by
  simp only [baySteps, List.mem_append, mem_stepIf, timerDue_iff, List.mem_map, List.mem_filter, Bool.and_eq_true,
    Bool.not_eq_true', or_assoc, and_assoc, eq_comm (a := c)]

end Due

/-! ## The steps that are due are the ones the rules name -/

section Named

/-- What a row makes of the head of a queue is due while the head waits. -/
theorem dueNow_of_takesHead {kind : Nat} {payload : List Byte}
    (hi : hostRow kind = some c ∨ fleetRow kind payload = some c) (h : takesHead s c) : DueNow s c := by
  obtain hi | hi := hi
  · unfold hostRow at hi
    split at hi
    case h_41 => contradiction
    all_goals
      obtain rfl := Option.some.inj hi
      exact h
  · unfold fleetRow at hi
    split at hi
    case h_16 => contradiction
    all_goals
      obtain ⟨_, -, rfl⟩ := Option.map_eq_some_iff.1 hi
      exact h

theorem row_not_expiry {kind : Nat} {payload : List Byte}
    (hi : hostRow kind = some c ∨ fleetRow kind payload = some c) : isExpiry c = false := by
  obtain hi | hi := hi
  · unfold hostRow at hi
    split at hi
    case h_41 => contradiction
    all_goals
      obtain rfl := Option.some.inj hi
      rfl
  · unfold fleetRow at hi
    split at hi
    case h_16 => contradiction
    all_goals
      obtain ⟨_, -, rfl⟩ := Option.map_eq_some_iff.1 hi
      rfl

/-- A step that a block takes of its own accord is due, and is no expiry. -/
theorem dueNow_of_own (h : c ∈ ownSteps s) : DueNow s c ∧ isExpiry c = false := by
  obtain ⟨hr, hp, ⟨tag, rest, hq, rfl⟩ | ⟨body, rest, hq, hk | ⟨hk, rfl⟩⟩⟩ | ⟨body, rest, hq, hk | ⟨hk, rfl⟩⟩ | ⟨hd, rfl⟩ |
    ⟨hd, rfl⟩ | ⟨hd, rfl⟩ | ⟨hd, rfl⟩ | ⟨hd, rfl⟩ | ⟨hd, rfl⟩ := mem_ownSteps.1 h
  · exact ⟨⟨hr, hp, tag, rest, hq⟩, rfl⟩
  · exact ⟨dueNow_of_takesHead (payload := []) (.inl hk) (.inl ⟨hr, hp, body, rest, hq, hk⟩),
      row_not_expiry (payload := []) (.inl hk)⟩
  · exact ⟨⟨hr, hp, body, rest, hq, hk⟩, rfl⟩
  · exact ⟨dueNow_of_takesHead (.inr hk) (.inr ⟨body, rest, hq, hk⟩), row_not_expiry (.inr hk)⟩
  · exact ⟨⟨body, rest, hq, hk⟩, rfl⟩
  all_goals exact ⟨hd, rfl⟩

/-- The expiry of a timer is due. -/
theorem dueNow_of_timer (h : c ∈ timerSteps s) : DueNow s c ∧ isExpiry c = true := by
  obtain ⟨hd, rfl⟩ | ⟨hd, rfl⟩ | ⟨⟨k, v⟩, hm, hv⟩ | ⟨⟨b, y⟩, hm, hy⟩ | ⟨⟨k, o⟩, hm, ho, rfl⟩ := mem_timerSteps.1 h
  · exact ⟨hd, rfl⟩
  · exact ⟨hd, rfl⟩
  · obtain ⟨hd, rfl⟩ | ⟨hd, rfl⟩ | ⟨hd, rfl⟩ | ⟨hd, rfl⟩ := mem_vehicleSteps.1 hv <;> exact ⟨⟨v, hm, hd⟩, rfl⟩
  · obtain ⟨a, ha, ⟨hi, hd⟩, rfl⟩ | ⟨hd, rfl⟩ | ⟨w, hw, hd, rfl⟩ := mem_baySteps.1 hy
    · exact ⟨⟨y, a, hm, ha, rfl, hi, hd⟩, rfl⟩
    · exact ⟨⟨y, hm, hd⟩, rfl⟩
    · exact ⟨⟨y, w, hm, hw, rfl, hd⟩, rfl⟩
  · exact ⟨⟨o, hm, ho⟩, rfl⟩

/-- A step that is due is one a block takes of its own accord, or the expiry of a timer. -/
theorem mem_steps_of_dueNow (h : DueNow s c) : c ∈ ownSteps s ∨ c ∈ timerSteps s := by
  rw [mem_ownSteps, mem_timerSteps]
  cases c
  case powerOnReset | gwrdyFall | gwrdyRise | hostFrameReceived | fleetFrameReceived | triggerBFire | batchDone |
      noTakeLimit => exact h.elim
  case busyMarkReply =>
    obtain ⟨hr, hp, tag, rest, hq⟩ := h
    exact .inl (.inl ⟨hr, hp, .inl ⟨tag, rest, hq, rfl⟩⟩)
  case badKind =>
    obtain ⟨hr, hp, body, rest, hq, hk⟩ := h
    exact .inl (.inl ⟨hr, hp, .inr ⟨body, rest, hq, .inr ⟨hk, rfl⟩⟩⟩)
  case fleetFrameDrop =>
    obtain ⟨body, rest, hq, hk⟩ := h
    exact .inl (.inr (.inl ⟨body, rest, hq, .inr ⟨hk, rfl⟩⟩))
  case replyTransmit => exact .inl (.inr (.inr (.inl ⟨h, rfl⟩)))
  case noticeTransmit => exact .inl (.inr (.inr (.inr (.inl ⟨h, rfl⟩))))
  case fleetCommandTransmit => exact .inl (.inr (.inr (.inr (.inr (.inl ⟨h, rfl⟩)))))
  case restartEffect => exact .inl (.inr (.inr (.inr (.inr (.inr (.inl ⟨h, rfl⟩))))))
  case grantStep => exact .inl (.inr (.inr (.inr (.inr (.inr (.inr (.inl ⟨h, rfl⟩)))))))
  case surveyBayStep => exact .inl (.inr (.inr (.inr (.inr (.inr (.inr (.inr ⟨h, rfl⟩)))))))
  case rescanTimerExpiry => exact .inr (.inl ⟨h, rfl⟩)
  case surveyTimerExpiry => exact .inr (.inr (.inl ⟨h, rfl⟩))
  case takeTimerExpiry k =>
    obtain ⟨v, hm, h⟩ := h
    exact .inr (.inr (.inr (.inl ⟨(k, v), hm, mem_vehicleSteps.2 (.inl ⟨h, rfl⟩)⟩)))
  case silenceTimerExpiry k =>
    obtain ⟨v, hm, h⟩ := h
    exact .inr (.inr (.inr (.inl ⟨(k, v), hm, mem_vehicleSteps.2 (.inr (.inl ⟨h, rfl⟩))⟩)))
  case parkStep k =>
    obtain ⟨v, hm, h⟩ := h
    exact .inr (.inr (.inr (.inl ⟨(k, v), hm, mem_vehicleSteps.2 (.inr (.inr (.inl ⟨h, rfl⟩)))⟩)))
  case dormantStep k =>
    obtain ⟨v, hm, h⟩ := h
    exact .inr (.inr (.inr (.inl ⟨(k, v), hm, mem_vehicleSteps.2 (.inr (.inr (.inr ⟨h, rfl⟩)))⟩)))
  case lapseTimerExpiry b k =>
    obtain ⟨y, a, hm, ha, rfl, h⟩ := h
    exact .inr (.inr (.inr (.inr (.inl ⟨(b, y), hm, mem_baySteps.2 (.inl ⟨a, ha, h, rfl⟩)⟩))))
  case yieldTimerExpiry b =>
    obtain ⟨y, hm, h⟩ := h
    exact .inr (.inr (.inr (.inr (.inl ⟨(b, y), hm, mem_baySteps.2 (.inr (.inl ⟨h, rfl⟩))⟩))))
  case starvationTimerExpiry b k =>
    obtain ⟨y, w, hm, hw, rfl, h⟩ := h
    exact .inr (.inr (.inr (.inr (.inl ⟨(b, y), hm, mem_baySteps.2 (.inr (.inr ⟨w, hw, h, rfl⟩))⟩))))
  case orphanTimerExpiry k =>
    obtain ⟨o, hm, h⟩ := h
    exact .inr (.inr (.inr (.inr (.inr ⟨(k, o), hm, h, rfl⟩))))
  all_goals
    obtain ⟨hr, hp, body, rest, hq, hk⟩ | ⟨body, rest, hq, hk⟩ := h
    · exact .inl (.inl ⟨hr, hp, .inr ⟨body, rest, hq, .inl hk⟩⟩)
    · exact .inl (.inr (.inl ⟨body, rest, hq, .inl hk⟩))

theorem mem_dueSteps : c ∈ dueSteps s ↔ DueNow s c := by
  rw [dueSteps, List.mem_append]
  exact ⟨fun h => h.elim (fun h => (dueNow_of_own h).1) (fun h => (dueNow_of_timer h).1), mem_steps_of_dueNow⟩

end Named

/-- Settles O2, by the steps that are due and the choice among them. -/
theorem emptyQueueTakesWhatIsDue : Obligations.EmptyQueueTakesWhatIsDue := by
  refine ⟨fun s c => mem_dueSteps, fun s t hp ht => ?_⟩
  have hs : step s = .next (idle s) := by
    unfold step
    rw [hp]
  subst ht
  rw [hs]
  refine ⟨fun hno => ?nothing, fun ⟨c, hc, hx⟩ => ?expiry, fun _ _ => ?own⟩
  case nothing =>
    have hd : dueSteps s = [] := List.eq_nil_iff_forall_not_mem.2 fun c hc => hno c (mem_dueSteps.1 hc)
    have hw : waits s = true := by simp [waits, hd]
    rw [idle, if_pos hw]
    rfl
  case expiry =>
    have hin : c ∈ timerSteps s := by
      obtain h | h := mem_steps_of_dueNow hc
      · rw [(dueNow_of_own h).2] at hx
        cases hx
      · exact h
    have hw : waits s = false := waits_eq_false_of_timer (List.ne_nil_of_mem hin)
    obtain ⟨h, -⟩ | ⟨-, d, hd, e⟩ := idle_cases s
    · rw [hw] at h
      cases h
    · exact ⟨d, mem_dueSteps.1 hd, by rw [e]⟩
  case own =>
    obtain ⟨-, e⟩ | ⟨-, d, hd, e⟩ := idle_cases s
    · exact .inl (by rw [e]; rfl)
    · exact .inr ⟨d, mem_dueSteps.1 hd, by rw [e]⟩

end Sys2Proof.Machine
end

section
/-! The searches for a shelf in the third stage of an evaluation (R76, R133, R138 to R140). -/
namespace Sys2Proof.Machine

open Sys2Proof

variable {s : State} {o : Order} {y : BayRec} {b c k lo hi : Nat}

/-! ## Ordering by a rank -/

section Ordering

variable {α : Type} {before : α → α → Bool} {l : List α}

theorem insertBy_pairwise (hb : WeakOrder before) {x : α} (hl : l.Pairwise (fun u v => before v u = false)) :
    (insertBy before x l).Pairwise (fun u v => before v u = false) := by
  induction l with
  | nil => exact List.pairwise_singleton _ _
  | cons z l ih =>
    obtain ⟨hz, hl'⟩ := List.pairwise_cons.1 hl
    by_cases h : before z x = true
    · rw [insertBy, if_pos h]
      refine List.pairwise_cons.2 ⟨fun w hw => ?_, ih hl'⟩
      obtain rfl | hw := (mem_insertBy before x w l).1 hw
      · exact hb.asymm h
      · exact hz w hw
    · rw [insertBy, if_neg h]
      rw [Bool.not_eq_true] at h
      refine List.pairwise_cons.2 ⟨fun w hw => ?_, hl⟩
      obtain rfl | hw := List.mem_cons.1 hw
      · exact h
      · exact hb.trans h (hz w hw)

/-- In an ordered list nothing comes before what stands earlier. -/
theorem sortBy_pairwise (hb : WeakOrder before) : (sortBy before l).Pairwise (fun u v => before v u = false) := by
  induction l with
  | nil => exact List.Pairwise.nil
  | cons x l ih => exact insertBy_pairwise hb ih

end Ordering

/-! ## The search of a region (R133) -/

section Region

variable {r : Reserve} {g : Region} {p : Shelf → Bool}

/-- A region takes up the local indexes from `lo` to below `hi`. -/
structure RegionSpans (y : BayRec) (r : Reserve) (g : Region) (lo hi : Nat) : Prop where
  within : hi ≤ y.rackCount
  spans : ∀ i, i < y.rackCount → (regionOf y.rackCount r.hot r.empty i = g ↔ lo ≤ i ∧ i < hi)

theorem general_spans : RegionSpans y (reserveOf s.shm b) .general 0 (emptyFrom s b y) where
  within := by unfold emptyFrom; omega
  spans _ _ := regionOf_general

theorem emptyReserve_spans : RegionSpans y (reserveOf s.shm b) .emptyReserve (emptyFrom s b y) (hotFrom s b y) where
  within := by unfold hotFrom; omega
  spans _ _ := regionOf_empty

theorem hotReserve_spans : RegionSpans y (reserveOf s.shm b) .hotReserve (hotFrom s b y) y.rackCount where
  within := le_refl _
  spans _ hi := regionOf_hot hi

theorem shelfIn_eq (hy : tblGet s.lyt.bays b = some y) :
    shelfIn s b g p = ((List.range y.rackCount).find? (fun i =>
      decide (regionOf y.rackCount (reserveOf s.shm b).hot (reserveOf s.shm b).empty i = g ∧
        p (shelfAt s.shm (y.rackBase + i)) = true))).map (fun i => y.rackBase + i) := by
  simp only [shelfIn, hy, regionShelves, List.find?_map, List.find?_filter, Function.comp_def, decide_eq_true_eq]

variable {P : Shelf → Prop}

theorem shelfIn_eq_some (hp : ∀ sh, p sh = true ↔ P sh) (hy : tblGet s.lyt.bays b = some y)
    (hs : RegionSpans y (reserveOf s.shm b) g lo hi) : shelfIn s b g p = some k ↔ FirstShelf s y lo hi P k := by
  have hlt {i : Nat} (h : i < hi) : i < y.rackCount := Nat.lt_of_lt_of_le h hs.within
  rw [shelfIn_eq hy, Option.map_eq_some_iff]
  simp only [List.find?_range_eq_some, Bool.not_eq_true', decide_eq_true_eq, decide_eq_false_iff_not, hp, List.mem_range]
  constructor
  · rintro ⟨i, ⟨⟨hg, hP⟩, hi, hno⟩, rfl⟩
    obtain ⟨h1, h2⟩ := (hs.spans i hi).1 hg
    exact ⟨i, h1, h2, rfl, hP, fun j h3 h4 hPj =>
      hno j h4 ⟨(hs.spans j (Nat.lt_trans h4 hi)).2 ⟨h3, Nat.lt_trans h4 h2⟩, hPj⟩⟩
  · rintro ⟨i, h1, h2, rfl, hP, hno⟩
    refine ⟨i, ⟨⟨(hs.spans i (hlt h2)).2 ⟨h1, h2⟩, hP⟩, hlt h2, fun j hj hPj => ?_⟩, rfl⟩
    exact hno j ((hs.spans j (Nat.lt_trans hj (hlt h2))).1 hPj.1).1 hj hPj.2

theorem shelfIn_eq_none (hp : ∀ sh, p sh = true ↔ P sh) (hy : tblGet s.lyt.bays b = some y)
    (hs : RegionSpans y (reserveOf s.shm b) g lo hi) : shelfIn s b g p = none ↔ NoShelf s y lo hi P := by
  rw [shelfIn_eq hy, Option.map_eq_none_iff]
  simp only [List.find?_range_eq_none, Bool.not_eq_true', decide_eq_false_iff_not, hp]
  constructor
  · intro hno i h1 h2 hP
    have hi := Nat.lt_of_lt_of_le h2 hs.within
    exact hno i hi ⟨(hs.spans i hi).2 ⟨h1, h2⟩, hP⟩
  · rintro hno i hi ⟨hg, hP⟩
    obtain ⟨h1, h2⟩ := (hs.spans i hi).1 hg
    exact hno i h1 h2 hP

theorem isFree_iff (sh : Shelf) : sh.isFree = true ↔ isFree sh := decide_eq_true_iff

theorem holdsEmpty_iff (sh : Shelf) : sh.holdsEmpty = true ↔ holdsEmpty sh := by
  simp [Shelf.holdsEmpty, holdsEmpty]

/-- A bay that is not in the layout has no shelves. -/
theorem shelfIn_noBay (hy : tblGet s.lyt.bays b = none) : shelfIn s b g p = none := by
  simp only [shelfIn, hy]

end Region

/-! ## The search of the bays (R138 to R140) -/

section Bays

variable {dist : Nat → Nat} {f : Nat → Option Nat}

theorem mem_searchOrder : c ∈ searchOrder s b dist ↔ (c = b ∨ ∃ y, (c, y) ∈ s.lyt.bays) ∧ bayOpen s.bac c = true := by
  simp only [searchOrder, List.mem_filter, List.mem_cons, mem_sortBy, List.mem_map, bne_iff_ne, Prod.exists,
    exists_and_right, exists_eq_right]
  by_cases h : c = b <;> simp [h]

/-- Of the bays searched, those before the first mention of one are nearer, or the first of all. -/
theorem searchOrder_split (hc : c ∈ searchOrder s b dist) :
    ∃ pre post, searchOrder s b dist = pre ++ c :: post ∧
      ∀ d ∈ pre, d ≠ c ∧ (d = b ∨ (c ≠ b ∧ dist d ≤ dist c)) := by
  have ho := (mem_searchOrder.1 hc).2
  by_cases hcb : c = b
  · subst hcb
    exact ⟨[], _, List.filter_cons_of_pos ho, by simp⟩
  · have near : (searchOrder s b dist).Pairwise (fun u v => u = b ∨ dist u ≤ dist v) := by
      refine List.Pairwise.filter _ (List.pairwise_cons.2 ⟨fun _ _ => .inl rfl, ?_⟩)
      exact (sortBy_pairwise weakOrder_rank).imp fun h => .inr (by simpa using h)
    obtain ⟨pre, post, e, hn⟩ := List.eq_append_cons_of_mem hc
    rw [e] at near
    refine ⟨pre, post, e, fun d hd => ⟨fun h => hn (h ▸ hd), ?_⟩⟩
    obtain h | h := (List.pairwise_append.1 near).2.2 d hd c List.mem_cons_self
    · exact .inl h
    · exact .inr ⟨hcb, h⟩

/-- The search takes what the nearest bay that has something has. -/
theorem findSome_searchOrder (hc : c ∈ searchOrder s b dist) (hf : f c = some k)
    (hno : ∀ d, d ≠ c → (d = b ∨ (c ≠ b ∧ dist d ≤ dist c)) → bayOpen s.bac d = true → f d = none) :
    (searchOrder s b dist).findSome? f = some k := by
  obtain ⟨pre, post, e, hpre⟩ := searchOrder_split hc
  refine List.findSome?_eq_some_iff.2 ⟨pre, c, post, e, hf, fun d hd => ?_⟩
  obtain ⟨hne, hd'⟩ := hpre d hd
  exact hno d hne hd' (mem_searchOrder.1 (e ▸ List.mem_append_left _ hd)).2

theorem findSome_searchOrder_eq_none (hno : ∀ d, bayOpen s.bac d = true → f d = none) :
    (searchOrder s b dist).findSome? f = none :=
  List.findSome?_eq_none_iff.2 fun d hd => hno d (mem_searchOrder.1 hd).2

theorem offersReturn_iff : OffersReturn s c k ↔ bayOpen s.bac c = true ∧ shelfIn s c .emptyReserve Shelf.isFree = some k := by
  refine and_congr_right fun _ => ?_
  cases hy : tblGet s.lyt.bays c with
  | none => simp [shelfIn_noBay hy]
  | some y => simp [shelfIn_eq_some isFree_iff hy emptyReserve_spans]

/-- What a bay has for a SUPPLY_EMPTY (R140). -/
def supplyIn (s : State) (c : Nat) : Option Nat :=
  match shelfIn s c .emptyReserve Shelf.holdsEmpty with
  | some k => some k
  | none => shelfIn s c .general Shelf.holdsEmpty

theorem offersSupply_iff : OffersSupply s c k ↔ bayOpen s.bac c = true ∧ supplyIn s c = some k := by
  refine and_congr_right fun _ => ?_
  unfold supplyIn
  cases hy : tblGet s.lyt.bays c with
  | none => simp [shelfIn_noBay hy]
  | some y =>
    simp only [Option.some.injEq, exists_eq_left']
    rw [← shelfIn_eq_some holdsEmpty_iff hy emptyReserve_spans, ← shelfIn_eq_none holdsEmpty_iff hy emptyReserve_spans,
      ← shelfIn_eq_some holdsEmpty_iff hy general_spans]
    cases shelfIn s c .emptyReserve Shelf.holdsEmpty <;> simp

theorem returnShelf_found {z : Nat} (hc : OffersReturn s c k)
    (hno : ∀ d, d ≠ c → (d = z ∨ (c ≠ z ∧
      downstream s.lyt (exitJunction s.lyt z) d ≤ downstream s.lyt (exitJunction s.lyt z) c)) →
        ∀ j, ¬OffersReturn s d j) : returnShelf s z = some k := by
  obtain ⟨ho, hs⟩ := offersReturn_iff.1 hc
  obtain ⟨-, y, hy, -⟩ := hc
  refine findSome_searchOrder (mem_searchOrder.2 ⟨.inr ⟨y, tblGet_mem hy⟩, ho⟩) hs fun d hd hd' hod => ?_
  exact Option.eq_none_iff_forall_ne_some.2 fun j hj => hno d hd hd' j (offersReturn_iff.2 ⟨hod, hj⟩)

theorem returnShelf_none {z : Nat} (hno : ∀ c k, ¬OffersReturn s c k) : returnShelf s z = none :=
  findSome_searchOrder_eq_none fun d hd =>
    Option.eq_none_iff_forall_ne_some.2 fun j hj => hno d j (offersReturn_iff.2 ⟨hd, hj⟩)

theorem supplyShelf_eq (s : State) (z : Nat) :
    supplyShelf s z = (searchOrder s z (fun c => downstream s.lyt (exitJunction s.lyt c) z)).findSome? (supplyIn s) := rfl

theorem supplyShelf_found {z : Nat} (hc : OffersSupply s c k)
    (hno : ∀ d, d ≠ c → (d = z ∨ (c ≠ z ∧
      downstream s.lyt (exitJunction s.lyt d) z ≤ downstream s.lyt (exitJunction s.lyt c) z)) →
        ∀ j, ¬OffersSupply s d j) : supplyShelf s z = some k := by
  obtain ⟨ho, hs⟩ := offersSupply_iff.1 hc
  obtain ⟨-, y, hy, -⟩ := hc
  rw [supplyShelf_eq]
  refine findSome_searchOrder (mem_searchOrder.2 ⟨.inr ⟨y, tblGet_mem hy⟩, ho⟩) hs fun d hd hd' hod => ?_
  exact Option.eq_none_iff_forall_ne_some.2 fun j hj => hno d hd hd' j (offersSupply_iff.2 ⟨hod, hj⟩)

theorem supplyShelf_none {z : Nat} (hno : ∀ c k, ¬OffersSupply s c k) : supplyShelf s z = none := by
  rw [supplyShelf_eq]
  exact findSome_searchOrder_eq_none fun d hd =>
    Option.eq_none_iff_forall_ne_some.2 fun j hj => hno d j (offersSupply_iff.2 ⟨hd, hj⟩)

end Bays

/-- Settles O51, by the search of a region and that of the bays. -/
theorem shelvesAreSearchedInOrder : Obligations.ShelvesAreSearchedInOrder := by
  refine ⟨fun count hot empty i hle hi => ?regions, fun s o b y hk hd hb hy hr => ?store,
    fun s o src _ hk hd hs => ?returns, fun s o dst _ hk hd => ?supplies, fun s o hk => ?others⟩
  case regions =>
    unfold regionOf
    refine ⟨?_, ?_, ?_⟩ <;> split_ifs <;> simp <;> omega
  case store =>
    have e : resolveShelf s o = findOr .noShelf (storeShelf s b (decide (o.cls = .hot))) := by
      simp only [resolveShelf, hk, hd, hb, Option.getD_some]
    rw [e]
    refine ⟨fun k hf => ?_, fun k hn hh hf => ?_, fun hn hh => ?_⟩
    · rw [storeShelf, (shelfIn_eq_some isFree_iff hy general_spans).2 hf]
      rfl
    · rw [storeShelf, (shelfIn_eq_none isFree_iff hy general_spans).2 hn, hh,
        (shelfIn_eq_some isFree_iff hy hotReserve_spans).2 hf]
      rfl
    · rw [storeShelf, (shelfIn_eq_none isFree_iff hy general_spans).2 hn]
      obtain hh | hh := hh
      · simp [hh, findOr]
      · rw [(shelfIn_eq_none isFree_iff hy hotReserve_spans).2 hh, ite_self]
        rfl
  case returns =>
    have e : resolveShelf s o = findOr .noShelf (returnShelf s src.zone) := by
      simp only [resolveShelf, hk, hd, hs, bayOfStop]
    rw [e]
    exact ⟨fun c k hc hno => by rw [returnShelf_found hc hno]; rfl, fun hno => by rw [returnShelf_none hno]; rfl⟩
  case supplies =>
    have e : resolveShelf s o = findOr .noEmpty (supplyShelf s dst.zone) := by
      simp only [resolveShelf, hk, hd, bayOfStop]
    rw [e]
    exact ⟨fun c k hc hno => by rw [supplyShelf_found hc hno]; rfl, fun hno => by rw [supplyShelf_none hno]; rfl⟩
  case others =>
    unfold resolveShelf
    obtain hk | hk | ⟨hk | hk, hd⟩ := hk
    · rw [hk]
    · rw [hk]
    · obtain ⟨d, hd⟩ := Option.ne_none_iff_exists'.1 hd
      rw [hk, hd]
    · obtain ⟨d, hd⟩ := Option.ne_none_iff_exists'.1 hd
      rw [hk, hd]

end Sys2Proof.Machine
end

section
/-! The evaluation of an order: its stages, its candidates and their costs (R25 to R30, R74 to R78, R80). -/
namespace Sys2Proof.Machine

open Sys2Proof

variable {s : State} {o : Order} {v : Vehicle} {i : LayerId} {slot h : Nat}

/-! ## Candidates (R30, R80) -/

section Candidates

theorem delivers_iff {x : OrderTable} :
    delivers x v = true ↔ ∃ h p, activeOrder x v = some (h, p) ∧ (p.state = .carrying ∨ p.state = .placing) := by
  unfold delivers
  cases activeOrder x v with
  | none => simp
  | some e => simp [Prod.ext_iff]

theorem fillable_iff :
    fillable s v = true ↔
      (v.layer0 = .empty ∧ v.layer1 = .empty ∧ (v.activity = .idle ∨ v.activity = .repositioning)) ∨
        (s.asa.chainDepth = 2 ∧ (∀ i g, v.layer i ≠ .staged g) ∧
          ∃ h p, activeOrder s.ort v = some (h, p) ∧ (p.state = .carrying ∨ p.state = .placing)) := by
  simp only [fillable, Bool.or_eq_true, Bool.and_eq_true, decide_eq_true_eq, bothEmpty_iff, delivers_iff,
    Option.isNone_iff_eq_none, stagedLayer_eq_none_iff, and_assoc]
  exact or_congr_right (and_congr_right fun _ => and_comm)

theorem targeted_iff :
    targeted o v = true ↔
      (∃ f, o.targeting = .direct f ∧ v.fleetId = f) ∨ (∃ m, o.targeting = .nearest m ∧ v.groupMask &&& m ≠ 0#8) := by
  unfold targeted
  cases o.targeting with
  | direct f => simp [eq_comm (a := f)]
  | nearest m => simp

theorem inService_iff : v.inService = true ↔ v.link = .online ∧ v.hostStall = false ∧ v.faultStall = false := by
  simp [Vehicle.inService, Vehicle.online, and_assoc]

theorem screened_iff :
    screened s o v = true ↔ v.inService = true ∧ fillable s v = true ∧ targeted o v = true := by
  simp [screened, and_assoc]

/-- A vehicle is an ordinary candidate exactly by R30. -/
theorem candidateOf_ordinary :
    candidateOf s o slot v = some { slot := slot, vehicle := v, displaces := none } ↔ screened s o v = true := by
  unfold candidateOf
  by_cases hs : screened s o v = true
  · simp [hs]
  · rw [if_neg hs]
    refine iff_of_false (fun hc => ?_) hs
    split at hc
    · split at hc
      · split at hc
        · cases congrArg Candidate.displaces (Option.some.inj hc)
        · cases hc
      · cases hc
    · cases hc

/-- Every candidate is the vehicle's own, ordinary or of a displacement from a layer. -/
theorem candidateOf_slot {c : Candidate} (hc : candidateOf s o slot v = some c) : c.slot = slot := by
  unfold candidateOf at hc
  split at hc
  · cases hc
    rfl
  · split at hc
    · split at hc
      · split at hc
        · cases hc
          rfl
        · cases hc
      · cases hc
    · cases hc

theorem fillable_not_staged (hl : v.layer i = .staged h) : ¬fillable s v = true := by
  rw [fillable_iff]
  rintro (⟨h0, h1, -⟩ | ⟨-, hn, -⟩)
  · cases i
    · exact Layer.noConfusion (hl.symm.trans h0)
    · exact Layer.noConfusion (hl.symm.trans h1)
  · exact hn i h hl

theorem candidateOf_displacing {c : Candidate} :
    candidateOf s o slot v = some c ∧ c.displaces = some i ↔
      o.cls = .hot ∧ screened s o (unstaged v) = true ∧ (∃ h, displaceable s.ort v = some (h, i)) ∧
        c = { slot := slot, vehicle := unstaged v, displaces := some i } := by
  unfold candidateOf
  constructor
  · rintro ⟨hc, hi⟩
    split at hc
    · cases hc
      cases hi
    · split at hc
      · next hot =>
        split at hc
        · next h j hd =>
          split at hc
          · next hs =>
            cases hc
            cases hi
            exact ⟨hot, hs, ⟨h, hd⟩, rfl⟩
          · cases hc
        · cases hc
      · cases hc
  · rintro ⟨hot, hs, ⟨h, hd⟩, rfl⟩
    have hl : v.layer i = .staged h := by
      unfold displaceable at hd
      split at hd
      · next hst =>
        split at hd
        · split at hd
          · cases hd
          · cases hd
            exact layer_of_stagedLayer hst
        · cases hd
      · cases hd
    have hno : ¬screened s o v = true := fun hn => fillable_not_staged hl (screened_iff.1 hn).2.1
    simp only [if_neg hno, if_pos hot, hd, if_pos hs, and_self]

theorem displaceable_iff {x : OrderTable} :
    displaceable x v = some (h, i) ↔ v.stagedLayer = some (h, i) ∧ ∃ q, tblGet x.orders h = some q ∧ q.cls ≠ .hot := by
  unfold displaceable
  constructor
  · intro hd
    split at hd
    · next hst =>
      split at hd
      · next q hq =>
        split at hd
        · cases hd
        · next hc =>
          cases hd
          exact ⟨hst, q, hq, hc⟩
      · cases hd
    · cases hd
  · rintro ⟨hst, q, hq, hc⟩
    simp only [hst, hq, if_neg hc]

/-! ### The vehicle as a displacement would leave it -/

theorem unstaged_eq (hst : v.stagedLayer = some (h, i)) :
    unstaged v =
      { v.withLayer i .empty with
        activity := if v.activeLayer = none ∧ v.activity ≠ .repositioning then .idle else v.activity } := by
  have hw : { v.withLayer i .empty with activity := v.activity } = v.withLayer i .empty := by cases i <;> rfl
  unfold unstaged
  rw [hst]
  cases ha : v.activeLayer with
  | some a =>
    rw [if_neg (by simp)]
    exact hw.symm
  | none =>
    cases hy : v.activity with
    | repositioning =>
      rw [hy] at hw
      rw [if_neg (by simp)]
      exact hw.symm
    | idle => rfl
    | working => rfl

theorem unstaged_layer (hst : v.stagedLayer = some (h, i)) :
    (unstaged v).layer i = .empty ∧ (unstaged v).layer i.other = v.layer i.other := by
  rw [unstaged_eq hst]
  cases i <;> exact ⟨rfl, rfl⟩

theorem unstaged_of_none (hst : v.stagedLayer = none) : unstaged v = v := by
  unfold unstaged
  rw [hst]

theorem unstaged_inService (v : Vehicle) : (unstaged v).inService = v.inService := by
  cases hst : v.stagedLayer with
  | none => rw [unstaged_of_none hst]
  | some a =>
    rw [unstaged_eq hst]
    cases a.2 <;> rfl

theorem unstaged_targeted (o : Order) (v : Vehicle) : targeted o (unstaged v) = targeted o v := by
  cases hst : v.stagedLayer with
  | none => rw [unstaged_of_none hst]
  | some a =>
    rw [unstaged_eq hst]
    cases a.2 <;> rfl

/-- With its STAGED layer EMPTY a vehicle meets condition 2 of R30 where its other layer is EMPTY or delivers. -/
theorem fillable_unstaged (hst : v.stagedLayer = some (h, i)) :
    fillable s (unstaged v) = true ↔
      v.layer i.other = .empty ∨
        (s.asa.chainDepth = 2 ∧ ∃ h p, v.layer i.other = .active h ∧ tblGet s.ort.orders h = some p ∧
          (p.state = .carrying ∨ p.state = .placing)) := by
  obtain ⟨hi, ho⟩ := unstaged_layer hst
  have layers : (unstaged v).layer0 = .empty ∧ (unstaged v).layer1 = .empty ↔ v.layer i.other = .empty := by
    rw [← ho]
    cases i
    · exact and_iff_right hi
    · exact and_iff_left hi
  have staged : (∀ j g, (unstaged v).layer j ≠ .staged g) ↔ ∀ g, v.layer i.other ≠ .staged g := by
    refine ⟨fun hn g => ho ▸ hn i.other g, fun hn j g => ?_⟩
    obtain rfl | rfl : j = i ∨ j = i.other := by cases i <;> cases j <;> simp [LayerId.other]
    · rw [hi]
      exact Layer.noConfusion
    · rw [ho]
      exact hn g
  rw [fillable_iff, ← and_assoc, layers, staged]
  have hlay := layer_of_stagedLayer hst
  cases hx : v.layer i.other with
  | empty =>
    refine iff_of_true (.inl ⟨rfl, ?_⟩) (.inl rfl)
    have hn : v.activeLayer = none := by
      refine activeLayer_eq_none_iff.2 fun j g => ?_
      obtain rfl | rfl : j = i ∨ j = i.other := by cases i <;> cases j <;> simp [LayerId.other]
      · rw [hlay]
        exact Layer.noConfusion
      · rw [hx]
        exact Layer.noConfusion
    rw [unstaged_eq hst]
    by_cases hr : v.activity = .repositioning <;> simp [hn, hr]
  | staged g => simp
  | active g =>
    have hact : activeOrder s.ort (unstaged v) = (tblGet s.ort.orders g).map (fun p => (g, p)) := by
      have ha : (unstaged v).activeLayer = some (g, i.other) := by
        refine activeLayer_of_layer (ho.trans hx) fun k => ?_
        rw [LayerId.other_other, hi]
        exact Layer.noConfusion
      simp only [activeOrder, ha]
    rw [hact]
    simp

theorem displaced_activity (hst : v.stagedLayer = some (h, i)) (hn : ∀ g, v.layer i.other ≠ .staged g) :
    v.activeLayer = none ↔ v.layer i.other = .empty := by
  have hlay := layer_of_stagedLayer hst
  rw [activeLayer_eq_none_iff]
  constructor
  · intro ha
    cases hx : v.layer i.other with
    | empty => rfl
    | staged g => exact absurd hx (hn g)
    | active g => exact absurd hx (ha i.other g)
  · intro he j g
    obtain rfl | rfl : j = i ∨ j = i.other := by cases i <;> cases j <;> simp [LayerId.other]
    · rw [hlay]
      exact Layer.noConfusion
    · rw [he]
      exact Layer.noConfusion

theorem other_not_staged
    (hother : v.layer i.other = .empty ∨
      (s.asa.chainDepth = 2 ∧ ∃ h p, v.layer i.other = .active h ∧ tblGet s.ort.orders h = some p ∧
        (p.state = .carrying ∨ p.state = .placing))) : ∀ g, v.layer i.other ≠ .staged g := by
  intro g hg
  obtain he | ⟨-, k, p, ha, -⟩ := hother
  · exact Layer.noConfusion (he.symm.trans hg)
  · exact Layer.noConfusion (ha.symm.trans hg)

/-- The vehicle as a displacement would leave it: IDLE where nothing else is on it, unless it is repositioning. -/
theorem unstaged_displaced (hst : v.stagedLayer = some (h, i)) (hn : ∀ g, v.layer i.other ≠ .staged g) :
    unstaged v =
      { v.withLayer i .empty with
        activity := if v.layer i.other = .empty ∧ v.activity ≠ .repositioning then .idle else v.activity } := by
  rw [unstaged_eq hst]
  simp only [displaced_activity hst hn]

end Candidates

/-! ## The stages of an evaluation (R74 to R78) -/

section Stages

variable {f : ShelfFind}

theorem endpointsFail_bay (hb : ∃ b ∈ orderBays s.lyt o, bayOpen s.bac b = false) : endpointsFail s o = some .bayClosed := by
  have hn : ¬((orderBays s.lyt o).all (bayOpen s.bac)) = true := by
    obtain ⟨b, hm, hb⟩ := hb
    exact fun ha => Bool.false_ne_true (hb.symm.trans (List.all_eq_true.1 ha b hm))
  rw [endpointsFail, if_neg hn]

theorem endpointsFail_port (hb : ∀ b ∈ orderBays s.lyt o, bayOpen s.bac b = true)
    (hp : ∃ p ∈ endpointPort o.source ++ endpointPort o.dest, portOpen s.lyt p = false) :
    endpointsFail s o = some .portClosed := by
  have hn : ¬((endpointPort o.source ++ endpointPort o.dest).all (portOpen s.lyt)) = true := by
    obtain ⟨p, hm, hp⟩ := hp
    exact fun ha => Bool.false_ne_true (hp.symm.trans (List.all_eq_true.1 ha p hm))
  rw [endpointsFail, if_pos (List.all_eq_true.2 hb), if_neg hn]

theorem endpointsFail_none (hb : ∀ b ∈ orderBays s.lyt o, bayOpen s.bac b = true)
    (hp : ∀ p ∈ endpointPort o.source ++ endpointPort o.dest, portOpen s.lyt p = true) : endpointsFail s o = none := by
  rw [endpointsFail, if_pos (List.all_eq_true.2 hb), if_pos (List.all_eq_true.2 hp)]

theorem evaluate_fails {r : WaitReason} (he : endpointsFail s o = some r) : evaluate s o = .waits r := by
  simp only [evaluate, he]

theorem mem_candidates {c : Candidate} :
    c ∈ candidates s o ↔ ∃ e ∈ s.vht.vehicles, candidateOf s o e.1 e.2 = some c := by
  simp [candidates]

theorem candidates_eq_nil : candidates s o = [] ↔ ∀ e ∈ s.vht.vehicles, candidateOf s o e.1 e.2 = none :=
  List.filterMap_eq_nil_iff

theorem evaluate_noVehicle (he : endpointsFail s o = none) (hc : candidates s o = []) :
    evaluate s o = .waits .noVehicle := by
  simp only [evaluate, he, hc, List.isEmpty_nil, if_true]

theorem evaluate_missing {r : WaitReason} (he : endpointsFail s o = none) (hc : candidates s o ≠ [])
    (hf : resolveShelf s o = .missing r) : evaluate s o = .waits r := by
  have hn : ¬(candidates s o).isEmpty = true := by simpa using hc
  simp only [evaluate, he, if_neg hn, hf]

theorem evaluate_chooses (he : endpointsFail s o = none) (hc : candidates s o ≠ [])
    (hf : ∀ r, resolveShelf s o ≠ .missing r) :
    evaluate s o = chooseVehicle s o (resolveShelf s o) (candidates s o) := by
  have hn : ¬(candidates s o).isEmpty = true := by simpa using hc
  simp only [evaluate, he, if_neg hn]
  cases hr : resolveShelf s o with
  | missing r => exact absurd hr (hf r)
  | notNeeded => rfl
  | found k => rfl

theorem withinReach_iff {c : Nat} : withinReach o c = true ↔ ∀ r, o.reachLimit = some r → c ≤ r := by
  unfold withinReach
  cases o.reachLimit <;> simp

/-- The candidates whose cost is within the reach limit. -/
def withinLimit (s : State) (o : Order) (f : ShelfFind) (cs : List Candidate) : List Candidate :=
  cs.filter (fun c => withinReach o (costOf s (grantedSource o f) c))

theorem mem_withinLimit {c : Candidate} {cs : List Candidate} :
    c ∈ withinLimit s o f cs ↔ c ∈ cs ∧ ∀ r, o.reachLimit = some r → costOf s (grantedSource o f) c ≤ r := by
  rw [withinLimit, List.mem_filter, withinReach_iff]

theorem chooseVehicle_none {cs : List Candidate} (h : withinLimit s o f cs = []) :
    chooseVehicle s o f cs = .waits .reachLimit := by
  have h' : cs.filter (fun c => withinReach o (costOf s (grantedSource o f) c)) = [] := h
  rw [chooseVehicle, h']
  rfl

/-- The choice is the first candidate of least cost within the limit. -/
theorem chooseVehicle_some {cs : List Candidate} (h : withinLimit s o f cs ≠ []) :
    ∃ m pre post, chooseVehicle s o f cs = .servable ⟨m, costOf s (grantedSource o f) m, f⟩ ∧
      withinLimit s o f cs = pre ++ m :: post ∧
      (∀ x ∈ pre, costOf s (grantedSource o f) m < costOf s (grantedSource o f) x) ∧
      ∀ x ∈ post, costOf s (grantedSource o f) m ≤ costOf s (grantedSource o f) x := by
  obtain ⟨m, hm⟩ := Option.ne_none_iff_exists'.1 (mt (bestBy_eq_none_iff
    (before := fun a b => decide (costOf s (grantedSource o f) a < costOf s (grantedSource o f) b))).1 h)
  obtain ⟨pre, post, e, hpre, hpost⟩ := bestBy_least hm
  refine ⟨m, pre, post, ?_, e, hpre, hpost⟩
  rw [withinLimit] at hm
  rw [chooseVehicle, hm]

/-- Candidates come in the order of their slots. -/
theorem candidates_slots (hw : tblWf s.vht.vehicles = true) :
    (candidates s o).Pairwise (fun a b => a.slot < b.slot) := by
  refine List.pairwise_filterMap.2 ((tblWf_iff_pairwise.1 hw).imp fun {e d} hlt c hc b hb => ?_)
  rw [candidateOf_slot hc, candidateOf_slot hb]
  exact hlt

end Stages

/-! ## Reach costs (R25 to R28) -/

section Costs

variable {p : Stop}

theorem congestion_eq {z b crowd : Nat}
    (hc : crowd = (if z = b then 0 else s.asa.wC * (heldPlaces s.bac b + 1 - softLimit s.bac b))) :
    congestion s z b = crowd := hc.symm

/-- A vehicle with no ACTIVE order starts from where it last reported itself. -/
theorem reachCost_resting (ha : ∀ i h, v.layer i ≠ .active h) :
    reachCost s v p =
      min 65535 (wakePenalty s.asa v + travel s.lyt v.position.zone v.position.coord p.zone p.coord +
        congestion s v.position.zone p.zone) := by
  have hb : reachBase s v = 0 := by simp only [reachBase, activeOrder_eq_none ha]
  have hp : freePoint s v = (v.position.zone, v.position.coord) := by simp only [freePoint, activeOrder_eq_none ha]
  rw [reachCost, hb, hp, Nat.zero_add]

/-- A vehicle that delivers starts from its order's destination when its remaining work is done. -/
theorem reachCost_delivering {d : Stop} {done : Nat} (ha : activeOrder s.ort v = some (h, o)) (hi : v.activity ≠ .idle)
    (hd : stopOf? s.lyt o.dest = some d) (he : o.etaDone = some done) :
    reachCost s v p =
      min 65535 (min 65535 (done - s.now) + travel s.lyt d.zone d.coord p.zone p.coord + congestion s d.zone p.zone) := by
  have hb : reachBase s v = min 65535 (done - s.now) := by simp only [reachBase, ha, he, Option.getD_some]
  have hp : freePoint s v = (d.zone, d.coord) := by simp only [freePoint, ha, hd]
  have hw : wakePenalty s.asa v = 0 := by
    unfold wakePenalty
    cases hy : v.activity with
    | idle => exact absurd hy hi
    | working => cases v.idleLevel <;> rfl
    | repositioning => cases v.idleLevel <;> rfl
  rw [reachCost, hb, hp, hw, Nat.add_zero]

end Costs

theorem not_active_of_empty (h0 : v.layer0 = .empty) (h1 : v.layer1 = .empty) (i : LayerId) (h : Nat) :
    v.layer i ≠ .active h := by
  cases i <;> simp [Vehicle.layer, h0, h1]

/-- Settles O50, stage by stage, then by candidates and costs. -/
theorem evaluationTakesTheStagesInOrder : Obligations.EvaluationTakesTheStagesInOrder := by
  refine ⟨fun s o => ⟨fun hb => evaluate_fails (endpointsFail_bay hb), fun hb => ⟨fun hp => evaluate_fails (endpointsFail_port hb hp),
      fun hp => ⟨fun hc => ?noVehicle, fun hc => ?candidates⟩⟩⟩,
    fun s o slot v c i => ?displacing, fun s o slot v => ?ordinary, fun s v p wake crowd h0 h1 hy hw hc => ?idle,
    fun s v p crowd h0 h1 hy hc => ?repositioning,
    fun s v p d i h o done crowd hl he hy ho hst hd hdone hc => ?delivering⟩
  case noVehicle => exact evaluate_noVehicle (endpointsFail_none hb hp) (candidates_eq_nil.2 hc)
  case candidates =>
    have he := endpointsFail_none hb hp
    have hne : candidates s o ≠ [] := by
      obtain ⟨e, hm, hc⟩ := hc
      exact fun hn => hc (candidates_eq_nil.1 hn e hm)
    refine ⟨fun r hr => evaluate_missing he hne hr, fun hr => ?_⟩
    rw [evaluate_chooses he hne hr]
    refine ⟨fun hover => chooseVehicle_none ?_, fun hwithin hw => ?_⟩
    · refine List.eq_nil_iff_forall_not_mem.2 fun c hc => ?_
      obtain ⟨hc, hle⟩ := mem_withinLimit.1 hc
      obtain ⟨r, hr, hlt⟩ := hover c hc
      exact absurd (hle r hr) (Nat.not_le.2 hlt)
    · have hsome : withinLimit s o (resolveShelf s o) (candidates s o) ≠ [] := by
        obtain ⟨c, hc, hle⟩ := hwithin
        exact List.ne_nil_of_mem (mem_withinLimit.2 ⟨hc, hle⟩)
      obtain ⟨m, pre, post, hm, e, hpre, hpost⟩ := chooseVehicle_some hsome
      obtain ⟨hin, hle⟩ := mem_withinLimit.1 (e ▸ List.mem_append_right pre List.mem_cons_self)
      have hslots := (candidates_slots (o := o) hw).filter
        (fun c => withinReach o (costOf s (grantedSource o (resolveShelf s o)) c))
      refine ⟨_, hm, hin, rfl, rfl, hle, fun c hc => ?_⟩
      by_cases hcl : ∀ r, o.reachLimit = some r → costOf s (grantedSource o (resolveShelf s o)) c ≤ r
      · have hcm := mem_withinLimit.2 ⟨hc, hcl⟩
        rw [e] at hcm
        rw [← withinLimit, e] at hslots
        obtain hcm | hcm := List.mem_append.1 hcm
        · exact .inl (hpre c hcm)
        · obtain rfl | hcm := List.mem_cons.1 hcm
          · exact .inr (.inl ⟨rfl, le_refl _⟩)
          · obtain hlt | heq := lt_or_eq_of_le (hpost c hcm)
            · exact .inl hlt
            · exact .inr (.inl ⟨heq, ((List.pairwise_cons.1 (List.pairwise_append.1 hslots).2.1).1 c hcm).le⟩)
      · push Not at hcl
        exact .inr (.inr hcl)
  case displacing =>
    rw [candidateOf_displacing, screened_iff, unstaged_inService, unstaged_targeted, inService_iff, targeted_iff]
    constructor
    · rintro ⟨hot, ⟨⟨hl, hh, hf⟩, hfill, ht⟩, ⟨h, hd⟩, rfl⟩
      obtain ⟨hst, q, hq, hqc⟩ := displaceable_iff.1 hd
      have hother := (fillable_unstaged hst).1 hfill
      have hn := other_not_staged hother
      exact ⟨hot, hl, hh, hf, ht, ⟨h, q, layer_of_stagedLayer hst, hq, hqc⟩, hother, by rw [unstaged_displaced hst hn]⟩
    · rintro ⟨hot, hl, hh, hf, ht, ⟨h, q, hs, hq, hqc⟩, hother, rfl⟩
      have hn := other_not_staged hother
      have hst := stagedLayer_of_layer hs hn
      exact ⟨hot, ⟨⟨hl, hh, hf⟩, (fillable_unstaged hst).2 hother, ht⟩, ⟨h, displaceable_iff.2 ⟨hst, q, hq, hqc⟩⟩,
        by rw [unstaged_displaced hst hn]⟩
  case ordinary =>
    rw [candidateOf_ordinary, screened_iff, inService_iff, fillable_iff, targeted_iff]
    simp only [and_assoc]
  case idle =>
    have hp : wakePenalty s.asa v = wake := by
      rw [hw, wakePenalty, hy]
      cases v.idleLevel <;> rfl
    rw [reachCost_resting (not_active_of_empty h0 h1), hp, congestion_eq hc]
  case repositioning =>
    have hp : wakePenalty s.asa v = 0 := by
      rw [wakePenalty, hy]
    rw [reachCost_resting (not_active_of_empty h0 h1), hp, congestion_eq hc, Nat.zero_add]
  case delivering =>
    have ha : activeOrder s.ort v = some (h, o) :=
      activeOrder_of_layer hl (fun g => by rw [he]; exact Layer.noConfusion) ho
    rw [reachCost_delivering ha hy hd hdone, congestion_eq hc]

end Sys2Proof.Machine
end

section
/-! The triggers and the passes of the idle survey (R149 to R155). -/
namespace Sys2Proof.Machine

open Sys2Proof

variable {s t : State} {i : Survey} {b slot : Nat} {v : Vehicle}

/-! ## Triggers (R149 to R151) -/

section Triggers

theorem fireTrigger_eq (i : Survey) : fireTrigger i = triggered i := by
  unfold fireTrigger triggered
  cases i.state <;> rfl

theorem countsPlacements_iff : countsPlacements i = true ↔ i.bOn = true ∧ i.state ≠ .idle := by
  simp [countsPlacements]

theorem countPlacement_off (h : i.bOn = false ∨ i.state = .idle) : countPlacement i = i := by
  have hn : ¬countsPlacements i = true := by
    rw [countsPlacements_iff]
    rintro ⟨hb, hs⟩
    obtain h | h := h
    · exact Bool.false_ne_true (h.symm.trans hb)
    · exact hs h
  exact if_neg hn

theorem countPlacement_skips (hc : countsPlacements i = true) (hs : 0 < i.skipLeft) :
    countPlacement i = { i with skipLeft := i.skipLeft - 1 } :=
  (if_pos hc).trans (if_pos hs)

theorem countPlacement_fires (hc : countsPlacements i = true) (hs : i.skipLeft = 0) (hm : i.everyM ≤ i.stepCount + 1) :
    countPlacement i = triggered { i with stepCount := 0 } :=
  (if_pos hc).trans ((if_neg (by omega)).trans ((if_pos hm).trans (fireTrigger_eq _)))

theorem countPlacement_counts (hc : countsPlacements i = true) (hs : i.skipLeft = 0) (hm : i.stepCount + 1 < i.everyM) :
    countPlacement i = { i with stepCount := i.stepCount + 1 } :=
  (if_pos hc).trans ((if_neg (by omega)).trans (if_neg (by omega)))

variable {hb k n0 n1 : Byte} {h : Nat} {o : Order} {e : Endpoint}

/-- A PLACE_END of the ACTIVE order that begins or ends its placing is a placement. -/
theorem isPlacement_of_reports (hh : u8 hb = h) (a : reportsActive s 0x57 slot v [hb, k, n0, n1] h o)
    (he : (u8 k = 0 ∧ e = .port (u16 n0 n1)) ∨ (u8 k = 1 ∧ e = .shelf (u16 n0 n1)))
    (hp : (o.state = .placing ∧ o.dest = some e) ∨ (o.state = .carrying ∧ (o.dest = some e ∨ o.prior = some e))) :
    isPlacement s.ort v ⟨u8 hb, endpointField k n0 n1⟩ = true := by
  obtain ⟨_, ho, j, hl, hn, _⟩ := a
  have hact : v.activeHandle = some h := activeHandle_of_layer hl hn
  subst hh
  simp only [isPlacement, ho, hact, decide_true, Bool.true_and]
  obtain ⟨hs, hd⟩ | ⟨hs, hd⟩ := hp
  · simp only [hs, placeAt_dest (endpointOf_field he) hd]
  · by_cases hde : o.dest = some e
    · simp only [hs, placeAt_dest (endpointOf_field he) hde]
    · simp only [hs, placeAt_prior (endpointOf_field he) hde (hd.resolve_left hde)]

theorem placementWaits_of_reports (a : reportWaits s 0x57 slot v [hb, k, n0, n1])
    (hp : isPlacement s.ort v ⟨u8 hb, endpointField k n0 n1⟩ = true) : placementWaits s = true := by
  obtain ⟨⟨x, f0, f1, rest, hq, hk, hs⟩, hv, hl⟩ := a
  have hd : decodePlace (bodyPayload (x :: f0 :: f1 :: [hb, k, n0, n1])) = some ⟨u8 hb, endpointField k n0 n1⟩ := rfl
  have ht : slotOf s.vht (bodyTag (x :: f0 :: f1 :: [hb, k, n0, n1])) = some slot := hs
  have hk' : bodyKind (x :: f0 :: f1 :: [hb, k, n0, n1]) = 0x57 := hk
  simp only [placementWaits, hq, hd, ht, hv, hk', hp, Vehicle.online, hl, decide_true, Bool.and_self]

/-- TRIGGER_B_FIRE takes the PLACE_END whose placement makes the M-th count. -/
theorem exec_triggerBFire_of_placement (hc : countsPlacements s.iss = true) (hs : s.iss.skipLeft = 0)
    (hm : s.iss.everyM = s.iss.stepCount + 1) (hw : placementWaits s = true) :
    exec .triggerBFire s = exec .placeEnd s := by
  have hn : nextFires s.iss = true := by simp [nextFires, hc, hs, hm]
  exact (if_neg fun h => by omega).trans (if_pos ⟨hn, hw⟩)

end Triggers

/-! ## The supply of a bay, and the donors for it (R153, R154) -/

section Donors

theorem supplies_iff :
    supplies b v = true ↔
      v.link = .online ∧ v.hostStall = false ∧ v.faultStall = false ∧ v.layer0 = .empty ∧ v.layer1 = .empty ∧
        ((v.activity = .idle ∧ v.position.zone = b) ∨ (v.activity = .repositioning ∧ v.target = some b)) := by
  simp [supplies, inService_iff, bothEmpty_iff, and_assoc]

theorem supply_eq (s : State) (b : Nat) :
    supply s.vht b = (s.vht.vehicles.filter (fun e =>
      decide (e.2.link = .online ∧ e.2.hostStall = false ∧ e.2.faultStall = false ∧ e.2.layer0 = .empty ∧
        e.2.layer1 = .empty ∧
        ((e.2.activity = .idle ∧ e.2.position.zone = b) ∨
          (e.2.activity = .repositioning ∧ e.2.target = some b))))).length := by
  refine congrArg List.length (List.filter_congr fun e _ => ?_)
  rw [Bool.eq_iff_iff, supplies_iff, decide_eq_true_eq]

theorem donates_iff : donates s.vht s.bac b v = true ↔ Donor s b v := by
  simp [donates, Donor, Vehicle.movable, inService_iff, bothEmpty_iff, and_assoc]

theorem weakOrder_sentBefore {far : Vehicle → Nat} : WeakOrder (sentBefore far) where
  asymm h := by
    rw [Bool.eq_false_iff, ne_eq, sentBefore_iff]
    rw [sentBefore_iff] at h
    omega
  trans h1 h2 := by
    rw [Bool.eq_false_iff, ne_eq, sentBefore_iff] at *
    omega

theorem donorFor_none (hn : ∀ e ∈ s.vht.vehicles, ¬Donor s b e.2) : donorFor s b = none := by
  refine bestBy_eq_none fun e he => ?_
  obtain ⟨hm, hd⟩ := List.mem_filter.1 he
  exact hn e hm (donates_iff.1 hd)

/-- The donor chosen is the deepest-resting, the nearest between equals, and then the one in the lowest slot. -/
theorem donorFor_some (hw : tblWf s.vht.vehicles = true) (hd : ∃ e ∈ s.vht.vehicles, Donor s b e.2) :
    ∃ slot v, donorFor s b = some (slot, v) ∧ tblGet s.vht.vehicles slot = some v ∧ Donor s b v ∧
      ∀ k w, tblGet s.vht.vehicles k = some w → Donor s b w →
        w.idleLevel.rank < v.idleLevel.rank ∨
          (w.idleLevel.rank = v.idleLevel.rank ∧
            (travelToPark s.lyt b v < travelToPark s.lyt b w ∨
              (travelToPark s.lyt b v = travelToPark s.lyt b w ∧ slot ≤ k))) := by
  have hmem {e : Nat × Vehicle} : e ∈ s.vht.vehicles.filter (fun e => donates s.vht s.bac b e.2) ↔
      e ∈ s.vht.vehicles ∧ Donor s b e.2 := by
    rw [List.mem_filter, donates_iff]
  have hsome : donorFor s b ≠ none := by
    obtain ⟨e, he, hd⟩ := hd
    exact fun hn => List.ne_nil_of_mem (hmem.2 ⟨he, hd⟩) (bestBy_eq_none_iff.1 hn)
  obtain ⟨⟨slot, v⟩, hb⟩ := Option.ne_none_iff_exists'.1 hsome
  obtain ⟨pre, post, e, hpre, hpost⟩ := bestBy_first weakOrder_sentBefore hb
  obtain ⟨hin, hdon⟩ := hmem.1 (bestBy_mem _ hb)
  refine ⟨slot, v, hb, tblGet_of_mem hw hin, hdon, fun k w hk hdw => ?_⟩
  have hkm := hmem.2 ⟨tblGet_mem hk, hdw⟩
  have hwf := tblWf_iff_pairwise.1 (tblWf_filter (fun e => donates s.vht s.bac b e.2) hw)
  rw [e] at hkm hwf
  obtain hkm | hkm := List.mem_append.1 hkm
  · have hlt := sentBefore_iff.1 (hpre _ hkm)
    simp only at hlt
    omega
  · obtain he | hkm := List.mem_cons.1 hkm
    · cases he
      omega
    · have hno := hpost _ hkm
      rw [Bool.eq_false_iff, ne_eq, sentBefore_iff] at hno
      have hslot := (List.pairwise_cons.1 (List.pairwise_append.1 hwf).2.1).1 _ hkm
      simp only at hno hslot
      omega

end Donors

/-! ## Bay steps and the end of a pass (R152, R154, R155) -/

section Passes

theorem bayStep_passes (h : bayOpen s.bac b = false ∨ quotaOf s.bac b ≤ supply s.vht b) : bayStep b s = s := by
  refine if_neg fun hc => ?_
  simp only [Bool.and_eq_true, decide_eq_true_eq] at hc
  obtain h | h := h
  · exact Bool.false_ne_true (h.symm.trans hc.1)
  · omega

theorem bayStep_short (ho : bayOpen s.bac b = true) (hq : supply s.vht b < quotaOf s.bac b) (hd : donorFor s b = none) :
    bayStep b s = { s with iss := { s.iss with short := s.iss.short ++ [b] } } := by
  have hc : (bayOpen s.bac b && decide (supply s.vht b < quotaOf s.bac b)) = true := by simp [ho, hq]
  rw [bayStep, if_pos hc, hd]
  exact if_pos hq

theorem tally_eq (b : Nat) (s : State) :
    tallyShort b (tallyMove s) =
      { s with
        iss := { s.iss with
          moves := s.iss.moves + 1
          short := if supply s.vht b < quotaOf s.bac b then s.iss.short ++ [b] else s.iss.short } } := by
  unfold tallyShort tallyMove
  by_cases h : supply s.vht b < quotaOf s.bac b
  · rw [if_pos h, if_pos h]
  · rw [if_neg h, if_neg h]

theorem sendMoveTo_kept (hv : tblGet s.vht.vehicles slot = some v) :
    (sendMoveTo slot b s).bac = s.bac ∧ (sendMoveTo slot b s).iss = s.iss := by
  have sends := issue_sendsOnly v.fleetId (.moveTo b b (parkPoint s.lyt b))
  rw [sendMoveTo_eq hv]
  exact ⟨sends.bac s, congrArg (·.iss) (sends.only s)⟩

theorem bayStep_moves (ho : bayOpen s.bac b = true) (hq : supply s.vht b < quotaOf s.bac b)
    (hd : donorFor s b = some (slot, v)) (hv : tblGet s.vht.vehicles slot = some v) :
    bayStep b s =
      { sendMoveTo slot b s with
        iss := { s.iss with
          moves := s.iss.moves + 1
          short := if supply (sendMoveTo slot b s).vht b < quotaOf s.bac b then s.iss.short ++ [b] else s.iss.short } } := by
  have hc : (bayOpen s.bac b && decide (supply s.vht b < quotaOf s.bac b)) = true := by simp [ho, hq]
  obtain ⟨hbac, hiss⟩ := sendMoveTo_kept (b := b) hv
  rw [bayStep, if_pos hc, hd]
  refine (tally_eq b _).trans ?_
  rw [hiss, ← hbac]

theorem afterPass_eq (hc : ¬i.current < i.last) : afterPass i = passAdvanced i := by
  rw [passAdvanced, if_neg hc]
  cases i with
  | mk mode => cases mode <;> rfl

/-- The advance of a pass, the sequencer being as it is after the bay step. -/
theorem advancePass_eq (i : Survey) (s : State) :
    advancePass { s with iss := i } = { passNotice i s with iss := passAdvanced i } := by
  by_cases hc : i.current < i.last
  · have e : advancePass { s with iss := i } = { s with iss := { i with current := i.current + 1 } } := if_pos hc
    rw [e, passNotice, passAdvanced, if_pos hc, if_pos hc]
  · have e : advancePass { s with iss := i } = endPass { s with iss := i } := if_neg hc
    rw [e, passNotice, if_neg hc, ← afterPass_eq hc]
    unfold endPass queueNotice
    by_cases hr : s.liu.notices.length < 64
    · rw [if_pos hr, if_pos hr]
    · rw [if_neg hr, if_neg hr]

theorem exec_surveyBayStep (hs : s.iss.state = .surveying) {t : State} (hb : bayStep s.iss.current s = { t with iss := i }) :
    exec .surveyBayStep s = .next { passNotice i t with iss := passAdvanced i } := by
  refine (if_pos hs).trans (congrArg _ ?_)
  rw [hb, advancePass_eq]

end Passes

/-- Settles O36: the triggers, the count and the bay steps. -/
theorem surveyPassesThroughItsBays : Obligations.SurveyPassesThroughItsBays := by
  refine ⟨fun s t ht he hs => ?timer, fun s hb hs hm => ?fires,
    fun s slot v hb t n0 n1 h o e hh a he hp hon hs hskip hm => ?placement,
    fun i => ⟨countPlacement_off, fun hb hs => ?counts⟩,
    fun s hs => ⟨fun h => ?passes, fun ho hq hn => ?short, fun ho hq hw hd => ?moves⟩, supply_eq⟩
  case timer =>
    refine (if_pos (by rw [ht]; exact timerDue_of he hs)).trans ?_
    rw [fireTrigger_eq]
    rfl
  case fires =>
    refine (if_pos ⟨countsPlacements_iff.2 ⟨hb, hs⟩, hm⟩).trans ?_
    rw [fireTrigger_eq]
  case placement =>
    have hc := countsPlacements_iff.2 ⟨hon, hs⟩
    have hplace := isPlacement_of_reports hh a he hp
    rw [exec_triggerBFire_of_placement hc hskip hm (placementWaits_of_reports a.1 hplace)]
    obtain ⟨_, _, ends⟩ := placementsBeginAndEnd
    obtain ⟨placing, carrying, _⟩ := ends s slot v hb t n0 n1 h o e hh a he
    rw [← countPlacement_fires hc hskip hm.le]
    obtain ⟨hst, hd⟩ | ⟨hst, hd⟩ := hp
    · obtain ⟨x, hx, _⟩ := placing hst hd
      exact ⟨x, hx, hx⟩
    · obtain ⟨_, x, _, hx, _⟩ := carrying hst hd
      exact ⟨x, hx, hx⟩
  case counts =>
    have hc := countsPlacements_iff.2 ⟨hb, hs⟩
    exact ⟨countPlacement_skips hc, countPlacement_counts hc, countPlacement_fires hc⟩
  case passes => exact exec_surveyBayStep hs (bayStep_passes h)
  case short => exact ⟨_, rfl, exec_surveyBayStep hs (bayStep_short ho hq (donorFor_none hn))⟩
  case moves =>
    obtain ⟨slot, v, hdon, hv, hdv, hbest⟩ := donorFor_some hw hd
    refine ⟨slot, v, _, _, hv, hdv, hbest, sendMoveTo_eq hv _, ?_, exec_surveyBayStep hs (bayStep_moves ho hq hdon hv)⟩
    rfl

end Sys2Proof.Machine
end

section
/-! The grant step: the walk down the ranked orders, and the staging of the first that can be served (R71, R73, R79, R81 to
R85). -/
namespace Sys2Proof.Machine

open Sys2Proof

variable {s t u x : State} {h k slot : Nat} {o p q : Order} {g : Grant} {r : WaitReason} {l pre post : Tbl Order}

/-! ## The rank of the QUEUED orders (R33, R73) -/

section Rank

/-- An ordered list keeps the order of what ties. -/
theorem insertBy_stable {α : Type} {before : α → α → Bool} {R : α → α → Prop} (hb : WeakOrder before) {a : α} {xs : List α}
    (ha : ∀ z ∈ xs, R a z) (hs : xs.Pairwise (fun v w => before v w = true ∨ (before w v = false ∧ R v w))) :
    (insertBy before a xs).Pairwise (fun v w => before v w = true ∨ (before w v = false ∧ R v w)) := by
  induction xs with
  | nil => exact List.pairwise_singleton _ _
  | cons z xs ih =>
    obtain ⟨hz, hs'⟩ := List.pairwise_cons.1 hs
    by_cases hza : before z a = true
    · rw [insertBy, if_pos hza]
      refine List.pairwise_cons.2 ⟨fun w hw => ?_, ih (fun w hw => ha w (List.mem_cons_of_mem z hw)) hs'⟩
      obtain rfl | hw := (mem_insertBy before a w xs).1 hw
      · exact .inl hza
      · exact hz w hw
    · rw [insertBy, if_neg hza]
      rw [Bool.not_eq_true] at hza
      refine List.pairwise_cons.2 ⟨fun w hw => .inr ⟨?_, ha w hw⟩, hs⟩
      obtain rfl | hw := List.mem_cons.1 hw
      · exact hza
      · exact hb.trans hza ((hz w hw).elim hb.asymm And.left)

theorem sortBy_stable {α : Type} {before : α → α → Bool} {R : α → α → Prop} (hb : WeakOrder before) {xs : List α}
    (hs : xs.Pairwise R) :
    (sortBy before xs).Pairwise (fun v w => before v w = true ∨ (before w v = false ∧ R v w)) := by
  induction xs with
  | nil => exact List.Pairwise.nil
  | cons a xs ih =>
    obtain ⟨ha, hs'⟩ := List.pairwise_cons.1 hs
    exact insertBy_stable hb (fun z hz => ha z ((mem_sortBy before z xs).1 hz)) (ih hs')

/-- The order in which QUEUED orders are met, but for ties. -/
def metBefore (s : State) (a b : Nat × Order) : Bool :=
  decide (priority s.ort.weights b.2 s.now < priority s.ort.weights a.2 s.now) ||
    (decide (priority s.ort.weights a.2 s.now = priority s.ort.weights b.2 s.now) && decide (a.2.seq < b.2.seq))

theorem metBefore_iff {a b : Nat × Order} :
    metBefore s a b = true ↔ priority s.ort.weights b.2 s.now < priority s.ort.weights a.2 s.now ∨
      (priority s.ort.weights a.2 s.now = priority s.ort.weights b.2 s.now ∧ a.2.seq < b.2.seq) := by
  simp [metBefore]

theorem weakOrder_metBefore : WeakOrder (metBefore s) where
  asymm h := by
    rw [Bool.eq_false_iff, ne_eq, metBefore_iff]
    rw [metBefore_iff] at h
    omega
  trans h1 h2 := by
    rw [Bool.eq_false_iff, ne_eq, metBefore_iff] at *
    omega

theorem mem_ranked_iff (hw : tblWf s.ort.orders = true) :
    (k, p) ∈ rankedOrders s ↔ tblGet s.ort.orders k = some p ∧ p.state = .queued := by
  rw [rankedOrders, mem_sortBy, List.mem_filter, decide_eq_true_eq]
  exact and_congr_left fun _ => ⟨tblGet_of_mem hw, tblGet_mem⟩

theorem rankedOrders_pairwise (hw : tblWf s.ort.orders = true) :
    (rankedOrders s).Pairwise (fun a b => RanksBefore s a.1 a.2 b.1 b.2) := by
  refine (sortBy_stable weakOrder_metBefore (tblWf_iff_pairwise.1 (tblWf_filter _ hw))).imp fun {a b} hab => ?_
  rw [Bool.eq_false_iff, ne_eq, metBefore_iff, metBefore_iff] at hab
  unfold RanksBefore
  omega

theorem rankedOrders_nodup (hw : tblWf s.ort.orders = true) : ((rankedOrders s).map (fun e => e.1)).Nodup := by
  refine ((sortBy_perm _ _).map _).nodup_iff.2 ?_
  exact (List.pairwise_map.2 (tblWf_iff_pairwise.1 (tblWf_filter _ hw))).imp Nat.ne_of_lt

theorem RanksBefore.asymm (hr : RanksBefore s k p h o) : ¬RanksBefore s h o k p := by
  unfold RanksBefore at *
  omega

end Rank

/-! ## The walk down the ranked orders (R73, R79) -/

section Walk

/-- The wait reason of an order that cannot be served. -/
def reasonOf : Evaluation → Option WaitReason
  | .waits r => some r
  | .servable _ => none

/-- The wait reasons of orders that cannot be served. -/
def reasonsOf (s : State) (l : Tbl Order) : List (Nat × WaitReason) :=
  l.filterMap (fun e => (reasonOf (evaluate s e.2)).map (fun r => (e.1, r)))

theorem walk_waits (hl : ∀ e ∈ pre, ∃ r, evaluate s e.2 = .waits r) (l : Tbl Order) :
    walk s (pre ++ l) = (reasonsOf s pre ++ (walk s l).1, (walk s l).2) := by
  induction pre with
  | nil => rfl
  | cons e pre ih =>
    obtain ⟨k, p⟩ := e
    obtain ⟨r, hr⟩ := hl (k, p) List.mem_cons_self
    have hr : evaluate s p = .waits r := hr
    rw [List.cons_append, walk, hr]
    simp only [ih fun e he => hl e (List.mem_cons_of_mem _ he)]
    have hcons : reasonsOf s ((k, p) :: pre) = (k, r) :: reasonsOf s pre := by
      simp [reasonsOf, hr, reasonOf]
    rw [hcons, List.cons_append]

theorem walk_all (hl : ∀ e ∈ l, ∃ r, evaluate s e.2 = .waits r) : walk s l = (reasonsOf s l, none) := by
  have e := walk_waits hl []
  rw [List.append_nil] at e
  rw [e, walk, List.append_nil]

theorem walk_first (hl : ∀ e ∈ pre, ∃ r, evaluate s e.2 = .waits r) (hg : evaluate s o = .servable g) :
    walk s (pre ++ (h, o) :: post) = (reasonsOf s pre, some (h, o, g)) := by
  rw [walk_waits hl, walk, hg, List.append_nil]

theorem mem_reasonsOf : (k, r) ∈ reasonsOf s l ↔ ∃ p, (k, p) ∈ l ∧ evaluate s p = .waits r := by
  simp only [reasonsOf, List.mem_filterMap, Option.map_eq_some_iff, Prod.mk.injEq, Prod.exists]
  constructor
  · rintro ⟨j, p, hm, r', hr, rfl, rfl⟩
    refine ⟨p, hm, ?_⟩
    unfold reasonOf at hr
    split at hr
    · next hw =>
      cases hr
      exact hw
    · cases hr
  · rintro ⟨p, hm, hr⟩
    exact ⟨k, p, hm, r, by rw [hr]; rfl, rfl, rfl⟩

theorem reasonsOf_nodup (hn : (l.map (fun e => e.1)).Nodup) : ((reasonsOf s l).map (fun e => e.1)).Nodup := by
  refine List.Nodup.sublist ?_ hn
  induction l with
  | nil => exact .refl _
  | cons e l ih =>
    have ih := ih (List.nodup_cons.1 hn).2
    unfold reasonsOf at ih ⊢
    rw [List.filterMap_cons]
    cases reasonOf (evaluate s e.2) with
    | none => exact ih.cons e.1
    | some r => exact ih.cons₂ e.1

end Walk

/-! ## Setting wait reasons (R79) -/

section Waits

variable {ws : List (Nat × WaitReason)}

/-- Only orders have changed, and with them perhaps the rescan timer. -/
def OnlyOrders (s t : State) : Prop :=
  t = { s with ort := { s.ort with orders := t.ort.orders }, asa := { s.asa with rescan := t.asa.rescan } }

theorem updOrder_onlyOrders (f : Order → Order) (s : State) : OnlyOrders s (updOrder h f s) := by
  unfold updOrder
  split <;> rfl

theorem OnlyOrders.trans (a : OnlyOrders s t) (b : OnlyOrders t u) : OnlyOrders s u := by
  unfold OnlyOrders at *
  rw [b, a]

theorem setWaits_onlyOrders (ws : List (Nat × WaitReason)) (s : State) : OnlyOrders s (setWaits ws s) := by
  induction ws generalizing s with
  | nil => rfl
  | cons w ws ih => exact (updOrder_onlyOrders _ s).trans (ih _)

theorem updOrder_get (f : Order → Order) (s : State) (k : Nat) :
    tblGet (updOrder h f s).ort.orders k = (tblGet s.ort.orders k).map (fun o => if k = h then f o else o) := by
  cases ho : tblGet s.ort.orders h with
  | none =>
    have e : updOrder h f s = s := by simp only [updOrder, ho]
    rw [e]
    by_cases hk : k = h
    · rw [hk, ho]
      rfl
    · simp [hk]
  | some o =>
    rw [updOrder_of_get ho]
    by_cases hk : k = h
    · subst hk
      simp [ho]
    · rw [putOrder_others _ _ s k hk]
      simp [hk]

theorem setWaits_other (hk : ∀ r, (k, r) ∉ ws) : tblGet (setWaits ws s).ort.orders k = tblGet s.ort.orders k := by
  induction ws generalizing s with
  | nil => rfl
  | cons w ws ih =>
    have hne : k ≠ w.1 := fun e => hk w.2 (by rw [e]; exact List.mem_cons_self)
    rw [setWaits, ih fun r hr => hk r (List.mem_cons_of_mem _ hr), updOrder_get]
    simp [hne]

theorem setWaits_get (hn : (ws.map (fun e => e.1)).Nodup) (hm : (k, r) ∈ ws) :
    tblGet (setWaits ws s).ort.orders k = (tblGet s.ort.orders k).map (fun o => { o with waitReason := some r }) := by
  induction ws generalizing s with
  | nil => cases hm
  | cons w ws ih =>
    obtain ⟨hw, hn'⟩ := List.nodup_cons.1 hn
    obtain rfl | hm := List.mem_cons.1 hm
    · have hno : ∀ r', (k, r') ∉ ws := fun r' hr' => hw (List.mem_map.2 ⟨(k, r'), hr', rfl⟩)
      rw [setWaits, setWaits_other hno, updOrder_get]
      simp
    · have hne : k ≠ w.1 := fun e => hw (List.mem_map.2 ⟨(k, r), hm, e⟩)
      rw [setWaits, ih hn' hm, updOrder_get]
      simp [hne]

end Waits

/-! ## Staging (R82 to R85) -/

section Staging

variable {v w : Vehicle} {i : LayerId}

/-- The record of an order that a grant stages (R35, R83). -/
def grantedOrder (s : State) (o : Order) (g : Grant) : Order :=
  { o with
    state := .assigned, storedAge := ageAt o s.now, waitReason := none, source := grantedSource o g.shelf
    dest := grantedDest o g.shelf, loc := some (g.cand.slot, grantLayer g.cand)
    etaPick := some (min 4294967295 (s.now + g.cost))
    etaDone :=
      some (min 4294967295
        (min 4294967295 (s.now + g.cost) + handoffOf (stopOf? s.lyt (grantedSource o g.shelf)) +
          travelBetween s.lyt (stopOf? s.lyt (grantedSource o g.shelf)) (stopOf? s.lyt (grantedDest o g.shelf)) +
          handoffOf (stopOf? s.lyt (grantedDest o g.shelf)))) }

theorem stagedRecord_leaveState (ho : o.state = .queued) (n : Nat) :
    enterState n .assigned (stagedRecord s g (leaveState s.now o)) = grantedOrder s o g := by
  have hl : leaveState s.now o = { o with storedAge := ageAt o s.now, waitReason := none } := if_pos ho
  rw [hl]
  cases hf : g.shelf <;> simp only [enterState, stagedRecord, grantedOrder, grantedSource, grantedDest, hf] <;> rfl

/-- The staging of an order once a displaced one is off the vehicle. -/
def staging (h : Nat) (o : Order) (g : Grant) (s x : State) : State :=
  setExam
    (sendStage h g o
      (updVehicle g.cand.slot (stagedVehicle s.now s.vht.tTake h (grantLayer g.cand))
        (moveOrder h (stagedRecord s g) .assigned .none none (claimFound h o g.shelf x))))

theorem stageOrder_eq (h : Nat) (o : Order) (g : Grant) (s : State) :
    stageOrder h o g s = staging h o g s (if g.cand.displaces.isSome then recallStaged g.cand.slot s else s) := rfl

/-- Order `h`, with record `o`, has been staged by grant `g`: what holds whatever vehicle takes it. -/
structure OrderStaged (h : Nat) (o : Order) (g : Grant) (x t : State) : Prop where
  framed : Framed x t
  exam : t.asa.examPending = true
  record : tblGet t.ort.orders h = some (grantedOrder x o g)
  others : otherOrdersKept h x t
  kept : t.ort.batches = x.ort.batches ∧ t.bac = x.bac ∧ t.fcr = x.fcr
  shelves : t.shm = (claimFound h o g.shelf x).shm

theorem OnlyShelves.framed (e : OnlyShelves s t) : Framed s t := by
  rw [e.eq]
  constructor <;> rfl

theorem sendStage_only (h : Nat) (g : Grant) (o : Order) (s : State) :
    sendStage h g o s = { s with liu := { s.liu with fleetOut := (sendStage h g o s).liu.fleetOut } } :=
  (issueTo_sendsOnly _ _).only s

theorem grantedOrder_framed (f : Framed s x) : grantedOrder x o g = grantedOrder s o g := by
  simp only [grantedOrder, f.now, f.lyt]

theorem moveOrder_fcr (h : Nat) (f : Order → Order) (st : OrderState) (why : OrderReason) (left : Option Nat) (s : State) :
    (moveOrder h f st why left s).fcr = s.fcr := (moveOrder_noticed h f st why left s).2

theorem staging_staged (fr : Framed s x) (ho : tblGet x.ort.orders h = some o) (hq : o.state = .queued) :
    OrderStaged h o g x (staging h o g s x) := by
  have only := claimFound_only h o g.shelf x
  have moved := moveOrder_moved (s := claimFound h o g.shelf x) (by rw [only.ort]; exact ho) (stagedRecord s g) .assigned
    .none none
  have hfcr := moveOrder_fcr h (stagedRecord s g) .assigned .none none (claimFound h o g.shelf x)
  have hframed := (moveOrder_steady h (stagedRecord s g) .assigned .none none (claimFound h o g.shelf x)).framed
  have hnow : (claimFound h o g.shelf x).now = s.now := by rw [only.eq]; exact fr.now
  rw [hnow, stagedRecord_leaveState hq, ← grantedOrder_framed fr] at moved
  unfold staging
  generalize moveOrder h (stagedRecord s g) .assigned .none none (claimFound h o g.shelf x) = y at *
  have ride := updVehicle_only g.cand.slot (stagedVehicle s.now s.vht.tTake h (grantLayer g.cand)) y
  generalize updVehicle g.cand.slot (stagedVehicle s.now s.vht.tTake h (grantLayer g.cand)) y = z at *
  rw [sendStage_only]
  refine ⟨?_, rfl, ?_, ?_, ⟨?_, ?_, ?_⟩, ?_⟩
  · exact only.framed.trans (hframed.trans (ride.framed.trans (by constructor <;> rfl)))
  · exact (congrArg (fun a => tblGet a.ort.orders h) ride.eq).trans moved.record
  · intro k hk
    rw [← only.ort, ← moved.others k hk]
    exact congrArg (fun a => tblGet a.ort.orders k) ride.eq
  · exact (congrArg (fun a => a.ort.batches) ride.eq).trans (moved.batches.trans (by rw [only.ort]))
  · exact (congrArg (fun a => a.bac) ride.eq).trans (moved.bac.trans (by rw [only.eq]))
  · exact (congrArg (fun a => a.fcr) ride.eq).trans (hfcr.trans (by rw [only.eq]))
  · exact (congrArg (fun a => a.shm) ride.eq).trans moved.shm

/-- What the vehicle and the lines see of a staging. -/
structure VehicleStaged (h : Nat) (o : Order) (g : Grant) (v : Vehicle) (x t : State) : Prop where
  vehicle : tblGet t.vht.vehicles g.cand.slot = some (stagedVehicle x.now x.vht.tTake h (grantLayer g.cand) v)
  others : otherVehiclesKept g.cand.slot x t
  lines : t.liu =
    (issue v.fleetId
      (.stage h (grantLayer g.cand) (stopOf? x.lyt (grantedSource o g.shelf)) (stopOf? x.lyt (grantedDest o g.shelf))
        o.carrierTag)
      (queueNotice (.orderState h o.hostTag .queued .assigned x.now .none (some v.fleetId)) x)).liu

theorem issue_liu_congr (f : Nat) (b : CommandBody) (hl : s.liu = t.liu) (hp : s.gwrdy = t.gwrdy) :
    (issue f b s).liu = (issue f b t).liu := by
  unfold issue
  rw [hl, hp]
  split
  · rfl
  · exact hl

theorem stagedVehicle_fleetId (now tTake h : Nat) (i : LayerId) (v : Vehicle) :
    (stagedVehicle now tTake h i v).fleetId = v.fleetId := by
  cases i <;> rfl

theorem staging_vehicle (fr : Framed s x) (ho : tblGet x.ort.orders h = some o) (hq : o.state = .queued)
    (hv : tblGet x.vht.vehicles g.cand.slot = some v) : VehicleStaged h o g v x (staging h o g s x) := by
  have only := claimFound_only h o g.shelf x
  have hc : tblGet (claimFound h o g.shelf x).ort.orders h = some o := by rw [only.ort]; exact ho
  have hnow : (claimFound h o g.shelf x).now = s.now := by rw [only.eq]; exact fr.now
  have move : moveOrder h (stagedRecord s g) .assigned .none none (claimFound h o g.shelf x) =
      queueNotice (.orderState h o.hostTag .queued .assigned x.now .none (some v.fleetId))
        (putOrder h (grantedOrder s o g) (claimFound h o g.shelf x)) := by
    have hid : fleetIdAt (claimFound h o g.shelf x).vht g.cand.slot = some v.fleetId := by
      rw [only.eq]
      simp only [fleetIdAt, hv, Option.map_some]
    rw [moveOrder_eq hc, hnow, stagedRecord_leaveState hq, hq, fr.now]
    simp only [grantedOrder, hid]
    rfl
  have hvm : tblGet (moveOrder h (stagedRecord s g) .assigned .none none (claimFound h o g.shelf x)).vht.vehicles
      g.cand.slot = some v := by
    rw [(moveOrder_moved hc _ _ _ _).vht, only.eq]
    exact hv
  have htake : s.vht.tTake = x.vht.tTake := (congrArg VehicleTable.tTake fr.vht).symm
  have step : staging h o g s x =
      setExam (issue v.fleetId
        (.stage h (grantLayer g.cand) (stopOf? x.lyt (grantedSource o g.shelf)) (stopOf? x.lyt (grantedDest o g.shelf))
          o.carrierTag)
        (withVehicle g.cand.slot (stagedVehicle x.now x.vht.tTake h (grantLayer g.cand) v)
          (moveOrder h (stagedRecord s g) .assigned .none none (claimFound h o g.shelf x)))) := by
    have hlyt : (withVehicle g.cand.slot (stagedVehicle x.now x.vht.tTake h (grantLayer g.cand) v)
        (moveOrder h (stagedRecord s g) .assigned .none none (claimFound h o g.shelf x))).lyt = x.lyt :=
      (moveOrder_steady h (stagedRecord s g) .assigned .none none _).framed.lyt.trans (by rw [only.eq])
    rw [staging, updVehicle_of_get hvm, ← fr.now, htake, sendStage, hlyt,
      issueTo_eq_issue _ (withVehicle_get_self _ _ _), stagedVehicle_fleetId]
  rw [step]
  generalize hcmd : CommandBody.stage h (grantLayer g.cand) (stopOf? x.lyt (grantedSource o g.shelf))
    (stopOf? x.lyt (grantedDest o g.shelf)) o.carrierTag = cmd
  have hvht : (setExam (issue v.fleetId cmd
      (withVehicle g.cand.slot (stagedVehicle x.now x.vht.tTake h (grantLayer g.cand) v)
        (moveOrder h (stagedRecord s g) .assigned .none none (claimFound h o g.shelf x))))).vht =
      (withVehicle g.cand.slot (stagedVehicle x.now x.vht.tTake h (grantLayer g.cand) v)
        (moveOrder h (stagedRecord s g) .assigned .none none (claimFound h o g.shelf x))).vht := by
    rw [(issue_sendsOnly _ _).only]
    rfl
  refine ⟨?_, fun k hk => ?_, ?_⟩
  · rw [hvht, withVehicle_get_self]
  · rw [hvht, withVehicle_others _ _ _ k hk, (moveOrder_moved hc _ _ _ _).vht, only.eq]
  · rw [hcmd, setExam_liu]
    refine issue_liu_congr _ _ ?_ ?_
    · rw [move]
      refine queueNotice_liu_congr _ ?_
      rw [only.eq]
      rfl
    · rw [move, queueNotice_eq, queueNotice_eq _ x, only.eq]
      rfl

end Staging

/-! ## The vehicle a grant chooses, and the order it displaces (R30, R80, R81) -/

section Chosen

variable {v : Vehicle} {i : LayerId}

/-- The vehicle of the grant stands in the map, and the candidate is its own. -/
theorem servable_vehicle (hw : tblWf s.vht.vehicles = true) (he : evaluate s o = .servable g) :
    ∃ v, tblGet s.vht.vehicles g.cand.slot = some v ∧ candidateOf s o g.cand.slot v = some g.cand := by
  obtain ⟨⟨j, v⟩, hm, hc⟩ := mem_candidates.1 (candidate_of_servable he)
  have hslot : g.cand.slot = j := candidateOf_slot hc
  subst hslot
  exact ⟨v, tblGet_of_mem hw hm, hc⟩

/-- A candidate that displaces nothing is the vehicle as it stands. -/
theorem candidateOf_plain {c : Candidate} (hc : candidateOf s o slot v = some c) (hd : c.displaces = none) :
    c.vehicle = v ∧ screened s o v = true := by
  unfold candidateOf at hc
  split at hc
  · next hs =>
    cases hc
    exact ⟨rfl, hs⟩
  · split at hc
    · split at hc
      · split at hc
        · cases hc
          cases hd
        · cases hc
      · cases hc
    · cases hc

/-- The vehicle of a displacement: the order in its STAGED layer is not HOT, its other layer is not STAGED, and the grant is
written into the layer that the displaced order leaves. -/
structure Displaces (s : State) (o : Order) (c : Candidate) (v : Vehicle) (i : LayerId) (k : Nat) : Prop where
  hot : o.cls = .hot
  staged : v.layer i = .staged k
  other : ∀ j, v.layer i.other ≠ .staged j
  order : ∃ q, tblGet s.ort.orders k = some q ∧ q.cls ≠ .hot
  layer : grantLayer c = i

theorem candidateOf_displaces {c : Candidate} (hc : candidateOf s o slot v = some c) (hd : c.displaces = some i) :
    ∃ k, Displaces s o c v i k := by
  obtain ⟨hot, hs, ⟨k, hk⟩, hcand⟩ := candidateOf_displacing.1 ⟨hc, hd⟩
  obtain ⟨hst, hq⟩ := displaceable_iff.1 hk
  have hf := (screened_iff.1 hs).2.1
  refine ⟨k, hot, layer_of_stagedLayer hst, other_not_staged ((fillable_unstaged hst).1 hf), hq, ?_⟩
  simp only [grantLayer, hd]

theorem Displaces.ne {c : Candidate} (d : Displaces s o c v i k) (ho : tblGet s.ort.orders h = some o) : h ≠ k := by
  rintro rfl
  obtain ⟨q, hq, hn⟩ := d.order
  rw [ho] at hq
  cases hq
  exact hn d.hot

/-- A vehicle that both layers leave free takes the grant with its take timer started; one that delivers keeps its own. -/
theorem screened_restarts (hs : screened s o v = true) :
    (v.activeLayer.isNone = true) = (v.layer0 = .empty ∧ v.layer1 = .empty) := by
  rw [Option.isNone_iff_eq_none, activeLayer_eq_none_iff]
  refine propext ⟨fun hn => ?_, ?_⟩
  · obtain ⟨h0, h1, -⟩ | ⟨-, hst, -⟩ := fillable_iff.1 (screened_iff.1 hs).2.1
    · exact ⟨h0, h1⟩
    · have free : ∀ j, v.layer j = .empty := fun j => by
        cases hj : v.layer j with
        | empty => rfl
        | staged k => exact absurd hj (hst j k)
        | active k => exact absurd hj (hn j k)
      exact ⟨free .l0, free .l1⟩
  · rintro ⟨h0, h1⟩ (_ | _) j hj
    · exact Layer.noConfusion (hj.symm.trans h0)
    · exact Layer.noConfusion (hj.symm.trans h1)

/-- The take timer of a grant into a layer that an order has just left, by the other layer. -/
theorem restart_of_other {w : Vehicle} {b : Option Timer} (hl : w.layer i = .empty) :
    (if w.activeLayer.isNone then b else w.takeTimer) =
      match w.layer i.other with
      | .active _ => w.takeTimer
      | .staged _ => b
      | .empty => b := by
  cases i <;> cases ho : w.layer1 <;> cases hz : w.layer0 <;>
    simp_all [Vehicle.layer, LayerId.other, Vehicle.activeLayer]

end Chosen

/-! ## The recall of the displaced order (R50, R81) -/

section Recall

variable {v : Vehicle} {i : LayerId}

/-- What a recall leaves alone: every order but the recalled one, the batches, the bays and the capture. -/
structure RecallKeeps (h : Nat) (s t : State) : Prop where
  framed : Framed s t
  others : otherOrdersKept h s t
  batches : t.ort.batches = s.ort.batches
  bac : t.bac = s.bac
  fcr : t.fcr = s.fcr

theorem returnOrder_keeps (h : Nat) (st : OrderState) (s : State) : RecallKeeps h s (returnOrder h st s) := by
  have framed := (returnOrder_steady h st s).framed
  cases ho : tblGet s.ort.orders h with
  | none =>
    rw [show returnOrder h st s = s by simp only [returnOrder, ho]]
    exact ⟨.refl s, fun _ _ => rfl, rfl, rfl, rfl⟩
  | some o =>
    obtain ⟨hort, _, _, _, hbac, hfcr, _⟩ :=
      leaveRelease_facts (leaveVehicle_only o.loc s) (releaseGrantClaims_only h o (leaveVehicle o.loc s))
    have e : returnOrder h st s =
        moveOrder h offVehicle st .none (carrierId s o.loc) (releaseGrantClaims h o (leaveVehicle o.loc s)) := by
      simp only [returnOrder, ho]
    have moved := moveOrder_moved (s := releaseGrantClaims h o (leaveVehicle o.loc s)) (by rw [hort]; exact ho) offVehicle
      st .none (carrierId s o.loc)
    rw [e] at framed ⊢
    refine ⟨framed, fun k hk => ?_, moved.batches.trans (by rw [hort]), moved.bac.trans hbac, (moveOrder_fcr ..).trans hfcr⟩
    rw [moved.others k hk, hort]

theorem recallStaged_keeps (hv : tblGet s.vht.vehicles slot = some v) (hl : v.layer i = .staged k)
    (hn : ∀ j, v.layer i.other ≠ .staged j) : RecallKeeps k s (recallStaged slot s) := by
  have e : recallStaged slot s = returnOrder k .queued (issue v.fleetId (.recall k i) s) := by
    simp only [recallStaged, hv, stagedLayer_of_layer hl hn, issueTo_eq_issue _ hv]
  have keeps := returnOrder_keeps k .queued (issue v.fleetId (.recall k i) s)
  have only := (issue_sendsOnly v.fleetId (.recall k i)).only s
  have framed := (recallStaged_steady slot s).framed
  rw [e] at framed ⊢
  refine ⟨framed, fun j hj => ?_, keeps.batches.trans ?_, keeps.bac.trans ?_, keeps.fcr.trans ?_⟩
  · rw [keeps.others j hj, issue_ort]
  · rw [issue_ort]
  · rw [only]
  · rw [only]

/-- The state a grant's order is staged in: a displaced order is recalled first. -/
def vacated (c : Candidate) (s : State) : State := if c.displaces.isSome then recallStaged c.slot s else s

theorem vacated_none {c : Candidate} (hd : c.displaces = none) : vacated c s = s := by
  simp only [vacated, hd, Option.isSome_none, Bool.false_eq_true, if_false]

theorem vacated_some {c : Candidate} (hd : c.displaces = some i) : vacated c s = recallStaged c.slot s := by
  simp only [vacated, hd, Option.isSome_some, if_true]

/-- Every order but a displaced one stands as it did. -/
structure Vacated (c : Candidate) (v : Vehicle) (s t : State) : Prop where
  framed : Framed s t
  others : ∀ k, v.layer (grantLayer c) ≠ .staged k → tblGet t.ort.orders k = tblGet s.ort.orders k
  batches : t.ort.batches = s.ort.batches
  bac : t.bac = s.bac
  fcr : t.fcr = s.fcr

theorem vacated_keeps {c : Candidate} (hc : candidateOf s o c.slot v = some c)
    (hv : tblGet u.vht.vehicles c.slot = some v) : Vacated c v u (vacated c u) := by
  cases hd : c.displaces with
  | none =>
    rw [vacated_none hd]
    exact ⟨.refl u, fun _ _ => rfl, rfl, rfl, rfl⟩
  | some i =>
    obtain ⟨k, d⟩ := candidateOf_displaces hc hd
    have keeps := recallStaged_keeps hv d.staged d.other
    rw [vacated_some hd]
    refine ⟨keeps.framed, fun j hj => keeps.others j ?_, keeps.batches, keeps.bac, keeps.fcr⟩
    rintro rfl
    exact hj (by rw [d.layer]; exact d.staged)

end Recall

/-! ## The walk's outcome (R73, R79) -/

section Walked

/-- The state after a walk that `l` has not ended: the flag cleared, the wait reasons set. -/
def walked (s : State) (l : Tbl Order) : State :=
  setWaits (reasonsOf s l) { s with asa := { s.asa with examPending := false } }

theorem walked_only (s : State) (l : Tbl Order) :
    walked s l =
      { s with
        asa := { s.asa with examPending := false, rescan := (walked s l).asa.rescan }
        ort := { s.ort with orders := (walked s l).ort.orders } } :=
  setWaits_onlyOrders _ _

theorem walked_framed (s : State) (l : Tbl Order) : Framed s (walked s l) := by
  rw [walked_only]
  constructor <;> rfl

theorem walked_waits (hn : (l.map (fun e => e.1)).Nodup) (hm : (k, q) ∈ l) (hq : tblGet s.ort.orders k = some q)
    (he : evaluate s q = .waits r) : tblGet (walked s l).ort.orders k = some { q with waitReason := some r } := by
  rw [walked, setWaits_get (reasonsOf_nodup hn) (mem_reasonsOf.2 ⟨q, hm, he⟩)]
  exact congrArg (Option.map _) hq

theorem walked_other (hk : ∀ q, (k, q) ∉ l) : tblGet (walked s l).ort.orders k = tblGet s.ort.orders k :=
  setWaits_other fun _ hr => (mem_reasonsOf.1 hr).elim fun q hq => hk q hq.1

/-- The orders met before a QUEUED order are those that rank before it. -/
structure MetFirst (s : State) (h : Nat) (o : Order) (pre post : Tbl Order) : Prop where
  ranked : rankedOrders s = pre ++ (h, o) :: post
  nodup : (pre.map (fun e => e.1)).Nodup
  mem : ∀ k q, (k, q) ∈ pre ↔ (tblGet s.ort.orders k = some q ∧ q.state = .queued) ∧ RanksBefore s k q h o

theorem RanksBefore.irrefl : ¬RanksBefore s h o h o := fun hr => hr.asymm hr

theorem metFirst_of_queued (hw : tblWf s.ort.orders = true) (ho : tblGet s.ort.orders h = some o) (hq : o.state = .queued) :
    ∃ pre post, MetFirst s h o pre post := by
  obtain ⟨pre, post, hr⟩ := List.append_of_mem ((mem_ranked_iff hw).2 ⟨ho, hq⟩)
  have ranks := rankedOrders_pairwise hw
  have nodup := rankedOrders_nodup hw
  rw [hr] at ranks nodup
  rw [List.map_append] at nodup
  obtain ⟨-, hpost, hpre⟩ := List.pairwise_append.1 ranks
  refine ⟨pre, post, hr, (List.nodup_append.1 nodup).1, fun k q => ⟨fun hm => ⟨?_, ?_⟩, fun ⟨hk, hb⟩ => ?_⟩⟩
  · exact (mem_ranked_iff hw).1 (hr ▸ List.mem_append_left _ hm)
  · exact hpre _ hm _ List.mem_cons_self
  · have hm := (mem_ranked_iff hw).2 hk
    rw [hr, List.mem_append, List.mem_cons] at hm
    obtain hm | hm | hm := hm
    · exact hm
    · cases hm
      exact absurd hb RanksBefore.irrefl
    · exact absurd hb ((List.pairwise_cons.1 hpost).1 _ hm).asymm

theorem grantStep_serves {pre post : Tbl Order} (m : MetFirst s h o pre post) (hg : evaluate s o = .servable g)
    (hl : ∀ e ∈ pre, ∃ r, evaluate s e.2 = .waits r) : grantStep s = stageOrder h o g (walked s pre) := by
  simp only [grantStep, m.ranked, walk_first hl hg, walked]

theorem grantStep_waits (hl : ∀ e ∈ rankedOrders s, ∃ r, evaluate s e.2 = .waits r) :
    grantStep s = walked s (rankedOrders s) := by
  simp only [grantStep, walk_all hl, walked]

theorem exec_grantStep (s : State) :
    exec .grantStep s = if s.lyt.opState = .running ∧ s.asa.examPending = true then .next (grantStep s) else .next s := rfl

theorem grantStep_due (hrun : s.lyt.opState = .running) (hex : s.asa.examPending = true) :
    exec .grantStep s = .next (grantStep s) := by
  rw [exec_grantStep, if_pos ⟨hrun, hex⟩]

/-- Where no QUEUED order can be served, each takes its wait reason. -/
theorem walked_all (hw : tblWf s.ort.orders = true) (k : Nat)
    (hl : ∀ h o, tblGet s.ort.orders h = some o → o.state = .queued → ∃ r, evaluate s o = .waits r) :
    tblGet (walked s (rankedOrders s)).ort.orders k =
      (tblGet s.ort.orders k).map (fun o =>
        if o.state = .queued then
          match evaluate s o with
          | .waits r => { o with waitReason := some r }
          | .servable _ => o
        else o) := by
  cases hk : tblGet s.ort.orders k with
  | none =>
    have hno : ∀ q, (k, q) ∉ rankedOrders s := fun q hm => by
      rw [mem_ranked_iff hw, hk] at hm
      cases hm.1
    rw [walked_other hno, hk]
    rfl
  | some q =>
    by_cases hq : q.state = .queued
    · obtain ⟨r, hr⟩ := hl k q hk hq
      rw [walked_waits (rankedOrders_nodup hw) ((mem_ranked_iff hw).2 ⟨hk, hq⟩) hk hr, Option.map_some, if_pos hq, hr]
    · have hno : ∀ q, (k, q) ∉ rankedOrders s := fun p hm => by
        rw [mem_ranked_iff hw, hk] at hm
        obtain ⟨hp, hs⟩ := hm
        cases hp
        exact hq hs
      rw [walked_other hno, hk, Option.map_some, if_neg hq]

end Walked

/-! ## What a grant does (R79, R81 to R85) -/

section Served

variable {v w : Vehicle} {i : LayerId}

/-- The layer of a grant holds no order but a displaced one. -/
theorem grantLayer_not_own (ho : tblGet s.ort.orders h = some o) (hc : candidateOf s o g.cand.slot v = some g.cand) :
    v.layer (grantLayer g.cand) ≠ .staged h := by
  intro hl
  cases hd : g.cand.displaces with
  | none => exact fillable_not_staged hl (screened_iff.1 (candidateOf_plain hc hd).2).2.1
  | some i =>
    obtain ⟨k, d⟩ := candidateOf_displaces hc hd
    rw [d.layer, d.staged] at hl
    cases hl
    exact d.ne ho rfl

theorem claimFound_at (hf : g.shelf = .found k) (j : Nat) :
    shelfAt (claimFound h o g.shelf x).shm j =
      if j = k then
        if o.kind = .supplyEmpty then { shelfAt x.shm k with state := .outbound, claim := some h }
        else { state := .inbound, tag := none, emptyFlag := false, claim := some h }
      else shelfAt x.shm j := by
  rw [hf]
  unfold claimFound
  by_cases hk : o.kind = .supplyEmpty
  · simp only [if_pos hk, setShelf_at]
  · simp only [if_neg hk, setShelf_at]

theorem claimFound_none (hf : ∀ k, g.shelf ≠ .found k) : claimFound h o g.shelf x = x := by
  unfold claimFound
  cases hs : g.shelf with
  | found k => exact absurd hs (hf k)
  | notNeeded => rfl
  | missing r => rfl

/-- The vehicle of a grant, whose take timer starts anew where no layer is ACTIVE (R84). -/
theorem stagedVehicle_plain (now tTake h : Nat) (i : LayerId) (hs : screened s o v = true) :
    stagedVehicle now tTake h i v =
      { v.withLayer i (.staged h) with
        activity := if v.activity = .idle then .working else v.activity
        idleLevel := .ready
        takeTimer := if v.layer0 = .empty ∧ v.layer1 = .empty then some (startTimer now tTake) else v.takeTimer } := by
  simp only [stagedVehicle, screened_restarts hs]

theorem stagedVehicle_displacing (now tTake h : Nat) (hl : w.layer i = .empty) (ho : w.layer i.other = v.layer i.other) :
    stagedVehicle now tTake h i w =
      { w.withLayer i (.staged h) with
        activity := if w.activity = .idle then .working else w.activity
        idleLevel := .ready
        takeTimer :=
          match v.layer i.other with
          | .active _ => w.takeTimer
          | .staged _ => some (startTimer now tTake)
          | .empty => some (startTimer now tTake) } := by
  rw [stagedVehicle, restart_of_other hl, ho] <;> rfl

theorem walked_vht (s : State) (l : Tbl Order) : (walked s l).vht = s.vht := by rw [walked_only]

theorem walked_liu (s : State) (l : Tbl Order) : (walked s l).liu = s.liu := by rw [walked_only]

/-- The displaced order back in QUEUED, its vehicle without it, and the lines told (R50, R81). -/
theorem vacated_returned {c : Candidate} (hv : tblGet s.vht.vehicles c.slot = some v) (d : Displaces s o c v i k)
    (hd : c.displaces = some i) (hq : tblGet u.ort.orders k = some q) (hs : q.state = .assigned)
    (hloc : q.loc = some (c.slot, i)) (hu : u.vht = s.vht) (hnow : u.now = s.now) :
    OrderReturned k q .queued (issue v.fleetId (.recall k i) u) (vacated c u) ∧
      tblGet (vacated c u).vht.vehicles c.slot = some (leftVehicle s.now s.vht.tTake i v) ∧
      otherVehiclesKept c.slot s (vacated c u) := by
  have back := recallStaged_of_staged (s := u) (by rw [hu]; exact hv) d.staged d.other hq hs
  rw [vacated_some hd]
  have left := back.vehicles
  rw [hloc, layerLeft, (issue_sendsOnly _ _).only u, hu, hnow] at left
  refine ⟨back, ?_, fun j hj => ?_⟩
  · rw [left, hv]
    exact congrArg some (if_pos rfl)
  · rw [left]
    simp only [if_neg hj, Option.map_id']

end Served

/-! ## The grant step (R71, R73, R79, R81 to R85) -/

section Outcome

variable {v : Vehicle} {i : LayerId}

/-- A grant step that serves order `h` by grant `g` on vehicle `v`, met after the orders of `pre`. -/
structure Serves (s : State) (h : Nat) (o : Order) (g : Grant) (v : Vehicle) (pre post : Tbl Order) : Prop where
  order : tblGet s.ort.orders h = some o
  queued : o.state = .queued
  servable : evaluate s o = .servable g
  first : MetFirst s h o pre post
  waits : ∀ e ∈ pre, ∃ r, evaluate s e.2 = .waits r
  vehicle : tblGet s.vht.vehicles g.cand.slot = some v
  candidate : candidateOf s o g.cand.slot v = some g.cand

theorem serves_of_first (c : TablesCanonical s) (ho : tblGet s.ort.orders h = some o) (hq : o.state = .queued)
    (hg : evaluate s o = .servable g)
    (hw : ∀ k p, tblGet s.ort.orders k = some p → p.state = .queued → RanksBefore s k p h o →
      ∃ r, evaluate s p = .waits r) : ∃ v pre post, Serves s h o g v pre post := by
  obtain ⟨pre, post, m⟩ := metFirst_of_queued c.orders.1 ho hq
  obtain ⟨v, hv, hc⟩ := servable_vehicle c.vehicles.1 hg
  refine ⟨v, pre, post, ho, hq, hg, m, fun ⟨k, p⟩ he => ?_, hv, hc⟩
  obtain ⟨⟨hp, hs⟩, hb⟩ := (m.mem k p).1 he
  exact hw k p hp hs hb

namespace Serves

variable (w : Serves s h o g v pre post)

include w

theorem step_eq : grantStep s = staging h o g (walked s pre) (vacated g.cand (walked s pre)) :=
  (grantStep_serves w.first w.servable w.waits).trans (stageOrder_eq h o g _)

theorem vacated_kept : Vacated g.cand v (walked s pre) (vacated g.cand (walked s pre)) :=
  vacated_keeps w.candidate (by rw [walked_vht]; exact w.vehicle)

/-- The order itself takes no wait reason and is not displaced. -/
theorem order_vacated : tblGet (vacated g.cand (walked s pre)).ort.orders h = some o := by
  rw [w.vacated_kept.others h (grantLayer_not_own w.order w.candidate), walked_other, w.order]
  exact fun q hm => RanksBefore.irrefl (h := h) (o := o) (s := s) <| by
    obtain ⟨⟨hq, -⟩, hb⟩ := (w.first.mem h q).1 hm
    rw [w.order] at hq
    cases hq
    exact hb

theorem staged : OrderStaged h o g (vacated g.cand (walked s pre)) (grantStep s) := by
  rw [w.step_eq]
  exact staging_staged w.vacated_kept.framed w.order_vacated w.queued

theorem framed_vacated : Framed s (vacated g.cand (walked s pre)) :=
  (walked_framed s pre).trans w.vacated_kept.framed

theorem record : tblGet (grantStep s).ort.orders h = some (grantedOrder s o g) := by
  rw [w.staged.record, grantedOrder_framed w.framed_vacated]

/-- An order met first takes its wait reason (R79). -/
theorem met (hk : k ≠ h) (hq : tblGet s.ort.orders k = some q) (hs : q.state = .queued) (hb : RanksBefore s k q h o)
    (hn : v.layer (grantLayer g.cand) ≠ .staged k) :
    ∃ r, evaluate s q = .waits r ∧ tblGet (grantStep s).ort.orders k = some { q with waitReason := some r } := by
  have hm := (w.first.mem k q).2 ⟨⟨hq, hs⟩, hb⟩
  obtain ⟨r, hr⟩ := w.waits _ hm
  exact ⟨r, hr, by rw [w.staged.others k hk, w.vacated_kept.others k hn, walked_waits w.first.nodup hm hq hr]⟩

/-- Every other order stands as it did. -/
theorem unmet (hk : k ≠ h) (hq : tblGet s.ort.orders k = some q) (hb : ¬(q.state = .queued ∧ RanksBefore s k q h o))
    (hn : v.layer (grantLayer g.cand) ≠ .staged k) : tblGet (grantStep s).ort.orders k = some q := by
  rw [w.staged.others k hk, w.vacated_kept.others k hn, walked_other, hq]
  intro p hm
  obtain ⟨⟨hp, hs⟩, hr⟩ := (w.first.mem k p).1 hm
  rw [hq] at hp
  cases hp
  exact hb ⟨hs, hr⟩

/-- What the vehicle and the lines see where nothing is displaced (R84, R85). -/
theorem plain (hd : g.cand.displaces = none) : VehicleStaged h o g v s (grantStep s) := by
  have staged := staging_vehicle (g := g) w.vacated_kept.framed w.order_vacated w.queued (v := v)
  rw [← w.step_eq, vacated_none hd, walked_vht] at staged
  obtain ⟨hv, hothers, hlines⟩ := staged w.vehicle
  have hl : (walked s pre).liu = s.liu := walked_liu s pre
  have fr := walked_framed s pre
  rw [fr.now, walked_vht] at hv
  rw [fr.now, fr.lyt] at hlines
  refine ⟨hv, fun j hj => ?_, hlines.trans (issue_liu_congr _ _ (queueNotice_liu_congr _ hl) ?_)⟩
  · rw [hothers j hj, walked_vht]
  · rw [queueNotice_eq, queueNotice_eq _ s]
    exact fr.gwrdy

/-- The shelf of a grant that displaces nothing is claimed for the order (R141). -/
theorem plain_shelves (hd : g.cand.displaces = none) :
    (∀ k, g.shelf = .found k →
      shelfAt (grantStep s).shm k =
        (if o.kind = .supplyEmpty then { shelfAt s.shm k with state := .outbound, claim := some h }
        else { state := .inbound, tag := none, emptyFlag := false, claim := some h }) ∧
      ∀ j, j ≠ k → shelfAt (grantStep s).shm j = shelfAt s.shm j) ∧
    ((∀ k, g.shelf ≠ .found k) → (grantStep s).shm = s.shm) := by
  have hshm : (walked s pre).shm = s.shm := by rw [walked_only]
  have hs := w.staged.shelves
  rw [vacated_none hd] at hs
  rw [hs]
  refine ⟨fun k hf => ⟨?_, fun j hj => ?_⟩, fun hf => ?_⟩
  · rw [claimFound_at hf, if_pos rfl, hshm]
  · rw [claimFound_at hf, if_neg hj, hshm]
  · rw [claimFound_none hf, hshm]

/-- The displaced order is recalled and returns to QUEUED before the grant takes its layer (R81). -/
theorem displaced (hd : g.cand.displaces = some i) (hl : v.layer i = .staged k) (hq : tblGet s.ort.orders k = some q)
    (hs : q.state = .assigned) (hloc : q.loc = some (g.cand.slot, i)) :
    tblGet (grantStep s).ort.orders k = some (returnedOrder s.now .queued q) ∧
    tblGet (grantStep s).vht.vehicles g.cand.slot =
      some (stagedVehicle s.now s.vht.tTake h i (leftVehicle s.now s.vht.tTake i v)) ∧
    otherVehiclesKept g.cand.slot s (grantStep s) ∧
    (grantStep s).liu =
      (issue v.fleetId
        (.stage h i (stopOf? s.lyt (grantedSource o g.shelf)) (stopOf? s.lyt (grantedDest o g.shelf)) o.carrierTag)
        (queueNotice (.orderState h o.hostTag .queued .assigned s.now .none (some v.fleetId))
          (queueNotice (.orderState k q.hostTag .assigned .queued s.now .none (some v.fleetId))
            (issue v.fleetId (.recall k i) s)))).liu := by
  obtain ⟨j, d⟩ := candidateOf_displaces w.candidate hd
  obtain rfl : j = k := Layer.staged.inj (d.staged.symm.trans hl)
  have fr := w.framed_vacated
  have hkw : tblGet (walked s pre).ort.orders j = some q := by
    rw [walked_other, hq]
    intro p hm
    obtain ⟨⟨hp, hps⟩, -⟩ := (w.first.mem j p).1 hm
    rw [hq] at hp
    cases hp
    rw [hs] at hps
    cases hps
  obtain ⟨back, hleft, hothers⟩ := vacated_returned w.vehicle d hd hkw hs hloc (walked_vht s pre) (walked_framed s pre).now
  have hrec := back.record
  have hlines := back.lines
  rw [show vehicleOf (issue v.fleetId (.recall j i) (walked s pre)) q = some v.fleetId by
    rw [(issue_sendsOnly _ _).only, vehicleOf, hloc]
    simp only [walked_vht, w.vehicle, Option.map_some]] at hlines
  rw [(issue_sendsOnly _ _).now, (walked_framed s pre).now] at hrec hlines
  have staged := staging_vehicle (g := g) w.vacated_kept.framed w.order_vacated w.queued hleft
  rw [← w.step_eq] at staged
  obtain ⟨hv, hvo, hliu⟩ := staged
  have htake : (vacated g.cand (walked s pre)).vht.tTake = s.vht.tTake :=
    (congrArg VehicleTable.tTake fr.vht).trans rfl
  rw [fr.now, htake, d.layer] at hv
  rw [fr.now, fr.lyt, d.layer, (leftVehicle_kept ..).1] at hliu
  refine ⟨?_, hv, fun n hn => (hvo n hn).trans (hothers n hn), hliu.trans ?_⟩
  · rw [w.staged.others j (d.ne w.order).symm]
    exact hrec
  · refine issue_liu_congr _ _ (queueNotice_liu_congr _ (hlines.trans ?_)) ?_
    · rw [hs]
      exact queueNotice_liu_congr _ (issue_liu_congr _ _ (walked_liu s pre) (walked_framed s pre).gwrdy)
    · rw [queueNotice_eq, queueNotice_eq _ (queueNotice _ _), queueNotice_eq _ (issue _ _ _), (issue_sendsOnly _ _).only]
      exact fr.gwrdy

end Serves

end Outcome

/-- Settles O52: the walk meets the QUEUED orders by rank, and stages the first that can be served. -/
theorem grantStepServesTheFirstServableOrder : Obligations.GrantStepServesTheFirstServableOrder := by
  refine ⟨fun s hn => ?_, fun s c hrun hex hall => ?_, fun s h o g c hrun hex ho hq hg hfirst => ?_⟩
  · rw [exec_grantStep, if_neg]
    rintro ⟨hr, he⟩
    obtain hn | hn := hn
    · exact hn hr
    · rw [hn] at he
      cases he
  · have hall' : ∀ e ∈ rankedOrders s, ∃ r, evaluate s e.2 = .waits r := fun e he => by
      obtain ⟨hk, hs⟩ := (mem_ranked_iff c.orders.1).1 he
      exact hall e.1 e.2 hk hs
    refine ⟨walked s (rankedOrders s), (grantStep_due hrun hex).trans (congrArg _ (grantStep_waits hall')), ?_,
      walked_only s _, fun k => ?_⟩
    · rw [walked_only]
    · rw [walked_all c.orders.1 k hall] <;> rfl
  · obtain ⟨v, pre, post, w⟩ := serves_of_first c ho hq hg hfirst
    obtain ⟨hbatches, hbac, hfcr⟩ := w.staged.kept
    refine ⟨grantStep s, v, grantedOrder s o g, grantStep_due hrun hex, w.staged.exam,
      w.framed_vacated.trans w.staged.framed, ?_, ?_, ?_, w.vehicle, rfl, w.record, fun k q hk hkq hs hb hn =>
      w.met hk hkq hs hb hn, fun k q hk hkq hb hn => w.unmet hk hkq hb hn, fun hd => ?_, fun i k q u hd hl hkq hs hloc hu => ?_⟩
    · rw [hbac, w.vacated_kept.bac, walked_only]
    · rw [hfcr, w.vacated_kept.fcr, walked_only]
    · rw [hbatches, w.vacated_kept.batches, walked_only]
    · have plain := w.plain hd
      refine ⟨?_, plain.others, plain.lines, w.plain_shelves hd⟩
      rw [plain.vehicle, stagedVehicle_plain _ _ _ _ (candidateOf_plain w.candidate hd).2]
      rfl
    · obtain ⟨hret, hv, hothers, hlines⟩ := w.displaced hd hl hkq hs hloc
      refine ⟨hret, ?_, hothers, hlines⟩
      subst hu
      rw [hv, stagedVehicle_displacing _ _ _ (leftVehicle_layer _ _ _ _) (leftVehicle_layer_other _ _ _ _)]
      rfl

end Sys2Proof.Machine
end
